-- ==== Sys2Proof/Word.lean ====
section
/-! DEFINITION. The words of the part and their plainest arithmetic: 32-bit registers, bytes, and the sorted
address lists that hold registers, host memory and the Granary SRAM. -/

namespace Sys2Proof

abbrev Byte := BitVec 8
abbrev Word := BitVec 32

/-- Bits `lo` to `lo + width − 1` of a number (R6). -/
def bitsOf (v lo width : Nat) : Nat := v / 2 ^ lo % 2 ^ width

/-- `v` with bits `lo` to `lo + width − 1` replaced by the low bits of `x`. -/
def putBits (v lo width x : Nat) : Nat :=
  v % 2 ^ lo + x % 2 ^ width * 2 ^ lo + v / 2 ^ (lo + width) * 2 ^ (lo + width)

/-- Two's complement reading of a `width`-bit field. -/
def signed (v width : Nat) : Int := if v < 2 ^ (width - 1) then v else (v : Int) - 2 ^ width

/-- Two's complement coding of an integer in `width` bits. -/
def unsigned (x : Int) (width : Nat) : Nat := (x % (2 ^ width : Nat)).toNat

/-- An integer held between two bounds. -/
def clampI (lo hi x : Int) : Int := if x < lo then lo else if hi < x then hi else x

/-- A number saturated at the largest value of a `width`-bit field. -/
def satN (width v : Nat) : Nat := min v (2 ^ width - 1)

/-- The `n` bytes of a number, least significant first (R8). -/
def leBytes : Nat → Nat → List Byte
  | 0, _ => []
  | n + 1, v => BitVec.ofNat 8 v :: leBytes n (v / 256)

/-- The number that little-endian bytes spell (R8). -/
def leNat : List Byte → Nat
  | [] => 0
  | b :: bs => b.toNat + 256 * leNat bs

/-- Bytes `lo` to `lo + n − 1` of a byte list as a little-endian number; bytes past the end count as zero. -/
def leAt (bs : List Byte) (lo n : Nat) : Nat := leNat ((bs.drop lo).take n)

/-- The number that bytes in network order spell, and the `n` bytes of a number in that order (R8). -/
def beNat (bs : List Byte) : Nat := leNat bs.reverse
def beAt (bs : List Byte) (lo n : Nat) : Nat := beNat ((bs.drop lo).take n)
def beBytes (n v : Nat) : List Byte := (leBytes n v).reverse

/-- Lookup in a sorted address list whose unlisted addresses read as `dflt` says. -/
def memGet {α : Type} (dflt : Nat → Option α) (m : List (Nat × α)) (k : Nat) : Option α :=
  match m with
  | [] => dflt k
  | (a, v) :: r => if a == k then some v else memGet dflt r k

/-- Removal of an address. -/
def memDel {α : Type} (m : List (Nat × α)) (k : Nat) : List (Nat × α) := m.filter (fun e => e.1 != k)

/-- Insertion at an address, in rising order. -/
def memIns {α : Type} (m : List (Nat × α)) (k : Nat) (x : α) : List (Nat × α) :=
  match m with
  | [] => [(k, x)]
  | (a, v) :: r => if a < k then (a, v) :: memIns r k x else if a == k then (k, x) :: r else (k, x) :: (a, v) :: r

/-- A write in canonical form: the value an unlisted address reads as is not listed. -/
def memPut {α : Type} [DecidableEq α] (dflt : Nat → Option α) (m : List (Nat × α)) (k : Nat) (x : α) :
    List (Nat × α) :=
  if dflt k = some x then memDel m k else memIns m k x

/-- Addresses strictly rising. -/
def memSorted {α : Type} : List (Nat × α) → Bool
  | [] => true
  | [_] => true
  | (a, _) :: (b, w) :: r => a < b && memSorted ((b, w) :: r)

/-- The canonical form of an address list: addresses strictly rising and no entry equal to what an unlisted address
reads as. -/
def memWf {α : Type} [DecidableEq α] (dflt : Nat → Option α) (m : List (Nat × α)) : Bool :=
  memSorted m && m.all (fun e => decide (dflt e.1 ≠ some e.2))

end Sys2Proof
end

