-- ==== Sys2Proof/Syntax.lean ====
section
/-! DEFINITION. The commands of the block: one constructor per row of the opcode table, with what comes from outside
the part as its operands. -/

namespace Sys2Proof

/-- A descriptor as the part read it (R119): where it came from, its fields and the payload bytes, inline or as the
indirect read returned them. -/
structure Desc where
  func : Nat
  /-- 0 command, 1 packet TX, 2 packet RX (R121). -/
  cls : Nat
  ring : Nat
  idx : Nat
  opc : Nat
  ind : Bool
  fence : Bool
  tag : Nat
  target : Nat
  len : Nat
  apply : Nat
  /-- The host address of an indirect payload. -/
  addr : Nat
  /-- The payload; none when the indirect read ended in an error (R120 check 7). -/
  payload : Option (List Byte)
deriving DecidableEq, Repr

/-- Who makes a register access (R159): the function, or Reeve; by a REG_WRITE command. -/
structure Who where
  func : Nat
  rve : Bool
  cmd : Bool := false
deriving DecidableEq, Repr

/-- A BAR0 access (R142, R161): the byte offset it starts at, its length, its byte enables (bit i for byte i), the value
written, lowest byte first, and the LTC time at which it reaches the part, in 2⁻³² ns past where the LTC stands. -/
structure Access where
  who : Who
  off : Nat
  len : Nat
  be : Nat
  val : Nat
  pos : Nat
deriving DecidableEq, Repr

/-- A reference edge as a stamper gives it (R174): how long before the boundary that ends the tick, and the phase it
shows, both in 2 ps units. The phase is a deviation: the reference's time less what the measurement timebase would show of
a nominal one. -/
structure EdgeIn where
  before : Nat
  ph : Int
deriving DecidableEq, Repr

/-- The signal of a Lens input passes a level (R400): which way, and the level in millivolts. -/
structure Crossing where
  rising : Bool
  mv : Int
deriving DecidableEq, Repr

/-- An edge of a filtered pin (R238): how far into the tick, and how long the level it brings then holds, both in ns. -/
structure PinTime where
  ns : Nat
  hold : Nat
deriving DecidableEq, Repr

/-- What reached one reference index in a tick, in time order: its rising edges, its falling edges, and an external fault
its owner reports. Of a KIND 2 or 3 input, the on-time edges found with INV 0 and those found with INV 1 (R173). -/
structure RefIn where
  idx : Nat
  rise : List EdgeIn
  fall : List EdgeIn
  ext : Bool
deriving DecidableEq, Repr

/-- A time-of-day sentence as it came over the UART (R193). -/
structure TodIn where
  /-- The sentence is a ZDA or an RMC; others are ignored. -/
  known : Bool
  rmc : Bool
  cksum : Bool
  /-- Status A of an RMC. -/
  active : Bool
  /-- The fields could be read. -/
  wellFormed : Bool
  year : Nat
  month : Nat
  day : Nat
  hour : Nat
  min : Nat
  sec : Nat
  /-- Nanoseconds from the last boundary to the end of the sentence. -/
  ends : Nat
  /-- The on-time edges that came before that in the tick: how long before the boundary that ends the tick, 2 ps units. -/
  edges : List Nat := []
deriving DecidableEq, Repr

/-- An IRIG-B frame as it was demodulated (R194): B00x or, with Manchester modulation, B22x, `code` its last digit. A field
that the code does not carry (R386) says nothing. -/
structure IrigIn where
  manchester : Bool
  /-- The INV with which the input reads so (R173). -/
  inv : Bool
  code : Nat
  parity : Bool
  wellFormed : Bool
  year : Nat
  doy : Nat
  hour : Nat
  min : Nat
  sec : Nat
  leapPending : Bool
  leapSign : Bool
  /-- C37.118.1 time offset, in half hours. -/
  offset : Int
  tq : Nat
  /-- Daylight saving in effect, and the straight binary seconds. -/
  dst : Bool
  sbs : Nat
deriving DecidableEq, Repr

/-- The UTC fields a reference carries (R81), each where it has it. -/
structure UtcIn where
  offset : Option Nat := none
  valid : Option Bool := none
  leap61 : Option Bool := none
  leap59 : Option Bool := none
deriving DecidableEq, Repr

/-- What an Announce message says of its grandmaster (R475, R476). -/
structure Ann where
  gm : Nat := 0
  prio1 : Nat := 0
  cc : Nat := 0
  acc : Nat := 0
  var : Nat := 0
  prio2 : Nat := 0
  steps : Nat := 0
  utc : UtcIn := {}
deriving DecidableEq, Repr

/-- A PTP frame received in the tick that ended last (R42, R459–R467). Times are in 2⁻¹⁶ ns. -/
structure PtpIn where
  port : Nat
  /-- Transport, destination (0 the primary multicast address, 1 the peer-delay or non-forwardable one, 2 the port's own
  address, 3 another), majorVersionPTP and domainNumber. -/
  trans : Nat
  dst : Nat
  version : Nat
  domain : Nat
  /-- Peer address as the 16 bytes of PADDR spell it (R491), and the sender's portIdentity. -/
  addr : Nat
  clk : Nat
  pnum : Nat
  seq : Nat
  corr : Int
  logInt : Int
  twoStep : Bool
  /-- The timestamp the message carries. -/
  ts : Int
  /-- The portIdentity a response answers. -/
  rclk : Nat
  rpnum : Nat
  /-- How long before the last boundary the timestamp point crossed the balls. -/
  before : Nat
  /-- The frame with its FCS. -/
  raw : List Byte
deriving DecidableEq, Repr

/-- The IEEE 802.1Q tags and the EtherType of a frame from its byte 12 on, in network order (R8, R459): the VIDs outermost
first. -/
def tagsOf : List Byte → List Nat × Nat
  | a :: b :: c :: d :: r =>
    let t := beNat [a, b]
    if t = 0x8100 || t = 0x88A8 then (beNat [c, d] % 4096 :: (tagsOf r).1, (tagsOf r).2) else ([], t)
  | l => ([], beNat (l.take 2))

/-- The VIDs of a PTP frame's tags. -/
def PtpIn.vids (m : PtpIn) : List Nat := (tagsOf (m.raw.drop 12)).1

/-- A unicast negotiation TLV (R496–R498): message type 0 Announce, 1 Sync, 2 Delay_Resp; log interval; duration in
seconds, 0 for a denial. -/
structure SigIn where
  typ : Nat
  logInt : Int
  dur : Nat
deriving DecidableEq, Repr

/-- A non-PTP frame (R484), with its FCS. -/
structure FrameIn where
  port : Nat
  raw : List Byte
deriving DecidableEq, Repr

/-- Its destination address and EtherType. -/
def FrameIn.dst (f : FrameIn) : Nat := beAt f.raw 0 6
def FrameIn.etherType (f : FrameIn) : Nat := (tagsOf (f.raw.drop 12)).2

/-- An ESMC PDU (R481): whether it carries a QL TLV and is well formed, its SSM code, its enhanced SSM code. -/
structure EsmcIn where
  valid : Bool
  ssm : Nat
  essm : Option Nat
  frame : FrameIn
deriving DecidableEq, Repr

/-- A PTP message to send (R499): its kind (0 Delay_Resp, 1 Pdelay_Resp, 2 Sync, 3 Announce, 4 Delay_Req, 5 Pdelay_Req,
6 Signaling), instance, port, session slot (none for multicast) and sequenceId; for an answer the portIdentity it goes
to; for Signaling 0 request, 1 grant or denial, 2 cancel, 3 acknowledge, with its TLV. -/
structure Msg where
  kind : Nat
  inst : Nat
  port : Nat
  slot : Option Nat
  seq : Nat
  clk : Nat := 0
  pnum : Nat := 0
  sig : Nat := 0
  tlv : SigIn := ⟨0, 0, 0⟩
  /-- Ingress stamp, 2⁻¹⁶ ns, and correctionField of the request that an answer answers. -/
  rx : Int := 0
  corr : Int := 0
deriving DecidableEq, Repr

/-- A channel of a Mirror snapshot (R557): offsets and phases in seconds, O_c in 2 ps units, `r` is φ_C less the LTC. -/
structure SnapChan where
  num : Nat
  st : Nat
  lseen : Bool
  force : Nat
  cur : Option Nat
  oc : Rat
  d : Rat
  dt : Rat
  i : Rat
  pk : Rat
  lockN : Nat
  unlockN : Nat
  r : Rat
deriving DecidableEq, Repr

/-- A fragment of a snapshot with its epoch (R556, R557). A Hearth fragment carries its number and numbers (log entry
19). -/
inductive Frag
  | ltc (epoch sec ns frac utcoff qual timechan : Nat)
  | refs (epoch : Nat) (words : List Nat)
  | chan (epoch : Nat) (c : SnapChan)
  | hearth (hepoch fnum : Nat) (vals : List Rat)
deriving DecidableEq, Repr

/-- The Mirror bytes of a link frame (R555). -/
structure MirIn where
  key : Bool
  prio : Bool
  shosc : Bool
  mode : Nat
  epoch : Nat
  hepoch : Nat
  frags : List Frag
deriving DecidableEq, Repr

/-- A Polsis link frame as it was received: its bytes (R523); what the payloads of its Mirror fragments spell, whose layout
is open (log entry 19); its arrival, 2⁻¹⁶ ns into the tick. -/
structure LinkIn where
  port : Nat
  raw : List Byte
  frags : List Frag
  pos : Nat
deriving DecidableEq, Repr

/-- The fields of a Polsis time frame (R522). Times in 2⁻¹⁶ ns. -/
structure TimeFrame where
  origin : Nat
  hops : Nat
  otn : Nat
  sec : Nat
  ns : Nat
  frac : Nat
  acclat : Nat
  ql : Nat
  cc : Nat
  qual : Nat
  utcf : Nat
  utcoff : Nat
deriving DecidableEq, Repr

/-- A time frame as it was received: port, bytes (R522), arrival in 2⁻¹⁶ ns into the tick, and the residence it will have on
each port it is forwarded to, 2⁻¹⁶ ns (R528, R532). -/
structure TimeIn where
  port : Nat
  raw : List Byte
  pos : Nat
  resid : List Nat
deriving DecidableEq, Repr

/-- An upstream transaction that waits (R137): function, class (0 CPL, 1 FETCH, 2 STAT, 3 CAP, 4 PKT, 5 SESS), ring, and the
bytes it is charged. -/
structure Backlog where
  func : Nat
  cls : Nat
  ring : Nat
  len : Nat
deriving DecidableEq, Repr

/-- What reached the part from outside in the tick that a boundary ends, and what its processors made of that tick. -/
structure TickIn where
  /-- What reached each reference index; one not listed received nothing. -/
  refs : List RefIn := []
  /-- UTC fields that references carried, by index. -/
  utc : List (Nat × UtcIn) := []
  /-- Overruns (R58): channels; Herald, with received frames lost by port; measurements, 64 the sentinel; Reeve. -/
  milOver : List Nat := []
  hrdOver : Option (List Nat) := none
  tlyOver : List Nat := []
  /-- For Reeve, the steps of R42 it had finished. -/
  rveOver : Option Nat := none
  /-- The firmware signal, and the largest cycles of a Miller channel, a Tally core, Reeve and a Herald core. -/
  beat : Bool := true
  cycles : Nat × Nat × Nat × Nat := (0, 0, 0, 0)
  /-- Junction temperature, 1/256 °C; sensed bank supplies; fine control of the Looms, percent. -/
  tj : Int := 0
  vddo : List Nat := []
  fine : List (Nat × Int) := []
  /-- When each Polsis port's link frame and originated time frame left, 2⁻¹⁶ ns after the boundary. -/
  stamps : List Nat := []
  deps : List Nat := []
  /-- Bytes the upstream carries to the host in the tick. -/
  link : Nat := 1000000000
deriving DecidableEq, Repr

/-- The commands: one constructor per row of the opcode table. -/
inductive Instr
  /-- TICK_BOUNDARY (R44). -/
  | tickBoundary (x : TickIn)
  /-- MSIX_SIGNAL (R135). -/
  | msixSignal (func : Nat) (vec : Nat)
  /-- BUFFER_DRAIN (R422). -/
  | bufferDrain (n : Nat)
  /-- UPSTREAM_ARBITRATION (R138), with the read requests that wait beside what the part has charged. -/
  | upstreamArbitration (waiting : List Backlog)
  /-- MONITOR_DUE (R184). -/
  | monitorDue (x : RefIn)
  /-- SOAK_END (R188). -/
  | soakEnd (x : RefIn)
  /-- MISSING_EDGE (R178). -/
  | missingEdge (i : Nat) (pos : Nat)
  /-- TOD_SENTENCE (R193). -/
  | todSentence (x : TodIn)
  /-- IRIG_B_FRAME_RECEIVED (R194). -/
  | irigBFrameReceived (x : IrigIn)
  /-- CHANNEL_LOCK (R259). -/
  | channelLock (c : Nat)
  /-- CHANNEL_UNLOCK (R259). -/
  | channelUnlock (c : Nat)
  /-- SPECULATION_LIMIT (R290). -/
  | speculationLimit (c : Nat)
  /-- LEARN_END (R221). -/
  | learnEnd (e : Nat) (m : Nat)
  /-- TAMPER_REJOIN (R220). -/
  | tamperRejoin (e : Nat) (m : Nat)
  /-- ALLAN_WEIGHT_UPDATE (R219). -/
  | allanWeightUpdate (e : Nat)
  /-- HEARTH_REANCHOR (R226). -/
  | hearthReanchor (e : Nat)
  /-- ASYM_WINDOW_END (R233). -/
  | asymWindowEnd (e : Nat)
  /-- HEARTH_INTERVAL_END (R309). -/
  | hearthIntervalEnd
  /-- TEMPERATURE_READING (R311). -/
  | temperatureReading (die : Int) (therm : Option Int)
  /-- LEAP_SECOND (R83). -/
  | leapSecond
  /-- BAND_SEARCH_MEASUREMENT (R340). -/
  | bandSearchMeasurement (n : Nat) (hz : Nat)
  /-- LOOM_LOCK (R340). -/
  | loomLock (n : Nat)
  /-- LOOM_ATTEMPT_FAIL (R342). -/
  | loomAttemptFail (n : Nat)
  /-- LOOM_LOSS_OF_LOCK (R339). -/
  | loomLossOfLock (n : Nat)
  /-- BAND_HOP (R338). -/
  | bandHop (n : Nat) (fine : Int) (after : Int)
  /-- GLIDE_STEP (R347). -/
  | glideStep (n : Nat)
  /-- COMB_SLEW_END (R333). -/
  | combSlewEnd (n : Nat)
  /-- BRIDGE_READY (R351). -/
  | bridgeReady (g : Nat)
  /-- OUTPUT_FIRST_EDGE (R369). -/
  | outputFirstEdge (o : Nat) (after : Nat)
  /-- SYNC_IN_EDGE (R378). -/
  | syncInEdge (after : Nat)
  /-- SYNC_GROUP_RESET_DONE (R379). -/
  | syncGroupResetDone (g : Nat)
  /-- PPS_EDGE (R381). -/
  | ppsEdge
  /-- TIMECODE_FRAME (R385). -/
  | timecodeFrame
  /-- LENS_EDGE (R405). -/
  | lensEdge (i : Nat) (x : Crossing) (pos : Nat)
  /-- BURST_WINDOW_END (R410). -/
  | burstWindowEnd (u : Nat) (pos : Nat)
  /-- TALLY_WINDOW_CLOSE (R435). -/
  | tallyWindowClose (m : Nat)
  /-- SENTINEL_WINDOW_CLOSE (R449). -/
  | sentinelWindowClose
  /-- SENTINEL_LOST (R451). -/
  | sentinelLost
  /-- PORT_LINK_CHANGE (R463). -/
  | portLinkChange (p : Nat) (up : Bool) (align : Bool)
  /-- SYNC (R472). -/
  | sync (m : PtpIn)
  /-- FOLLOW_UP (R472). -/
  | followUp (m : PtpIn)
  /-- DELAY_REQ (R471). -/
  | delayReq (m : PtpIn)
  /-- DELAY_RESP (R472). -/
  | delayResp (m : PtpIn)
  /-- PDELAY_REQ (R471). -/
  | pdelayReq (m : PtpIn)
  /-- PDELAY_RESP (R472). -/
  | pdelayResp (m : PtpIn)
  /-- PDELAY_RESP_FOLLOW_UP (R472). -/
  | pdelayRespFollowUp (m : PtpIn)
  /-- ANNOUNCE (R475). -/
  | announce (m : PtpIn) (a : Ann)
  /-- REQUEST_UNICAST_TRANSMISSION (R496). -/
  | requestUnicastTransmission (m : PtpIn) (t : SigIn)
  /-- GRANT_UNICAST_TRANSMISSION (R497). -/
  | grantUnicastTransmission (m : PtpIn) (t : SigIn)
  /-- CANCEL_UNICAST_TRANSMISSION (R498). -/
  | cancelUnicastTransmission (m : PtpIn) (t : SigIn)
  /-- ACKNOWLEDGE_CANCEL_UNICAST_TRANSMISSION (R498). -/
  | acknowledgeCancelUnicastTransmission (m : PtpIn)
  /-- MANAGEMENT_MESSAGE (R467). -/
  | managementMessage (m : PtpIn)
  /-- NON_PTP_FRAME (R484). -/
  | nonPtpFrame (f : FrameIn)
  /-- ESMC_PDU (R481). -/
  | esmcPdu (m : EsmcIn)
  /-- ESMC_TIMEOUT (R481). -/
  | esmcTimeout (p : Nat)
  /-- ESMC_INFORMATION_PDU (R482). -/
  | esmcInformationPdu (p : Nat)
  /-- MESSAGE_DUE (R499). -/
  | messageDue (m : Msg) (pos : Nat)
  /-- MESSAGE_SKIP (R500). -/
  | messageSkip (m : Msg)
  /-- SESSION_ENTRY_FETCH (R495). -/
  | sessionEntryFetch (port : Nat) (slot : Option Nat) (key : Nat × Nat × Nat) (late : Bool)
  /-- GRANT_EXPIRY (R496). -/
  | grantExpiry (slot : Nat) (t : Nat)
  /-- GRANT_RENEWAL (R497). -/
  | grantRenewal (slot : Nat) (t : Nat)
  /-- REQUEST_RETRY (R497). -/
  | requestRetry (slot : Nat) (t : Nat)
  /-- ANNOUNCE_TIMEOUT (R475). -/
  | announceTimeout (k : Nat)
  /-- SYNC_TIMEOUT (R474). -/
  | syncTimeout (k : Nat)
  /-- QUARANTINE_END (R509). -/
  | quarantineEnd (k : Nat)
  /-- HOST_FRAME_SENT (R486). -/
  | hostFrameSent (ring : Nat)
  /-- LINK_FRAME_RECEIVED (R523). -/
  | linkFrameReceived (m : LinkIn)
  /-- TIME_FRAME_RECEIVED (R530). -/
  | timeFrameReceived (m : TimeIn)
  /-- POLSIS_LINK_UP (R519). -/
  | polsisLinkUp (p : Nat)
  /-- POLSIS_LINK_DOWN (R519). -/
  | polsisLinkDown (p : Nat)
  /-- LANE_SWAP (R525). -/
  | laneSwap (p : Nat)
  /-- ASYMMETRY_UPDATE (R526). -/
  | asymmetryUpdate (p : Nat)
  /-- CALIBRATION_END (R527). -/
  | calibrationEnd (p : Nat)
  /-- FRAME_LOSS (R533). -/
  | frameLoss (p : Nat)
  /-- ORIGIN_RELEASE (R531). -/
  | originRelease (p : Nat)
  /-- ORIGIN_ENTRY_FREE (R532). -/
  | originEntryFree (o : Nat)
  /-- KEY_SAMPLE (R544). -/
  | keySample (high : Bool)
  /-- KEY_SENSE_CHANGE (R550). -/
  | keySenseChange (high : Bool)
  /-- TAKEOVER (R564). -/
  | takeover
  /-- HOLDOFF_EXPIRY (R549). -/
  | holdoffExpiry
  /-- OVERRIDE_END (R554). -/
  | overrideEnd
  /-- SNAPSHOT_COMMIT (R558). -/
  | snapshotCommit
  /-- HEARTH_SNAPSHOT_COMMIT (R559). -/
  | hearthSnapshotCommit
  /-- MIRROR_LINK_LOST (R568). -/
  | mirrorLinkLost
  /-- TAMPER_EDGE (R238). -/
  | tamperEdge (pin : Nat) (rising : Bool) (t : PinTime)
  /-- PAGE_STORE_START (R582). -/
  | pageStoreStart
  /-- PAGE_STORE_COMPLETE (R582). -/
  | pageStoreComplete (ok : Bool)
  /-- WEAR_COUNTER_WRITE (R597). -/
  | wearCounterWrite (c : Nat) (worn : Bool)
  /-- FAULT_OCCURRENCE (R601). -/
  | faultOccurrence (srcs : List Nat) (ended : List Nat) (bad : List Nat)
  /-- REACTION_END (R607). -/
  | reactionEnd
  /-- SUPPRESSION_END (R612). -/
  | suppressionEnd (n : Nat)
  /-- REEVE_WATCHDOG (R606). -/
  | reeveWatchdog
  /-- SAFE_ENTRY (R615). -/
  | safeEntry
  /-- POWER_FAIL_WARNING (R624). -/
  | powerFailWarning (pin : Bool) (ns : Nat)
  /-- POWER_FAIL_CLEARED (R627). -/
  | powerFailCleared
  /-- RAIL_OUT_OF_RANGE (R620). -/
  | railOutOfRange (r : Nat)
  /-- CORE_FAILURE (R625). -/
  | coreFailure (vbak : Bool)
  /-- EMBER_ENTRY (R322). -/
  | emberEntry
  /-- EMBER_SECOND (R322). -/
  | emberSecond
  /-- VBAK_LOSS (R626). -/
  | vbakLoss
  /-- CORE_RAILS_IN_RANGE (R619). -/
  | coreRailsInRange (ok : Nat)
  /-- POR_RELEASE (R620). -/
  | porRelease (boot : Nat) (prio : Bool)
  /-- RST_N (R637). -/
  | rstN (low : Bool)
  /-- PERST_N (R637). -/
  | perstN
  /-- FUNCTION_LEVEL_RESET (R99). -/
  | functionLevelReset (f : Nat)
  /-- ROM_COMPLETE (R634). -/
  | romComplete (osc : Bool)
  /-- GRANARY_RECOVERY (R588). -/
  | granaryRecovery
  /-- FIRMWARE_LOAD (R635). -/
  | firmwareLoad (flash : Option (List Byte))
  /-- CALIBRATION_COMPLETE (R634). -/
  | calibrationComplete (crc : Nat)
  /-- REGISTER_IMAGE_APPLY (R595). -/
  | registerImageApply
  /-- AUTO_MODE_ENTRY (R634). -/
  | autoModeEntry
  /-- DOORBELL_WRITE (R113). -/
  | doorbellWrite (f : Nat) (page : Nat) (off : Nat) (size : Nat) (v : Nat)
  /-- DESCRIPTOR_FETCH (R120). -/
  | descriptorFetch (f : Nat) (cls : Nat) (ring : Nat) (bytes : Option (List Byte)) (ind : Option (List Byte))
  /-- NOP (R125). -/
  | nop (d : Desc)
  /-- REG_WRITE (R126). -/
  | regWrite (d : Desc)
  /-- LTC_STEP (R127). -/
  | ltcStep (d : Desc)
  /-- MODE_SET (R630). -/
  | modeSet (d : Desc)
  /-- REF_FORCE (R202). -/
  | refForce (d : Desc)
  /-- PRIO_TABLE (R203). -/
  | prioTable (d : Desc)
  /-- REF_OVERRIDE (R190). -/
  | refOverride (d : Desc)
  /-- ENSEMBLE_SET (R234). -/
  | ensembleSet (d : Desc)
  /-- TAMPER_CLEAR (R235). -/
  | tamperClear (d : Desc)
  /-- CHAN_STATE (R271). -/
  | chanState (d : Desc)
  /-- CHAN_PHASE (R272). -/
  | chanPhase (d : Desc)
  /-- CHAN_LOOP (R273). -/
  | chanLoop (d : Desc)
  /-- HEARTH_CTL (R325). -/
  | hearthCtl (d : Desc)
  /-- LOOM_TUNE (R356). -/
  | loomTune (d : Desc)
  /-- LOOM_RELOCK (R357). -/
  | loomRelock (d : Desc)
  /-- OUT_CTL (R393). -/
  | outCtl (d : Desc)
  /-- SYNC_GROUP (R395). -/
  | syncGroup (d : Desc)
  /-- TCD_CTL (R396). -/
  | tcdCtl (d : Desc)
  /-- LENS_ARM (R426). -/
  | lensArm (d : Desc)
  /-- CAP_RING_CTL (R427). -/
  | capRingCtl (d : Desc)
  /-- TM_CTL (R454). -/
  | tmCtl (d : Desc)
  /-- SENTINEL_CTL (R455). -/
  | sentinelCtl (d : Desc)
  /-- PTP_INST (R487). -/
  | ptpInst (d : Desc)
  /-- SESS_ADD (R513). -/
  | sessAdd (d : Desc)
  /-- SESS_DEL (R514). -/
  | sessDel (d : Desc)
  /-- ACCEPT_STEP (R506). -/
  | acceptStep (d : Desc)
  /-- ASYM_SET (R510). -/
  | asymSet (d : Desc)
  /-- PLK_CTL (R539). -/
  | plkCtl (d : Desc)
  /-- KEY_CTL (R570). -/
  | keyCtl (d : Desc)
  /-- GRN_STORE (R584). -/
  | grnStore (d : Desc)
  /-- GRN_PF_MARK (R585). -/
  | grnPfMark (d : Desc)
  /-- WCH_CLEAR (R613). -/
  | wchClear (d : Desc)
  /-- PKT_TX (R128). -/
  | pktTx (d : Desc)
  /-- PKT_RXBUF (R128). -/
  | pktRxbuf (d : Desc)
  /-- REGISTER_WRITE (R150). -/
  | registerWrite (a : Access)
  /-- LTC_CAPTURE (R87). -/
  | ltcCapture (a : Access)
  /-- LTC_STEP_REQUEST (R76). -/
  | ltcStepRequest (a : Access)
  /-- UTCOFF_WRITE (R82). -/
  | utcoffWrite (a : Access)
  /-- VIOLATION_CLEAR (R160). -/
  | violationClear (a : Access)
  /-- RING_ENABLE (R107). -/
  | ringEnable (a : Access)
  /-- RING_DISABLE (R107). -/
  | ringDisable (a : Access)
  /-- REF_ENABLE (R189). -/
  | refEnable (a : Access)
  /-- REF_DISABLE (R189). -/
  | refDisable (a : Access)
  /-- PRELOCK_LATCH (R208). -/
  | prelockLatch (a : Access)
  /-- ENSEMBLE_ENABLE (R217). -/
  | ensembleEnable (a : Access)
  /-- ENSEMBLE_DISABLE (R218). -/
  | ensembleDisable (a : Access)
  /-- ENSEMBLE_LATCH (R236). -/
  | ensembleLatch (a : Access)
  /-- CHANNEL_ENABLE (R263). -/
  | channelEnable (a : Access)
  /-- CHANNEL_DISABLE (R263). -/
  | channelDisable (a : Access)
  /-- FREE_RUN_WORD_LOAD (R246). -/
  | freeRunWordLoad (a : Access)
  /-- MILLER_LATCH (R278). -/
  | millerLatch (a : Access)
  /-- HEARTH_LATCH (R326). -/
  | hearthLatch (a : Access)
  /-- LOOM_ENABLE (R334). -/
  | loomEnable (a : Access)
  /-- LOOM_DISABLE (R335). -/
  | loomDisable (a : Access)
  /-- LOOM_FC_LOAD (R330). -/
  | loomFcLoad (a : Access)
  /-- BAND_TABLE_LATCH (R360). -/
  | bandTableLatch (a : Access)
  /-- OUTPUT_ENABLE (R369). -/
  | outputEnable (a : Access)
  /-- OUTPUT_DISABLE (R369). -/
  | outputDisable (a : Access)
  /-- BURST_ARM (R410). -/
  | burstArm (a : Access)
  /-- BURST_DISARM (R410). -/
  | burstDisarm (a : Access)
  /-- KEY_OVERRIDE (R553). -/
  | keyOverride (a : Access)
  /-- TUNNEL_DATA_WRITE (R536). -/
  | tunnelDataWrite (a : Access)
  /-- TUNNEL_SEND (R536). -/
  | tunnelSend (a : Access)
  /-- TUNNEL_RX_POP (R537). -/
  | tunnelRxPop (a : Access)
  /-- SPI_BUS_TAKE (R671). -/
  | spiBusTake (a : Access)
  /-- SPI_CHIP_SELECT (R671). -/
  | spiChipSelect (a : Access)
  /-- SPI_TX (R671). -/
  | spiTx (a : Access)
  /-- SPI_BYTE_SHIFTED (R671). -/
  | spiByteShifted (v : Nat)
  /-- SPI_RX_POP (R671). -/
  | spiRxPop (a : Access)
  /-- GRN_UNLOCK (R580). -/
  | grnUnlock (a : Access)
  /-- GRN_LOCK (R580). -/
  | grnLock (a : Access)
  /-- GRN_SET_PASSWORD (R580). -/
  | grnSetPassword (a : Access)
  /-- WEAR_COUNTER_INCREMENT (R597). -/
  | wearCounterIncrement (a : Access)
  /-- WEAR_COUNTER_SELECT (R599). -/
  | wearCounterSelect (a : Access)
  /-- GRANARY_WRITE (R577). -/
  | granaryWrite (off : Nat) (bs : List Byte)
  /-- SAFE_EXIT_REQUEST (R633). -/
  | safeExitRequest (a : Access)
  /-- SOFTWARE_RESET (R637). -/
  | softwareReset (a : Access)
  /-- HOST_FIRMWARE_LOAD (R635). -/
  | hostFirmwareLoad (a : Access)
  /-- GRANARY_READ (R578). -/
  | granaryRead (off : Nat) (n : Nat)
  /-- CROSSING_READ (R164). -/
  | crossingRead (a : Access)
  /-- FINE_DELAY_MOVE_END (R367). -/
  | fineDelayMoveEnd (o : Nat)
  /-- RECEIVE_CLOCK_LOCK_CHANGE (R480). -/
  | receiveClockLockChange (p : Nat) (lock : Bool)
  /-- RAIL_RETURN_TO_RANGE (R620). -/
  | railReturnToRange (r : Nat)
  /-- VF_ENABLE_CHANGE (R98). -/
  | vfEnableChange (n : Nat)
deriving DecidableEq, Repr

end Sys2Proof
end

