-- ==== Sys2Proof/Config.lean ====
section
/-! DEFINITION. What the spec leaves to the part: constants fixed at manufacture and free values. Every constant here is
opaque, so no proof can see its value and every claim holds whatever it is. -/

namespace Sys2Proof.Config

/-- The unique die identifier, 64 bits (R667). -/
opaque uid : BitVec 64

/-- Whether a value that a rounding the spec leaves open meets goes up; otherwise it goes down (log entry 8). -/
opaque roundsUp : Rat → Bool

/-- The `n`-th value the spec leaves open, as a 64-bit pattern (log entry 9). -/
opaque freeValue : Nat → BitVec 64

/-- The factory contents of the Granary CAL region, page by byte (R573, log entry 10). -/
opaque calByte : Nat → BitVec 8

/-- Byte `n` of the payload of a Mirror fragment: the spec gives its length and contents and no layout (R557, R559, log entry
19). -/
opaque fragByte : Frag → Nat → BitVec 8

/-- A rational brought to an integer where the spec does not say how to round: down or up, never further (entry 8). -/
def quant (r : Rat) : Int := if r.den = 1 then r.num else if roundsUp r then r.floor + 1 else r.floor

end Sys2Proof.Config
end

