-- ==== Sys2Proof/Machine/Regs.lean ====
section
/-! DEFINITION. The names of the register fields of BAR0, one per field of the spec's register tables, each with its
word index inside its block, its low bit and its width; and the base of every block. The tables themselves (access
codes, reset values, locks, accepted values) are in RegMap.lean. -/

namespace Sys2Proof.Machine

/-- Where a field stands inside its block: word index, low bit, width. -/
structure Fld where
  idx : Nat
  lo : Nat
  width : Nat
deriving DecidableEq, Repr

/-- The same field, `i` registers further on (for a row of the spec that names several registers). -/
def Fld.at (f : Fld) (i : Nat) : Fld := { f with idx := f.idx + i }

/-- The same field, `n` bits further up (for the bits of a bit map). -/
def Fld.up (f : Fld) (n : Nat) : Fld := { f with lo := f.lo + n }

/-- One bit of a field. -/
def Fld.bit (f : Fld) (n : Nat) : Fld := { f with lo := f.lo + n, width := 1 }

/-! Block bases as register keys: window number × 1,024 + word index (R142, R662, R663). -/
def glbR : Nat := 0
def rveR : Nat := 1024
def wchR : Nat := 2 * 1024
def grnR : Nat := 3 * 1024
def ltcR : Nat := 4 * 1024
def glb1R : Nat := 5 * 1024
def prsR : Nat := 8 * 1024
def tcdR : Nat := 72 * 1024
def lnsR : Nat := 44 * 1024
def senR : Nat := 48 * 1024
def hrcR : Nat := 56 * 1024
def mirR : Nat := 64 * 1024
def pwrR : Nat := 68 * 1024
/-- A command, completion, event or packet ring block of function `f` (R105): `k` counts 0–3 command, 4–7 completion,
8 event, 9–12 packet TX, 13–16 packet RX. -/
def fringR (f k : Nat) : Nat := f * 2 ^ 20 + 0x100 + 8 * k
/-- A capture (0–15) or statistics (16–23) ring block (R105). -/
def dringR (k : Nat) : Nat := 0x200 + 8 * k
/-- The function-relative GLB registers of function `f` (R166). -/
def fglbR (f : Nat) : Nat := f * 2 ^ 20
def ensR (e : Nat) : Nat := 0x340 + 8 * e
def emsR (e m : Nat) : Nat := 0x380 + 16 * e + 2 * m
def swoR (c : Nat) : Nat := 5 * 1024 + 0x40 + 4 * c
def priR (i : Nat) : Nat := 8 * 1024 + 0x200 + 8 * i
def prcR (c : Nat) : Nat := 9 * 1024 + 16 * c
def milR (n : Nat) : Nat := (12 + n) * 1024
def lomR (n : Nat) : Nat := (28 + n) * 1024
def bankR (g : Nat) : Nat := (36 + g) * 1024
def outR (n : Nat) : Nat := (36 + n / 8) * 1024 + 4 * (n % 8)
def lniR (i : Nat) : Nat := 44 * 1024 + 4 * i
def bstR (u : Nat) : Nat := 45 * 1024 + 16 * u
def tlyR (m : Nat) : Nat := 48 * 1024 + 8 * m
def hrpR (p : Nat) : Nat := (52 + p) * 1024
def piR (k : Nat) : Nat := 56 * 1024 + 0x180 + 16 * k
def pjR (k : Nat) : Nat := 56 * 1024 + 0x80 + 16 * k
def plkR (p : Nat) : Nat := (60 + p) * 1024


/-! `01_overview.md`, R26. -/
def GLB_CAP0_MIL_N : Fld := ⟨4, 0, 8⟩
def GLB_CAP0_OUT_N : Fld := ⟨4, 8, 8⟩
def GLB_CAP0_LOM_N : Fld := ⟨4, 16, 4⟩
def GLB_CAP0_LNS_N : Fld := ⟨4, 20, 4⟩
def GLB_CAP0_HRD_N : Fld := ⟨4, 24, 4⟩
def GLB_CAP0_PLK_N : Fld := ⟨4, 28, 4⟩

/-! `01_overview.md`, R27. -/
def GLB_CAP1_MIR : Fld := ⟨5, 0, 1⟩
def GLB_CAP1_HRD : Fld := ⟨5, 1, 1⟩
def GLB_CAP1_PLK : Fld := ⟨5, 2, 1⟩
def GLB_CAP1_PI_N : Fld := ⟨5, 4, 4⟩
def GLB_CAP1_CAPR_N : Fld := ⟨5, 8, 8⟩
def GLB_CAP1_VF_N : Fld := ⟨5, 16, 8⟩

/-! `01_overview.md`, R28. -/
def GLB_CAP2_SESS_LOG2 : Fld := ⟨6, 0, 5⟩
def GLB_CAP2_TM_N : Fld := ⟨6, 8, 8⟩
def GLB_CAP2_EV_N : Fld := ⟨6, 16, 8⟩
def GLB_CAP2_WF_N : Fld := ⟨6, 24, 8⟩

/-! `01_overview.md`, R29. -/
def GLB_CAP3_GRN_LOG2 : Fld := ⟨7, 0, 4⟩
def GLB_CAP3_MODE_N : Fld := ⟨7, 8, 8⟩
def GLB_CAP3_EMB_OUT : Fld := ⟨7, 16, 8⟩
def GLB_CAP3_EMBER : Fld := ⟨7, 24, 1⟩

/-! `02_tick.md`, R36. -/
def GLB_TN_LO_TN_LO : Fld := ⟨8, 0, 32⟩
def GLB_TN_HI_TN_HI : Fld := ⟨9, 0, 32⟩
def GLB_TIX_TIX : Fld := ⟨10, 0, 15⟩

/-! `02_tick.md`, R66. -/
def GLB_OVR_MIL_CHAN : Fld := ⟨12, 0, 16⟩
def GLB_OVR_MIL_COUNT : Fld := ⟨12, 16, 16⟩
def GLB_OVR_HRD_TXSKIP : Fld := ⟨13, 0, 16⟩
def GLB_OVR_HRD_RXDROP : Fld := ⟨13, 16, 16⟩
def GLB_OVR_TLY_WINDROP : Fld := ⟨14, 0, 16⟩
def GLB_OVR_TLY_TICKS : Fld := ⟨14, 16, 16⟩
def GLB_OVR_RVE_TICKS : Fld := ⟨15, 0, 16⟩
def GLB_OVR_RVE_LATE : Fld := ⟨15, 16, 16⟩
def GLB_PEAK0_MIL : Fld := ⟨16, 0, 16⟩
def GLB_PEAK0_TLY : Fld := ⟨16, 16, 16⟩
def GLB_PEAK1_RVE : Fld := ⟨17, 0, 16⟩
def GLB_PEAK1_HRD : Fld := ⟨17, 16, 16⟩

/-! `03_time.md`, R78. -/
def GLB_TIMECHAN_CHAN : Fld := ⟨20, 0, 4⟩
def GLB_TIMECHAN_EN : Fld := ⟨20, 8, 1⟩

/-! `03_time.md`, R81. -/
def LTC_UTCOFF_OFFSET : Fld := ⟨8, 0, 16⟩
def LTC_UTCOFF_LEAP61 : Fld := ⟨8, 16, 1⟩
def LTC_UTCOFF_LEAP59 : Fld := ⟨8, 17, 1⟩
def LTC_UTCOFF_VALID : Fld := ⟨8, 18, 1⟩
def LTC_UTCOFF_FOLLOW : Fld := ⟨8, 19, 1⟩
def LTC_UTCOFF_LEAP_INS : Fld := ⟨8, 20, 1⟩

/-! `03_time.md`, R87. -/
def LTC_STATUS_COLD : Fld := ⟨0, 0, 1⟩
def LTC_STATUS_SET : Fld := ⟨0, 1, 1⟩
def LTC_STATUS_STATE : Fld := ⟨0, 2, 2⟩
def LTC_STATUS_ERR : Fld := ⟨0, 4, 5⟩
def LTC_STATUS_STEP_PEND : Fld := ⟨0, 9, 1⟩
def LTC_STATUS_SLEW : Fld := ⟨0, 10, 1⟩
def LTC_CAPTURE_GO : Fld := ⟨1, 0, 1⟩
def LTC_SNAP_NS_NS : Fld := ⟨2, 0, 30⟩
def LTC_SNAP_FRAC_FRAC : Fld := ⟨3, 0, 32⟩
def LTC_SNAP_S_LO_S_LO : Fld := ⟨4, 0, 32⟩
def LTC_SNAP_S_HI_S_HI : Fld := ⟨5, 0, 16⟩
def LTC_SNAP_TN_LO_TN_LO : Fld := ⟨6, 0, 32⟩
def LTC_SNAP_TN_HI_TN_HI : Fld := ⟨7, 0, 32⟩
def LTC_STEP_S_LO_S_LO : Fld := ⟨9, 0, 32⟩
def LTC_STEP_S_HI_S_HI : Fld := ⟨10, 0, 16⟩
def LTC_STEP_NS_NS : Fld := ⟨11, 0, 30⟩
def LTC_STEP_CTL_GO : Fld := ⟨12, 0, 1⟩
def LTC_STEPCNT_APPLIED : Fld := ⟨13, 0, 16⟩
def LTC_STEPCNT_REFUSED : Fld := ⟨13, 16, 16⟩

/-! `04_host_rings.md`, R104. -/
def GLB_RING_BASE_LO_ADDR : Fld := ⟨0, 6, 26⟩
def GLB_RING_BASE_HI_ADDR : Fld := ⟨1, 0, 32⟩
def GLB_RING_CFG_LOG2SIZE : Fld := ⟨2, 0, 5⟩
def GLB_RING_CFG_VEC : Fld := ⟨2, 8, 6⟩
def GLB_RING_CFG_IRQ_EN : Fld := ⟨2, 14, 1⟩
def GLB_RING_CFG_WB_EN : Fld := ⟨2, 15, 1⟩
def GLB_RING_CFG_OWNER : Fld := ⟨2, 16, 4⟩
def GLB_RING_IDX_IDX : Fld := ⟨3, 0, 32⟩
def GLB_RING_WB_LO_ADDR : Fld := ⟨4, 3, 29⟩
def GLB_RING_WB_HI_ADDR : Fld := ⟨5, 0, 32⟩
def GLB_RING_THRESH_THRESH : Fld := ⟨6, 0, 28⟩
def GLB_RING_DROP_COUNT : Fld := ⟨7, 0, 32⟩

/-! `04_host_rings.md`, R118. -/
def GLB_DB_ERR_COUNT : Fld := ⟨70, 0, 16⟩
def GLB_DB_ERR_SLOT : Fld := ⟨70, 16, 6⟩
def GLB_DB_ERR_CAUSE : Fld := ⟨70, 22, 2⟩
def GLB_IRQ_MOD_TICKS : Fld := ⟨71, 0, 8⟩
def GLB_EV_ROUTE_VEC : Fld := ⟨0x300, 0, 6⟩
def GLB_EV_ROUTE_EN : Fld := ⟨0x300, 7, 1⟩

/-! `04_host_rings.md`, R141. -/
def GLB_ARB_CTL_WDRR : Fld := ⟨64, 0, 1⟩
def GLB_ARB_CTL_CAPLANE : Fld := ⟨64, 8, 7⟩
def GLB_ARB_W_W : Fld := ⟨65, 0, 8⟩

/-! `05_register_rules.md`, R160. -/
def GLB_VIOL_ADDR_OFFSET : Fld := ⟨24, 0, 22⟩
def GLB_VIOL_INFO_CAUSE : Fld := ⟨25, 0, 3⟩
def GLB_VIOL_INFO_FUNC : Fld := ⟨25, 8, 4⟩
def GLB_VIOL_INFO_RVE : Fld := ⟨25, 12, 1⟩
def GLB_VIOL_INFO_CMD : Fld := ⟨25, 13, 1⟩
def GLB_VIOL_INFO_COUNT : Fld := ⟨25, 16, 16⟩
def GLB_WR_IGN_WR_IGN : Fld := ⟨28, 0, 32⟩
def GLB_ACC_ERR_COUNT : Fld := ⟨72, 0, 16⟩
def GLB_ACC_ERR_CAUSE : Fld := ⟨72, 16, 3⟩
def GLB_ACC_ADDR_OFFSET : Fld := ⟨73, 0, 22⟩

/-! `06_prism_inputs.md`, R209. -/
def PRS_TC_CFG_EN : Fld := ⟨0, 0, 1⟩
def PRS_TC_CFG_SRC : Fld := ⟨0, 1, 1⟩
def PRS_TC_CFG_IN : Fld := ⟨0, 2, 6⟩
def PRS_TC_CFG_BAUD : Fld := ⟨0, 8, 4⟩
def PRS_TC_CFG_ALIGN : Fld := ⟨0, 12, 1⟩
def PRS_TC_CFG_TS : Fld := ⟨0, 13, 2⟩
def PRS_TC_STATUS_LOCK : Fld := ⟨1, 0, 1⟩
def PRS_TC_STATUS_LSP : Fld := ⟨1, 1, 1⟩
def PRS_TC_STATUS_LSS : Fld := ⟨1, 2, 1⟩
def PRS_TC_STATUS_TQ : Fld := ⟨1, 3, 4⟩
def PRS_TC_ERR_CKSUM : Fld := ⟨2, 0, 8⟩
def PRS_TC_ERR_MISSING : Fld := ⟨2, 8, 8⟩
def PRS_TC_ERR_FORMAT : Fld := ⟨2, 16, 8⟩
def PRS_TC_ERR_TODFAIL : Fld := ⟨2, 24, 8⟩
def PRS_GOOD_LO_GOOD : Fld := ⟨4, 0, 32⟩
def PRS_GOOD_HI_GOOD : Fld := ⟨5, 0, 32⟩
def PRS_SUSP_LO_SUSP : Fld := ⟨6, 0, 32⟩
def PRS_SUSP_HI_SUSP : Fld := ⟨7, 0, 32⟩

/-! `06_prism_inputs.md`, R210. -/
def PRS_IN_CFG_FMT : Fld := ⟨0, 0, 2⟩
def PRS_IN_CFG_TERM : Fld := ⟨0, 2, 1⟩
def PRS_IN_CFG_INV : Fld := ⟨0, 3, 1⟩
def PRS_IN_CFG_KIND : Fld := ⟨0, 4, 2⟩
def PRS_IN_CFG_DIV : Fld := ⟨0, 8, 16⟩
def PRS_NOM_HZ : Fld := ⟨1, 0, 26⟩
def PRS_MON_EN : Fld := ⟨2, 0, 1⟩
def PRS_MON_ACT : Fld := ⟨2, 1, 1⟩
def PRS_MON_FRQ : Fld := ⟨2, 2, 1⟩
def PRS_MON_PJ : Fld := ⟨2, 3, 1⟩
def PRS_MON_PW : Fld := ⟨2, 4, 1⟩
def PRS_MON_TOD : Fld := ⟨2, 5, 1⟩
def PRS_MON_PLAUS : Fld := ⟨2, 6, 1⟩
def PRS_MON_CD : Fld := ⟨2, 8, 4⟩
def PRS_MON_HYS : Fld := ⟨2, 12, 3⟩
def PRS_MON_FGATE : Fld := ⟨2, 16, 5⟩
def PRS_LIM0_FLIM : Fld := ⟨3, 0, 12⟩
def PRS_LIM0_PJLIM : Fld := ⟨3, 16, 16⟩
def PRS_LIM1_ACTWIN : Fld := ⟨4, 0, 16⟩
def PRS_LIM1_SOAK : Fld := ⟨4, 16, 16⟩
def PRS_PW_PWMIN : Fld := ⟨5, 0, 16⟩
def PRS_PW_PWMAX : Fld := ⟨5, 16, 16⟩
def PRS_QUAL_QL : Fld := ⟨6, 0, 4⟩
def PRS_QUAL_EQL : Fld := ⟨6, 4, 4⟩
def PRS_QUAL_CC : Fld := ⟨6, 8, 8⟩
def PRS_QUAL_ECC : Fld := ⟨6, 16, 8⟩
def PRS_VERDICT_V : Fld := ⟨7, 0, 2⟩
def PRS_VERDICT_SOAK : Fld := ⟨7, 2, 1⟩
def PRS_VERDICT_FORCED : Fld := ⟨7, 3, 1⟩
def PRS_VERDICT_CAUSE : Fld := ⟨7, 4, 7⟩
def PRS_VERDICT_FOFF : Fld := ⟨7, 16, 16⟩

/-! `06_prism_inputs.md`, R211. -/
def PRS_PRIO_IDX : Fld := ⟨0, 0, 6⟩
def PRS_PRIO_EN : Fld := ⟨0, 7, 1⟩
def PRS_SEL_CFG_MODE : Fld := ⟨4, 0, 2⟩
def PRS_SEL_CFG_REV : Fld := ⟨4, 2, 1⟩
def PRS_SEL_CFG_FORCE_EN : Fld := ⟨4, 7, 1⟩
def PRS_SEL_CFG_FORCE_IDX : Fld := ⟨4, 8, 6⟩
def PRS_SEL_CFG_PLTC : Fld := ⟨4, 16, 4⟩
def PRS_SEL_STATUS_CUR : Fld := ⟨5, 0, 6⟩
def PRS_SEL_STATUS_CUR_V : Fld := ⟨5, 6, 1⟩
def PRS_SEL_STATUS_STBY : Fld := ⟨5, 8, 6⟩
def PRS_SEL_STATUS_STBY_V : Fld := ⟨5, 14, 1⟩
def PRS_SEL_STATUS_CUR_POS : Fld := ⟨5, 16, 4⟩
def PRS_PL_IDX_IDX : Fld := ⟨6, 0, 6⟩
def PRS_PL_OFF_LO_OFF : Fld := ⟨7, 0, 32⟩
def PRS_PL_OFF_HI_OFF : Fld := ⟨8, 0, 16⟩
def PRS_PL_OFF_HI_VALID : Fld := ⟨8, 16, 1⟩
def PRS_PL_OFF_HI_FROZEN : Fld := ⟨8, 17, 1⟩

/-! `07_prism_ensemble.md`, R236. -/
def GLB_ENS_CFG_EN : Fld := ⟨0, 0, 1⟩
def GLB_ENS_CFG_WMODE : Fld := ⟨0, 1, 1⟩
def GLB_ENS_CFG_OMODE : Fld := ⟨0, 2, 1⟩
def GLB_ENS_CFG_HEN : Fld := ⟨0, 3, 1⟩
def GLB_ENS_CFG_QMIN : Fld := ⟨0, 4, 4⟩
def GLB_ENS_CFG_OTC : Fld := ⟨0, 8, 4⟩
def GLB_ENS_CFG_ATAU : Fld := ⟨0, 12, 4⟩
def GLB_ENS_CFG_WCAP : Fld := ⟨0, 16, 7⟩
def GLB_ENS_CFG_AUTO : Fld := ⟨0, 23, 1⟩
def GLB_ENS_GATE_K : Fld := ⟨1, 0, 4⟩
def GLB_ENS_GATE_GMIN : Fld := ⟨1, 4, 16⟩
def GLB_ENS_TCFG_TFAIL : Fld := ⟨2, 0, 8⟩
def GLB_ENS_TCFG_TPASS : Fld := ⟨2, 8, 8⟩
def GLB_ENS_TCFG_REJOIN : Fld := ⟨2, 16, 16⟩
def GLB_ENS_HCFG_HGATE : Fld := ⟨3, 0, 16⟩
def GLB_ENS_HCFG_HWIN : Fld := ⟨3, 16, 12⟩
def GLB_ENS_ACFG_AWIN : Fld := ⟨4, 0, 8⟩
def GLB_ENS_ACFG_AMAX : Fld := ⟨4, 8, 12⟩
def GLB_ENS_ACFG_DMAX : Fld := ⟨4, 20, 12⟩
def GLB_ENS_STATUS_INCNT : Fld := ⟨5, 0, 4⟩
def GLB_ENS_STATUS_BOOT : Fld := ⟨5, 4, 1⟩
def GLB_ENS_STATUS_PILOT : Fld := ⟨5, 5, 3⟩
def GLB_ENS_STATUS_HANCH : Fld := ⟨5, 8, 1⟩
def GLB_ENS_STATUS_ASYM : Fld := ⟨5, 9, 1⟩
def GLB_ENS_STATUS_ASLOT : Fld := ⟨5, 10, 3⟩
def GLB_ENS_LATCH_SLOT : Fld := ⟨6, 0, 3⟩
def GLB_ENS_LATCH_VALID : Fld := ⟨6, 3, 1⟩
def GLB_ENS_LATCH_SIGMA : Fld := ⟨6, 16, 16⟩
def GLB_ENS_LOFF_D : Fld := ⟨7, 0, 32⟩

/-! `07_prism_ensemble.md`, R237. -/
def GLB_EM_CFG_IDX : Fld := ⟨0, 0, 6⟩
def GLB_EM_CFG_EN : Fld := ⟨0, 6, 1⟩
def GLB_EM_CFG_W : Fld := ⟨0, 8, 8⟩
def GLB_EM_CFG_OFF : Fld := ⟨0, 16, 16⟩
def GLB_EM_STAT_STATE : Fld := ⟨1, 0, 3⟩
def GLB_EM_STAT_HELD : Fld := ⟨1, 3, 1⟩
def GLB_EM_STAT_CAUSE : Fld := ⟨1, 4, 3⟩
def GLB_EM_STAT_FAILS : Fld := ⟨1, 8, 8⟩
def GLB_EM_STAT_WUSE : Fld := ⟨1, 16, 16⟩

/-! `07_prism_ensemble.md`, R241. -/
def GLB_TMP_CFG_EN0 : Fld := ⟨800, 0, 1⟩
def GLB_TMP_CFG_SLOPE0 : Fld := ⟨800, 1, 2⟩
def GLB_TMP_CFG_EN1 : Fld := ⟨800, 3, 1⟩
def GLB_TMP_CFG_SLOPE1 : Fld := ⟨800, 4, 2⟩
def GLB_TMP_CFG_FILT : Fld := ⟨800, 8, 8⟩
def GLB_TMP_LOG_FIRST : Fld := ⟨801, 0, 10⟩
def GLB_TMP_LOG_COUNT : Fld := ⟨801, 10, 7⟩
def GLB_TMP_STATUS_LVL0 : Fld := ⟨802, 0, 1⟩
def GLB_TMP_STATUS_LVL1 : Fld := ⟨802, 1, 1⟩
def GLB_TMP_STATUS_EMB0 : Fld := ⟨802, 2, 1⟩
def GLB_TMP_STATUS_EMB1 : Fld := ⟨802, 3, 1⟩
def GLB_TMP_STATUS_WRAP : Fld := ⟨802, 4, 1⟩
def GLB_TMP_STATUS_LOST : Fld := ⟨802, 16, 16⟩
def GLB_TMP_NEXT_NEXT : Fld := ⟨803, 0, 11⟩

/-! `08_miller_loops.md`, R278. -/
def MIL_CFG_EN : Fld := ⟨0, 0, 1⟩
def MIL_CFG_CASC : Fld := ⟨0, 1, 1⟩
def MIL_CFG_STEPF : Fld := ⟨0, 2, 1⟩
def MIL_CFG_CSRC : Fld := ⟨0, 4, 4⟩
def MIL_BW_BW : Fld := ⟨1, 0, 30⟩
def MIL_ABW_ABW : Fld := ⟨2, 0, 30⟩
def MIL_DAMP_DAMP : Fld := ⟨3, 0, 8⟩
def MIL_LIM0_PSLOPE : Fld := ⟨4, 0, 20⟩
def MIL_LIM1_FMAX : Fld := ⟨5, 0, 17⟩
def MIL_LOCK_THR : Fld := ⟨6, 0, 16⟩
def MIL_LOCK_CNT : Fld := ⟨6, 16, 8⟩
def MIL_LOCK_ULCNT : Fld := ⟨6, 24, 8⟩
def MIL_SPEC_SPEC_BUDGET : Fld := ⟨7, 0, 10⟩
def MIL_SPEC_UNWIND_RATE : Fld := ⟨7, 16, 7⟩
def MIL_SPEC_SW_EN : Fld := ⟨7, 24, 1⟩
def MIL_SPEC_HOLD_EN : Fld := ⟨7, 25, 1⟩
def MIL_FRW_LO_FRW : Fld := ⟨8, 0, 32⟩
def MIL_FRW_HI_FRW : Fld := ⟨9, 0, 32⟩
def MIL_STATUS_STATE : Fld := ⟨10, 0, 3⟩
def MIL_STATUS_LSEEN : Fld := ⟨10, 3, 1⟩
def MIL_STATUS_REF : Fld := ⟨10, 4, 6⟩
def MIL_STATUS_REF_V : Fld := ⟨10, 10, 1⟩
def MIL_STATUS_CASC_ACT : Fld := ⟨10, 11, 1⟩
def MIL_STATUS_BWCAP : Fld := ⟨10, 12, 1⟩
def MIL_STATUS_FCLAMP : Fld := ⟨10, 13, 1⟩
def MIL_STATUS_PCLAMP : Fld := ⟨10, 14, 1⟩
def MIL_STATUS_SLEW : Fld := ⟨10, 15, 1⟩
def MIL_STATUS_FORCE : Fld := ⟨10, 16, 2⟩
def MIL_STATUS_HALT : Fld := ⟨10, 18, 1⟩
def MIL_STATUS_SPEC : Fld := ⟨10, 19, 1⟩
def MIL_LATCH_GO : Fld := ⟨11, 0, 1⟩
def MIL_L_FW_LO_FW : Fld := ⟨12, 0, 32⟩
def MIL_L_FW_HI_FW : Fld := ⟨13, 0, 32⟩
def MIL_L_ERR_EE : Fld := ⟨14, 0, 32⟩
def MIL_L_D_LO_D : Fld := ⟨15, 0, 32⟩
def MIL_L_D_HI_D : Fld := ⟨16, 0, 32⟩
def MIL_L_DT_LO_DT : Fld := ⟨17, 0, 32⟩
def MIL_L_DT_HI_DT : Fld := ⟨18, 0, 32⟩
def MIL_L_TN_LO_TN_LO : Fld := ⟨19, 0, 32⟩
def MIL_L_TN_HI_TN_HI : Fld := ⟨20, 0, 32⟩
def MIL_L_SPEC_EXC : Fld := ⟨21, 0, 16⟩
def MIL_L_SPEC_SPEC : Fld := ⟨21, 16, 1⟩
def MIL_CNT_UNLOCKS : Fld := ⟨22, 0, 16⟩
def MIL_CNT_CLAMPS : Fld := ⟨22, 16, 16⟩

/-! `10_switchover_holdover.md`, R326. -/
def GLB_HRT_CFG_LCHAN : Fld := ⟨0, 0, 4⟩
def GLB_HRT_CFG_LFOL : Fld := ⟨0, 4, 1⟩
def GLB_HRT_CFG_INTV : Fld := ⟨0, 5, 8⟩
def GLB_HRT_CFG_TSRC : Fld := ⟨0, 13, 2⟩
def GLB_HRT_CFG_GUARD : Fld := ⟨0, 15, 4⟩
def GLB_HRT_CFG1_MINN : Fld := ⟨1, 0, 13⟩
def GLB_HRT_CFG1_TSPAN : Fld := ⟨1, 13, 8⟩
def GLB_HRT_CFG1_TMARG : Fld := ⟨1, 21, 8⟩
def GLB_HRT_STATUS_VALID : Fld := ⟨2, 0, 1⟩
def GLB_HRT_STATUS_AFIT : Fld := ⟨2, 1, 1⟩
def GLB_HRT_STATUS_TFIT : Fld := ⟨2, 2, 1⟩
def GLB_HRT_STATUS_LEARN : Fld := ⟨2, 3, 1⟩
def GLB_HRT_STATUS_TOUT : Fld := ⟨2, 4, 1⟩
def GLB_HRT_STATUS_COUNT : Fld := ⟨2, 16, 13⟩
def GLB_HRT_TEMP_TEMP : Fld := ⟨3, 0, 16⟩
def GLB_HRT_TEMP_TREF : Fld := ⟨3, 16, 16⟩
def GLB_HRT_TRANGE_TMIN : Fld := ⟨4, 0, 16⟩
def GLB_HRT_TRANGE_TMAX : Fld := ⟨4, 16, 16⟩
def GLB_HRT_LATCH_GO : Fld := ⟨5, 0, 1⟩
def GLB_HRT_C0_LO_C0 : Fld := ⟨6, 0, 32⟩
def GLB_HRT_C0_HI_C0 : Fld := ⟨7, 0, 32⟩
def GLB_HRT_C1_LO_C1 : Fld := ⟨8, 0, 32⟩
def GLB_HRT_C1_HI_C1 : Fld := ⟨9, 0, 32⟩
def GLB_HRT_K1_LO_K1 : Fld := ⟨10, 0, 32⟩
def GLB_HRT_K1_HI_K1 : Fld := ⟨11, 0, 32⟩
def GLB_HRT_K2_LO_K2 : Fld := ⟨12, 0, 32⟩
def GLB_HRT_K2_HI_K2 : Fld := ⟨13, 0, 32⟩
def GLB_HRT_SIGY_SIGY : Fld := ⟨14, 0, 32⟩
def GLB_HRT_SA_SA : Fld := ⟨15, 0, 32⟩
def GLB_HRT_EMB_PPS : Fld := ⟨16, 0, 1⟩
def GLB_HRT_EMB_EMBY : Fld := ⟨16, 16, 16⟩
def GLB_HRT_EMBST_EMB : Fld := ⟨17, 0, 1⟩
def GLB_HRT_EMBST_SECS : Fld := ⟨17, 1, 31⟩
def GLB_HRT_LOC_FIRST : Fld := ⟨18, 0, 10⟩
def GLB_HRT_LOC_PFH : Fld := ⟨18, 10, 1⟩

/-! `10_switchover_holdover.md`, R327. -/
def GLB_SWO_CFG_SWREM : Fld := ⟨0, 0, 1⟩
def GLB_SWO_CFG_HXREM : Fld := ⟨0, 1, 1⟩
def GLB_HRT_CSTAT_YV : Fld := ⟨1, 0, 1⟩
def GLB_HRT_CSTAT_NMEAN : Fld := ⟨1, 1, 4⟩
def GLB_HRT_CSTAT_HAGE : Fld := ⟨1, 8, 24⟩
def GLB_HRT_YBAR_LO_YBAR : Fld := ⟨2, 0, 32⟩
def GLB_HRT_YBAR_HI_YBAR : Fld := ⟨3, 0, 32⟩

/-! `11_loom.md`, R360. -/
def LOM_CFG_EN : Fld := ⟨0, 0, 1⟩
def LOM_CFG_CHAN : Fld := ⟨0, 1, 4⟩
def LOM_CFG_AUTO : Fld := ⟨0, 5, 1⟩
def LOM_CFG_HOP : Fld := ⟨0, 6, 1⟩
def LOM_CFG_PDIV : Fld := ⟨0, 8, 4⟩
def LOM_CFG_RETRY : Fld := ⟨0, 12, 3⟩
def LOM_CFG_GLIDE : Fld := ⟨0, 16, 8⟩
def LOM_N_N : Fld := ⟨1, 0, 8⟩
def LOM_FC_LO_FC : Fld := ⟨2, 0, 32⟩
def LOM_FC_HI_FC : Fld := ⟨3, 0, 14⟩
def LOM_STATUS_STATE : Fld := ⟨4, 0, 3⟩
def LOM_STATUS_PSTEP : Fld := ⟨4, 3, 1⟩
def LOM_STATUS_BAND : Fld := ⟨4, 4, 9⟩
def LOM_STATUS_TRIES : Fld := ⟨4, 13, 3⟩
def LOM_STATUS_FINE : Fld := ⟨4, 16, 8⟩
def LOM_STATUS_SLEW : Fld := ⟨4, 24, 1⟩
def LOM_STATUS_BV : Fld := ⟨4, 25, 1⟩
def LOM_MEAS_FREQ : Fld := ⟨5, 0, 24⟩
def LOM_CNT_LOSSES : Fld := ⟨6, 0, 8⟩
def LOM_CNT_FAILS : Fld := ⟨6, 8, 8⟩
def LOM_CNT_HOPS : Fld := ⟨6, 16, 16⟩
def LOM_SRCH_TICKS : Fld := ⟨7, 0, 6⟩
def LOM_SRCH_CBAND : Fld := ⟨7, 6, 9⟩
def LOM_SRCH_REFINE : Fld := ⟨7, 15, 3⟩
def LOM_BIDX_BIDX : Fld := ⟨8, 0, 9⟩
def LOM_BTAB_F : Fld := ⟨9, 0, 24⟩
def LOM_BTAB_VALID : Fld := ⟨9, 24, 1⟩

/-! `12_outputs.md`, R397. -/
def OUT_CFG_EN : Fld := ⟨0, 0, 1⟩
def OUT_CFG_SRC : Fld := ⟨0, 1, 4⟩
def OUT_CFG_FMT : Fld := ⟨0, 5, 3⟩
def OUT_CFG_POLICY : Fld := ⟨0, 8, 1⟩
def OUT_CFG_SGEN : Fld := ⟨0, 9, 1⟩
def OUT_CFG_SG : Fld := ⟨0, 10, 3⟩
def OUT_CFG_HALF : Fld := ⟨0, 13, 1⟩
def OUT_DIV_DIV : Fld := ⟨1, 0, 32⟩
def OUT_DLY_CDLY : Fld := ⟨2, 0, 16⟩
def OUT_DLY_FDLY : Fld := ⟨2, 16, 10⟩
def OUT_STATUS_STATE : Fld := ⟨3, 0, 3⟩
def OUT_STATUS_PLOST : Fld := ⟨3, 3, 1⟩
def OUT_STATUS_PEND : Fld := ⟨3, 4, 1⟩
def OUT_STATUS_SKIP : Fld := ⟨3, 5, 1⟩
def OUT_STATUS_FSLEW : Fld := ⟨3, 6, 1⟩
def OUT_BANK_CFG_BYP : Fld := ⟨32, 0, 5⟩
def OUT_BANK_STATUS_VDDO : Fld := ⟨33, 0, 2⟩
def OUT_BANK_STATUS_BSUB : Fld := ⟨33, 2, 3⟩
def OUT_BANK_STATUS_BSUB_V : Fld := ⟨33, 5, 1⟩
def OUT_BANK_STATUS_BRDY : Fld := ⟨33, 6, 1⟩

/-! `12_outputs.md`, R398. -/
def TCD_PPS_CFG_EN : Fld := ⟨0, 0, 1⟩
def TCD_PPS_CFG_WIDTH : Fld := ⟨0, 1, 16⟩
def TCD_PPS_OFF_OFF : Fld := ⟨1, 0, 30⟩
def TCD_TC_CFG_EN : Fld := ⟨2, 0, 1⟩
def TCD_TC_CFG_CODE : Fld := ⟨2, 1, 3⟩
def TCD_TC_CFG_MOD : Fld := ⟨2, 4, 1⟩
def TCD_TC_CFG_TS : Fld := ⟨2, 5, 2⟩
def TCD_TC_CFG_EXT : Fld := ⟨2, 7, 1⟩
def TCD_TC_CFG_DST : Fld := ⟨2, 8, 1⟩
def TCD_TC_CFG_DSP : Fld := ⟨2, 9, 1⟩
def TCD_TC_CFG_TOFF : Fld := ⟨2, 10, 4⟩
def TCD_TC_CFG_TSIGN : Fld := ⟨2, 14, 1⟩
def TCD_TC_CFG_THALF : Fld := ⟨2, 15, 1⟩
def TCD_TC_STATUS_TQ : Fld := ⟨3, 0, 4⟩
def TCD_TC_STATUS_LSP : Fld := ⟨3, 4, 1⟩
def TCD_TC_STATUS_RUN : Fld := ⟨3, 5, 1⟩
def TCD_SG_CTL_ARM : Fld := ⟨4, 0, 8⟩
def TCD_SG_CTL_ONCE : Fld := ⟨4, 8, 8⟩
def TCD_SG_STATUS_ACTIVE : Fld := ⟨5, 0, 8⟩
def TCD_SG_STATUS_IGN : Fld := ⟨5, 16, 16⟩
def TCD_SYNC_NS_NS : Fld := ⟨6, 0, 30⟩
def TCD_SYNC_S_S_LO : Fld := ⟨7, 0, 32⟩

/-! `13_lens.md`, R429. -/
def LNS_IN_CFG_EN : Fld := ⟨0, 0, 1⟩
def LNS_IN_CFG_STREAM : Fld := ⟨0, 1, 1⟩
def LNS_IN_CFG_SLOPE : Fld := ⟨0, 2, 2⟩
def LNS_IN_CFG_TERM : Fld := ⟨0, 4, 1⟩
def LNS_IN_CFG_RING : Fld := ⟨0, 8, 4⟩
def LNS_THR_THR : Fld := ⟨1, 0, 12⟩
def LNS_THR_HYS : Fld := ⟨1, 16, 6⟩
def LNS_MISS_COUNT : Fld := ⟨2, 0, 32⟩
def LNS_IN_STATUS_LVL : Fld := ⟨3, 0, 1⟩
def LNS_BUF_STATUS_FILL : Fld := ⟨64, 0, 20⟩
def LNS_BUF_PEAK_PEAK : Fld := ⟨65, 0, 20⟩
def LNS_BUF_DROP_COUNT : Fld := ⟨66, 0, 32⟩
def LNS_CAL_VALID : Fld := ⟨67, 0, 1⟩

/-! `13_lens.md`, R430. -/
def LNS_BST_CFG_START : Fld := ⟨0, 0, 3⟩
def LNS_BST_CFG_STOPS : Fld := ⟨0, 4, 8⟩
def LNS_BST_CFG_RING : Fld := ⟨0, 12, 4⟩
def LNS_BST_CFG_AUTO : Fld := ⟨0, 16, 1⟩
def LNS_BST_WIN_WIN : Fld := ⟨1, 0, 24⟩
def LNS_BST_PRE_PRE : Fld := ⟨2, 0, 14⟩
def LNS_BST_CTL_ARM : Fld := ⟨3, 0, 1⟩
def LNS_BST_STATUS_STATE : Fld := ⟨4, 0, 2⟩
def LNS_BST_STATUS_NSTOPS : Fld := ⟨4, 2, 7⟩
def LNS_BST_STATUS_BNUM : Fld := ⟨4, 16, 12⟩
def LNS_BST_CNT_OOO : Fld := ⟨5, 0, 16⟩
def LNS_BST_CNT_MISSED : Fld := ⟨5, 16, 16⟩
def LNS_BST_LOST_GROUPS : Fld := ⟨6, 0, 16⟩

/-! `14_tally.md`, R456. -/
def TLY_CFG_EN : Fld := ⟨0, 0, 1⟩
def TLY_CFG_KIND : Fld := ⟨0, 1, 2⟩
def TLY_CFG_SRCK : Fld := ⟨0, 3, 2⟩
def TLY_CFG_SRC : Fld := ⟨0, 6, 6⟩
def TLY_CFG_CHAN : Fld := ⟨0, 12, 4⟩
def TLY_CFG_RING : Fld := ⟨0, 16, 3⟩
def TLY_CFG_DEC : Fld := ⟨0, 20, 4⟩
def TLY_N_N : Fld := ⟨1, 0, 25⟩
def TLY_GATE_GATE : Fld := ⟨2, 0, 24⟩
def TLY_PER_PER : Fld := ⟨3, 0, 30⟩
def TLY_WCFG_TAU0 : Fld := ⟨4, 0, 16⟩
def TLY_WCFG_MMAX : Fld := ⟨4, 16, 4⟩
def TLY_STATUS_STATE : Fld := ⟨5, 0, 2⟩
def TLY_STATUS_SPEC : Fld := ⟨5, 2, 1⟩
def TLY_CNT_WIN : Fld := ⟨6, 0, 16⟩
def TLY_CNT_DISC : Fld := ⟨6, 16, 16⟩
def TLY_SKIP_COUNT : Fld := ⟨7, 0, 32⟩
def TLY_SEN_CFG_EN : Fld := ⟨512, 0, 1⟩
def TLY_SEN_CFG_IN : Fld := ⟨512, 1, 3⟩
def TLY_SEN_CFG_FNOM : Fld := ⟨512, 4, 1⟩
def TLY_SEN_CFG_RING : Fld := ⟨512, 5, 3⟩
def TLY_SEN_CFG_ROCN : Fld := ⟨512, 8, 4⟩
def TLY_SEN_GATE_GATE : Fld := ⟨513, 0, 14⟩
def TLY_SEN_DLY_DLY : Fld := ⟨514, 0, 32⟩
def TLY_SEN_LIM0_UDEV : Fld := ⟨515, 0, 14⟩
def TLY_SEN_LIM0_ODEV : Fld := ⟨515, 16, 14⟩
def TLY_SEN_LIM1_EHYS : Fld := ⟨516, 0, 10⟩
def TLY_SEN_STATUS_FLAGS : Fld := ⟨517, 0, 5⟩
def TLY_SEN_STATUS_WSEQ : Fld := ⟨517, 8, 8⟩
def TLY_SEN_F_F : Fld := ⟨518, 0, 32⟩
def TLY_SEN_ROCOF_ROCOF : Fld := ⟨519, 0, 32⟩
def TLY_SEN_PHASE_PHASE : Fld := ⟨520, 0, 32⟩
def TLY_SEN_CNT_GLITCH : Fld := ⟨521, 0, 16⟩
def TLY_SEN_CNT_LOSTS : Fld := ⟨521, 16, 16⟩

/-! `15_herald_ports.md`, R488. -/
def HRD_PORT_CFG_EN : Fld := ⟨0, 0, 1⟩
def HRD_PORT_CFG_MODE : Fld := ⟨0, 1, 3⟩
def HRD_PORT_CFG_FEC : Fld := ⟨0, 4, 1⟩
def HRD_PORT_CFG_AN : Fld := ⟨0, 5, 1⟩
def HRD_PORT_CFG_VEN : Fld := ⟨0, 6, 1⟩
def HRD_PORT_CFG_PTPHOST : Fld := ⟨0, 7, 1⟩
def HRD_PORT_CFG_RXRING : Fld := ⟨0, 8, 2⟩
def HRD_PORT_CFG_TXLOOM : Fld := ⟨0, 10, 3⟩
def HRD_PORT_CFG_TXSRC : Fld := ⟨0, 13, 1⟩
def HRD_PORT_CFG_MCHOST : Fld := ⟨0, 14, 1⟩
def HRD_VLAN_VID : Fld := ⟨1, 0, 12⟩
def HRD_VLAN_PCP : Fld := ⟨1, 12, 3⟩
def HRD_MAC_LO_MAC : Fld := ⟨2, 0, 32⟩
def HRD_MAC_HI_MAC : Fld := ⟨3, 0, 16⟩
def HRD_IP4_ADDR : Fld := ⟨4, 0, 32⟩
def HRD_IP6_ADDR : Fld := ⟨5, 0, 32⟩
def HRD_LAT_EGR : Fld := ⟨9, 0, 16⟩
def HRD_LAT_ING : Fld := ⟨9, 16, 16⟩
def HRD_PORT_STATUS_LINK : Fld := ⟨10, 0, 1⟩
def HRD_PORT_STATUS_RXLOCK : Fld := ⟨10, 1, 1⟩
def HRD_PORT_STATUS_ALIGN : Fld := ⟨10, 2, 1⟩
def HRD_PORT_STATUS_SPEED : Fld := ⟨10, 3, 2⟩
def HRD_PORT_STATUS_TXLOOM : Fld := ⟨10, 5, 1⟩
def HRD_ESMC_CFG_EN : Fld := ⟨48, 0, 1⟩
def HRD_ESMC_CFG_EXT : Fld := ⟨48, 1, 1⟩
def HRD_ESMC_CFG_TXMODE : Fld := ⟨48, 2, 2⟩
def HRD_ESMC_CFG_TXQL : Fld := ⟨48, 4, 4⟩
def HRD_ESMC_CFG_CHAN : Fld := ⟨48, 8, 4⟩
def HRD_ESMC_CFG_HOLDQL : Fld := ⟨48, 12, 4⟩
def HRD_ESMC_CFG_TMO : Fld := ⟨48, 16, 4⟩
def HRD_ESMC_STATUS_RXQL : Fld := ⟨49, 0, 4⟩
def HRD_ESMC_STATUS_RXSSM : Fld := ⟨49, 4, 4⟩
def HRD_ESMC_STATUS_RXESSM : Fld := ⟨49, 8, 8⟩
def HRD_ESMC_STATUS_TXQL : Fld := ⟨49, 16, 4⟩
def HRD_ESMC_STATUS_TMO : Fld := ⟨49, 20, 1⟩
def HRD_ESMC_CNT_RXPDU : Fld := ⟨50, 0, 16⟩
def HRD_ESMC_CNT_ERR : Fld := ⟨50, 16, 16⟩

/-! `15_herald_ports.md`, R489. -/
def HRD_MGMT_RATE : Fld := ⟨0, 0, 10⟩
def HRD_MGMT_BURST : Fld := ⟨0, 16, 7⟩
def HRD_MGMT_DROP_RATE : Fld := ⟨1, 0, 16⟩
def HRD_MGMT_DROP_NOBUF : Fld := ⟨1, 16, 16⟩
def HRD_PI_CFG_EN : Fld := ⟨0, 0, 1⟩
def HRD_PI_CFG_PROFILE : Fld := ⟨0, 1, 3⟩
def HRD_PI_CFG_ROLE : Fld := ⟨0, 4, 2⟩
def HRD_PI_CFG_ONESTEP : Fld := ⟨0, 6, 1⟩
def HRD_PI_CFG_TRANS : Fld := ⟨0, 7, 2⟩
def HRD_PI_CFG_PORTS : Fld := ⟨0, 9, 4⟩
def HRD_PI_CFG_DOMAIN : Fld := ⟨0, 13, 8⟩
def HRD_PI_CFG_NFWD : Fld := ⟨0, 21, 1⟩
def HRD_PI_PRIO_PRIO1 : Fld := ⟨1, 0, 8⟩
def HRD_PI_PRIO_PRIO2 : Fld := ⟨1, 8, 8⟩
def HRD_PI_PRIO_LPRIO : Fld := ⟨1, 16, 8⟩
def HRD_PI_PRIO_TSRC : Fld := ⟨1, 24, 8⟩
def HRD_PI_CLASS_CC_LOCK : Fld := ⟨2, 0, 8⟩
def HRD_PI_CLASS_CC_HOLD : Fld := ⟨2, 8, 8⟩
def HRD_PI_CLASS_CC_HOLDX : Fld := ⟨2, 16, 8⟩
def HRD_PI_CLASS_HOLDE : Fld := ⟨2, 24, 5⟩
def HRD_PI_IVL_LSYNC : Fld := ⟨3, 0, 4⟩
def HRD_PI_IVL_LANN : Fld := ⟨3, 4, 4⟩
def HRD_PI_IVL_LDREQ : Fld := ⟨3, 8, 4⟩
def HRD_PI_IVL_ATMO : Fld := ⟨3, 12, 4⟩
def HRD_PI_IVL_STMO : Fld := ⟨3, 16, 4⟩
def HRD_PI_IVL_MPDF : Fld := ⟨3, 20, 4⟩
def HRD_PI_ID_LO_ID : Fld := ⟨4, 0, 32⟩
def HRD_PI_ID_HI_ID : Fld := ⟨5, 0, 32⟩
def HRD_PI_STATUS_PS : Fld := ⟨6, 0, 16⟩
def HRD_PI_STATUS_GM : Fld := ⟨6, 16, 1⟩
def HRD_PI_STATUS_PV : Fld := ⟨6, 17, 1⟩
def HRD_PI_STATUS_PPORT : Fld := ⟨6, 18, 2⟩
def HRD_PI_PAR_LO_ID : Fld := ⟨7, 0, 32⟩
def HRD_PI_PAR_HI_ID : Fld := ⟨8, 0, 32⟩
def HRD_PI_PAR_INFO_PNUM : Fld := ⟨9, 0, 16⟩
def HRD_PI_PAR_INFO_GMCC : Fld := ⟨9, 16, 8⟩
def HRD_PI_PAR_INFO_GMACC : Fld := ⟨9, 24, 8⟩
def HRD_PI_GM_LO_ID : Fld := ⟨10, 0, 32⟩
def HRD_PI_GM_HI_ID : Fld := ⟨11, 0, 32⟩
def HRD_PI_MPD_MPD : Fld := ⟨12, 0, 32⟩
def HRD_PI_OFM_OFM : Fld := ⟨13, 0, 32⟩

/-! `16_herald_sessions.md`, R515. -/
def HRD_TX_SYNC_COUNT : Fld := ⟨16, 0, 32⟩
def HRD_TX_FUP_COUNT : Fld := ⟨17, 0, 32⟩
def HRD_TX_ANN_COUNT : Fld := ⟨18, 0, 32⟩
def HRD_TX_DRESP_COUNT : Fld := ⟨19, 0, 32⟩
def HRD_TX_DREQ_COUNT : Fld := ⟨20, 0, 32⟩
def HRD_TX_PDLY_COUNT : Fld := ⟨21, 0, 32⟩
def HRD_TX_SIG_COUNT : Fld := ⟨22, 0, 32⟩
def HRD_RX_SYNC_COUNT : Fld := ⟨24, 0, 32⟩
def HRD_RX_FUP_COUNT : Fld := ⟨25, 0, 32⟩
def HRD_RX_ANN_COUNT : Fld := ⟨26, 0, 32⟩
def HRD_RX_DRESP_COUNT : Fld := ⟨27, 0, 32⟩
def HRD_RX_DREQ_COUNT : Fld := ⟨28, 0, 32⟩
def HRD_RX_PDLY_COUNT : Fld := ⟨29, 0, 32⟩
def HRD_RX_SIG_COUNT : Fld := ⟨30, 0, 32⟩
def HRD_SKIP_OVR_COUNT : Fld := ⟨32, 0, 32⟩
def HRD_SKIP_RATE_COUNT : Fld := ⟨33, 0, 32⟩
def HRD_SKIP_SLOW_COUNT : Fld := ⟨34, 0, 32⟩
def HRD_RX_DISC_COUNT : Fld := ⟨35, 0, 32⟩
def HRD_RX_NOSESS_COUNT : Fld := ⟨36, 0, 32⟩
def HRD_DEFER_COUNT : Fld := ⟨37, 0, 32⟩
def HRD_STEPDISC_COUNT : Fld := ⟨38, 0, 32⟩
def HRD_PATHOUT_COUNT : Fld := ⟨39, 0, 32⟩
def HRD_RX_FILT_COUNT : Fld := ⟨40, 0, 32⟩

/-! `16_herald_sessions.md`, R516. -/
def HRD_SE_CFG_EN : Fld := ⟨64, 0, 1⟩
def HRD_SE_CFG_OPEN : Fld := ⟨64, 1, 1⟩
def HRD_SE_CFG_DMAX : Fld := ⟨64, 2, 10⟩
def HRD_SE_CFG_REQD : Fld := ⟨64, 12, 10⟩
def HRD_SE_BASE_LO_ADDR : Fld := ⟨65, 12, 20⟩
def HRD_SE_BASE_HI_ADDR : Fld := ⟨66, 0, 32⟩
def HRD_SE_SIZE_LOG2 : Fld := ⟨67, 0, 5⟩
def HRD_SE_STATUS_COUNT : Fld := ⟨68, 0, 19⟩
def HRD_SE_LAST_SLOT : Fld := ⟨69, 0, 18⟩
def HRD_SE_LAST_VALID : Fld := ⟨69, 18, 1⟩
def HRD_SE_CACHE_FILL : Fld := ⟨70, 0, 13⟩
def HRD_SE_CNT_ADDFAIL : Fld := ⟨71, 0, 16⟩
def HRD_SE_CNT_DENY : Fld := ⟨71, 16, 16⟩
def HRD_SE_PCAP_CAP : Fld := ⟨72, 0, 13⟩
def HRD_SE_PLOAD_LOAD : Fld := ⟨76, 0, 23⟩

/-! `16_herald_sessions.md`, R517. -/
def HRD_PI_JUMP_LIMIT : Fld := ⟨0, 0, 30⟩
def HRD_PI_PATH_PSTEP : Fld := ⟨1, 0, 16⟩
def HRD_PI_PATH_QUAR : Fld := ⟨1, 16, 12⟩
def HRD_PI_JSTAT_REFUSED : Fld := ⟨2, 0, 1⟩
def HRD_PI_JSTAT_PATHS : Fld := ⟨2, 1, 1⟩
def HRD_PI_JSTAT_QUARN : Fld := ⟨2, 2, 1⟩
def HRD_PI_JSTAT_QLEFT : Fld := ⟨2, 16, 12⟩
def HRD_PI_PSLOT_SLOT : Fld := ⟨3, 0, 18⟩
def HRD_PI_PSLOT_VALID : Fld := ⟨3, 18, 1⟩
def HRD_PI_JC_LO_C : Fld := ⟨4, 0, 32⟩
def HRD_PI_JC_HI_C : Fld := ⟨5, 0, 32⟩
def HRD_PI_ACC_LO_A : Fld := ⟨6, 0, 32⟩
def HRD_PI_ACC_HI_A : Fld := ⟨7, 0, 32⟩
def HRD_PI_PCOR_PCOR : Fld := ⟨8, 0, 32⟩
def HRD_PI_QOFF_Q : Fld := ⟨9, 0, 32⟩
def HRD_PI_ASYM_ASYM : Fld := ⟨10, 0, 32⟩
def HRD_PI_JCNT_REFUSALS : Fld := ⟨14, 0, 16⟩
def HRD_PI_JCNT_PATHSUSP : Fld := ⟨14, 16, 16⟩

/-! `17_polsis.md`, R540. -/
def GLB_PLK_CFG_NODE : Fld := ⟨128, 0, 20⟩
def GLB_PLK_CFG_HOLDQL : Fld := ⟨128, 24, 4⟩
def GLB_PLK_CFG_ROOT : Fld := ⟨128, 28, 1⟩
def GLB_PLK_CFG1_LIFE : Fld := ⟨129, 0, 23⟩
def GLB_PLK_CFG1_CCHOLD : Fld := ⟨129, 24, 8⟩
def GLB_PLK_SWAP_INTV : Fld := ⟨130, 0, 13⟩
def GLB_PLK_SWAP_FIT : Fld := ⟨130, 13, 4⟩
def GLB_PLK_SWAP_AF : Fld := ⟨130, 17, 3⟩
def GLB_PLK_SWAP_ASTEP : Fld := ⟨130, 20, 8⟩
def GLB_PLK_STATUS_ORIGS : Fld := ⟨131, 0, 5⟩
def GLB_PLK_STATUS_DEDUPFULL : Fld := ⟨131, 16, 16⟩

/-! `17_polsis.md`, R541. -/
def PLK_PORT_CFG_EN : Fld := ⟨0, 0, 1⟩
def PLK_PORT_CFG_ROLE : Fld := ⟨0, 1, 3⟩
def PLK_PORT_CFG_FLOSS : Fld := ⟨0, 4, 8⟩
def PLK_PORT_CFG_OSEL : Fld := ⟨0, 12, 1⟩
def PLK_ORIG_ORIG : Fld := ⟨1, 0, 20⟩
def PLK_STATUS_LINK : Fld := ⟨2, 0, 1⟩
def PLK_STATUS_CAL : Fld := ⟨2, 1, 1⟩
def PLK_STATUS_LEADER : Fld := ⟨2, 2, 1⟩
def PLK_STATUS_ORIENT : Fld := ⟨2, 3, 1⟩
def PLK_STATUS_MISMATCH : Fld := ⟨2, 4, 1⟩
def PLK_STATUS_GAP : Fld := ⟨2, 5, 1⟩
def PLK_STATUS_OLOCK : Fld := ⟨2, 6, 1⟩
def PLK_STATUS_PROLE : Fld := ⟨2, 8, 3⟩
def PLK_STATUS_PEER : Fld := ⟨2, 12, 20⟩
def PLK_ORIGIN_ORIGIN : Fld := ⟨3, 0, 20⟩
def PLK_ORIGIN_HOPS : Fld := ⟨3, 20, 8⟩
def PLK_ACC_LO_ACC : Fld := ⟨4, 0, 32⟩
def PLK_ACC_HI_ACC : Fld := ⟨5, 0, 16⟩
def PLK_DELAY_DRX : Fld := ⟨6, 0, 32⟩
def PLK_ASYM_DHAT : Fld := ⟨7, 0, 32⟩
def PLK_RES_RES : Fld := ⟨8, 0, 16⟩
def PLK_CNT0_LIFEDISC : Fld := ⟨9, 0, 16⟩
def PLK_CNT0_CRCERR : Fld := ⟨9, 16, 16⟩
def PLK_CNT1_ROLEDISC : Fld := ⟨10, 0, 16⟩
def PLK_CNT1_OWNDISC : Fld := ⟨10, 16, 16⟩
def PLK_CNT2_SWAPS : Fld := ⟨11, 0, 16⟩
def PLK_CNT2_AMISS : Fld := ⟨11, 16, 16⟩
def PLK_TUN_TX_DATA : Fld := ⟨12, 0, 32⟩
def PLK_TUN_TXCTL_LEN : Fld := ⟨13, 0, 8⟩
def PLK_TUN_TXCTL_SEND : Fld := ⟨13, 8, 1⟩
def PLK_TUN_TXCTL_BUSY : Fld := ⟨13, 9, 1⟩
def PLK_TUN_STATUS_RXCNT : Fld := ⟨14, 0, 5⟩
def PLK_TUN_STATUS_RXLOST : Fld := ⟨14, 16, 16⟩
def PLK_TUN_RX_POP_DATA : Fld := ⟨15, 0, 32⟩

/-! `18_mirror.md`, R572. -/
def MIR_CFG_EN : Fld := ⟨0, 0, 1⟩
def MIR_CFG_TAKE : Fld := ⟨0, 1, 4⟩
def MIR_CFG_PFREL : Fld := ⟨0, 5, 1⟩
def MIR_CFG_BLIND : Fld := ⟨0, 6, 1⟩
def MIR_CFG_SHOSC : Fld := ⟨0, 7, 1⟩
def MIR_CFG_NOCLAIM : Fld := ⟨0, 8, 1⟩
def MIR_CFG_HOLDOFF : Fld := ⟨0, 16, 16⟩
def MIR_KEY_KEY_OVERRIDE : Fld := ⟨1, 0, 1⟩
def MIR_KEY_HOLD : Fld := ⟨1, 1, 1⟩
def MIR_KEY_SENSE : Fld := ⟨1, 2, 1⟩
def MIR_KEY_PRIO : Fld := ⟨1, 3, 1⟩
def MIR_KEY_EPRIO : Fld := ⟨1, 4, 1⟩
def MIR_KEY_FREE : Fld := ⟨1, 5, 3⟩
def MIR_STATUS_LINK : Fld := ⟨2, 0, 1⟩
def MIR_STATUS_SLOCK : Fld := ⟨2, 1, 1⟩
def MIR_STATUS_HSNAP : Fld := ⟨2, 2, 1⟩
def MIR_STATUS_DRV : Fld := ⟨2, 3, 1⟩
def MIR_STATUS_PRIOEQ : Fld := ⟨2, 4, 1⟩
def MIR_STATUS_CLASH : Fld := ⟨2, 5, 1⟩
def MIR_STATUS_LSTUCK : Fld := ⟨2, 6, 1⟩
def MIR_STATUS_PKEY : Fld := ⟨2, 7, 1⟩
def MIR_STATUS_PMODE : Fld := ⟨2, 8, 4⟩
def MIR_STATUS_RCAUSE : Fld := ⟨2, 12, 3⟩
def MIR_EPOCH_EPOCH : Fld := ⟨3, 0, 32⟩
def MIR_HEPOCH_HEPOCH : Fld := ⟨4, 0, 16⟩
def MIR_HEPOCH_HFRAGS : Fld := ⟨4, 16, 5⟩
def MIR_CNT0_MISSED : Fld := ⟨5, 0, 16⟩
def MIR_CNT0_MISMATCH : Fld := ⟨5, 16, 16⟩
def MIR_CNT1_HDISC : Fld := ⟨6, 0, 16⟩
def MIR_CNT1_TAKES : Fld := ⟨6, 16, 16⟩
def MIR_LAG_LAG : Fld := ⟨7, 0, 8⟩
def MIR_TAKE_TN_LO_TN : Fld := ⟨8, 0, 32⟩
def MIR_TAKE_TN_HI_TN : Fld := ⟨9, 0, 32⟩

/-! `19_granary.md`, R599. -/
def GRN_CFG_AUTO : Fld := ⟨0, 0, 1⟩
def GRN_STATUS_BUSY : Fld := ⟨1, 0, 1⟩
def GRN_STATUS_BPAGE : Fld := ⟨1, 1, 10⟩
def GRN_STATUS_RET : Fld := ⟨1, 11, 1⟩
def GRN_STATUS_PFCUT : Fld := ⟨1, 12, 1⟩
def GRN_STATUS_QUEUED : Fld := ⟨1, 13, 11⟩
def GRN_STATUS_OPEN : Fld := ⟨1, 24, 5⟩
def GRN_ERR_BUSYPAGE : Fld := ⟨2, 0, 1⟩
def GRN_ERR_RLOCK : Fld := ⟨2, 1, 1⟩
def GRN_ERR_WLOCK : Fld := ⟨2, 2, 1⟩
def GRN_ERR_NOCOPY : Fld := ⟨2, 3, 1⟩
def GRN_ERR_VERIFY : Fld := ⟨2, 4, 1⟩
def GRN_ERR_PAGE : Fld := ⟨2, 16, 10⟩
def GRN_TIE_SET : Fld := ⟨3, 0, 1⟩
def GRN_TIE_PAGE : Fld := ⟨3, 1, 10⟩
def GRN_TIE_COUNT : Fld := ⟨3, 16, 16⟩
def GRN_PFCNT_MARKED : Fld := ⟨4, 0, 9⟩
def GRN_PFCNT_PFLAST : Fld := ⟨4, 16, 10⟩
def GRN_UNLOCK_LO_PW : Fld := ⟨5, 0, 32⟩
def GRN_UNLOCK_HI_PW : Fld := ⟨6, 0, 32⟩
def GRN_UNLOCK_CTL_REGION : Fld := ⟨7, 0, 2⟩
def GRN_UNLOCK_CTL_KIND : Fld := ⟨7, 2, 1⟩
def GRN_UNLOCK_CTL_ACT : Fld := ⟨7, 3, 2⟩
def GRN_UNLOCK_CTL_GO : Fld := ⟨7, 5, 1⟩
def GRN_LOCKST_RUNL : Fld := ⟨8, 0, 4⟩
def GRN_LOCKST_WUNL : Fld := ⟨8, 4, 4⟩
def GRN_LOCKST_RZERO : Fld := ⟨8, 8, 4⟩
def GRN_LOCKST_WZERO : Fld := ⟨8, 12, 4⟩
def GRN_LOCKST_FAILS : Fld := ⟨8, 16, 5⟩
def GRN_LOCKST_PWLIM : Fld := ⟨8, 21, 1⟩
def GRN_CALST_VALID : Fld := ⟨9, 0, 6⟩
def GRN_WC_INC_CTR : Fld := ⟨12, 0, 4⟩
def GRN_WC_SEL_CTR : Fld := ⟨13, 0, 4⟩
def GRN_WC_LO_VALUE : Fld := ⟨14, 0, 32⟩
def GRN_WC_HI_VALUE : Fld := ⟨15, 0, 16⟩
def GRN_WC_HI_WORN : Fld := ⟨15, 16, 1⟩
def GRN_WC_HI_PEND : Fld := ⟨15, 17, 1⟩
def GRN_PFMAP_MAP : Fld := ⟨16, 0, 32⟩

/-! `20_watchman.md`, R617. -/
def WCH_CFG_DEGE : Fld := ⟨0, 0, 5⟩
def WCH_STATUS_RACT : Fld := ⟨1, 0, 1⟩
def WCH_STATUS_RSRC : Fld := ⟨1, 1, 7⟩
def WCH_STATUS_RSEV : Fld := ⟨1, 8, 2⟩
def WCH_STATUS_DQ : Fld := ⟨1, 10, 1⟩
def WCH_STATUS_SAFEHOLD : Fld := ⟨1, 11, 1⟩
def WCH_STATUS_PAR : Fld := ⟨1, 12, 1⟩
def WCH_STATUS_QCNT : Fld := ⟨1, 13, 7⟩
def WCH_FIRST_SRC : Fld := ⟨2, 0, 7⟩
def WCH_FIRST_SEV : Fld := ⟨2, 8, 2⟩
def WCH_FIRST_MULTI : Fld := ⟨2, 10, 1⟩
def WCH_FIRST_VALID : Fld := ⟨2, 15, 1⟩
def WCH_FIRST_TN_LO_TN : Fld := ⟨3, 0, 32⟩
def WCH_FIRST_TN_HI_TN : Fld := ⟨4, 0, 32⟩
def WCH_LAT_LAT : Fld := ⟨5, 0, 32⟩
def WCH_CONS_CONS : Fld := ⟨8, 0, 32⟩
def WCH_PEND_PEND : Fld := ⟨11, 0, 32⟩
def WCH_CNT_SEL_SEL : Fld := ⟨14, 0, 7⟩
def WCH_CNT_COUNT : Fld := ⟨15, 0, 16⟩
def WCH_CNT_CCOUNT : Fld := ⟨15, 16, 16⟩
def WCH_SEV_SEV : Fld := ⟨16, 0, 2⟩

/-! `21_power_startup.md`, R638. -/
def PWR_STATUS_MODE : Fld := ⟨0, 0, 4⟩
def PWR_STATUS_TARGET : Fld := ⟨0, 4, 4⟩
def PWR_STATUS_CHG : Fld := ⟨0, 8, 1⟩
def PWR_STATUS_PF : Fld := ⟨0, 9, 1⟩
def PWR_STATUS_PFW : Fld := ⟨0, 10, 1⟩
def PWR_STATUS_EMBRET : Fld := ⟨0, 11, 1⟩
def PWR_STATUS_SAFEBOOT : Fld := ⟨0, 12, 1⟩
def PWR_MODE_CTL_REQ : Fld := ⟨1, 0, 4⟩
def PWR_MODE_CTL_GO : Fld := ⟨1, 4, 1⟩
def PWR_AUTO_MODE : Fld := ⟨2, 0, 4⟩
def PWR_BOOT_STRAP : Fld := ⟨3, 0, 2⟩
def PWR_BOOT_SRC : Fld := ⟨3, 2, 2⟩
def PWR_BOOT_ERR : Fld := ⟨3, 4, 3⟩
def PWR_BOOT_HOSTGO : Fld := ⟨3, 7, 1⟩
def PWR_BOOT_VERSION : Fld := ⟨3, 16, 16⟩
def PWR_RAIL_OK : Fld := ⟨4, 0, 15⟩
def PWR_RAIL_OUT : Fld := ⟨4, 16, 15⟩
def PWR_HOLD_THR : Fld := ⟨5, 0, 11⟩
def PWR_HOLD_EN : Fld := ⟨5, 11, 1⟩
def PWR_PFW_NS_NS : Fld := ⟨6, 0, 30⟩
def PWR_PFW_S_S_LO : Fld := ⟨7, 0, 32⟩
def PWR_CNT_PFWARN : Fld := ⟨8, 0, 16⟩
def PWR_CNT_RESETS : Fld := ⟨8, 16, 16⟩
def PWR_TEMP_TJ : Fld := ⟨9, 0, 16⟩
def PWR_TEMP_PEAK : Fld := ⟨9, 16, 16⟩
def PWR_RESET_GO : Fld := ⟨10, 0, 1⟩

/-! `23_register_map.md`, R667. -/
def GLB_ID_STEP : Fld := ⟨0, 0, 8⟩
def GLB_ID_FAMILY : Fld := ⟨0, 16, 16⟩
def GLB_SCRATCH_DATA : Fld := ⟨1, 0, 32⟩
def GLB_UID_LO_UID : Fld := ⟨2, 0, 32⟩
def GLB_UID_HI_UID : Fld := ⟨3, 0, 32⟩

/-! `23_register_map.md`, R670. -/
def RVE_STATUS_STATE : Fld := ⟨0, 0, 2⟩
def RVE_STATUS_SPIOWN : Fld := ⟨0, 2, 1⟩
def RVE_FWCRC_CRC : Fld := ⟨1, 0, 32⟩
def RVE_BEAT_COUNT : Fld := ⟨2, 0, 32⟩
def RVE_STAGE_COUNT : Fld := ⟨3, 0, 13⟩
def RVE_STAGE_PEAK : Fld := ⟨3, 16, 13⟩
def RVE_CMDCNT_APPLIED : Fld := ⟨4, 0, 16⟩
def RVE_CMDCNT_REJECTED : Fld := ⟨4, 16, 16⟩
def RVE_RESTART_COUNT : Fld := ⟨5, 0, 8⟩
def RVE_RESTART_SRC : Fld := ⟨5, 8, 7⟩
def RVE_SPI_CTL_EN : Fld := ⟨8, 0, 1⟩
def RVE_SPI_CTL_CS : Fld := ⟨8, 1, 1⟩
def RVE_SPI_CTL_BUSY : Fld := ⟨8, 2, 1⟩
def RVE_SPI_CTL_TXFREE : Fld := ⟨8, 4, 9⟩
def RVE_SPI_CTL_LOST : Fld := ⟨8, 16, 16⟩
def RVE_SPI_TX_DATA : Fld := ⟨9, 0, 8⟩
def RVE_SPI_RX_POP_DATA : Fld := ⟨10, 0, 8⟩
def RVE_SPI_RX_POP_VALID : Fld := ⟨10, 8, 1⟩
def RVE_SPI_RX_POP_LEFT : Fld := ⟨10, 16, 8⟩

end Sys2Proof.Machine
end

