-- ==== Sys2Proof/Machine/RegMap.lean ====
section
/-! DEFINITION. The register map: for every window of R663 its number, decode width and register blocks, and for every
register the fields of the spec's register tables with their access code (R10), reset value (R12), locking condition
(R155, R157) and accepted values (R153). Reserved bits have no entry: they read zero and ignore writes (R9). -/

namespace Sys2Proof.Machine

/-- The access codes of R10. -/
inductive Acc
  | rw | ro | w1c | wo | rwd | pfo
deriving DecidableEq, Repr

/-- What governs a field that is not always writable (R155, R157). -/
inductive Lock
  | free
  | enable (idx bit : Nat)   -- the enable bit of the same block that must be 0
  | ensemble                 -- `GLB_ENS_CFG.EN` of the member's ensemble (R237)
  | m6                       -- writable only in M6 CONFIG
  | tamper                   -- both tamper enables must be 0 (R241)
deriving DecidableEq, Repr

/-- One field: low bit, width, access, reset value, lock, accepted ranges (none: every value). -/
structure FieldSpec where
  lo : Nat
  width : Nat
  acc : Acc
  reset : Nat
  lock : Lock
  ok : List (Nat × Nat)
deriving DecidableEq, Repr

/-- One register of a block, at a word index relative to the block. -/
structure RegSpec where
  idx : Nat
  fields : List FieldSpec
deriving DecidableEq, Repr

/-- `count` blocks of the same shape, the first at word `off` of the window, `stride` words apart. -/
structure Group where
  off : Nat
  stride : Nat
  count : Nat
  regs : List RegSpec
deriving DecidableEq, Repr

/-- `nwin` windows of the same shape from window `base` on, with decode width `dw`. -/
structure WinSpec where
  base : Nat
  nwin : Nat
  dw : Nat
  groups : List Group
deriving DecidableEq, Repr


def RegMap.glbPart0 : List RegSpec := [
  -- GLB_ID, R667
  ⟨0, [⟨0, 8, .ro, 16, .free, []⟩, ⟨16, 16, .ro, 34592, .free, []⟩]⟩,
  -- GLB_SCRATCH, R667
  ⟨1, [⟨0, 32, .rw, 0, .free, []⟩]⟩,
  -- GLB_UID_LO, R667
  ⟨2, [⟨0, 32, .ro, 0, .free, []⟩]⟩,
  -- GLB_UID_HI, R667
  ⟨3, [⟨0, 32, .ro, 0, .free, []⟩]⟩,
  -- GLB_CAP0, R26
  ⟨4, [⟨0, 8, .ro, 16, .free, []⟩, ⟨8, 8, .ro, 48, .free, []⟩, ⟨16, 4, .ro, 8, .free, []⟩, ⟨20, 4, .ro, 8, .free, []⟩, ⟨24, 4, .ro, 4, .free, []⟩, ⟨28, 4, .ro, 4, .free, []⟩]⟩,
  -- GLB_CAP1, R27
  ⟨5, [⟨0, 1, .ro, 1, .free, []⟩, ⟨1, 1, .ro, 1, .free, []⟩, ⟨2, 1, .ro, 1, .free, []⟩, ⟨4, 4, .ro, 8, .free, []⟩, ⟨8, 8, .ro, 16, .free, []⟩, ⟨16, 8, .ro, 15, .free, []⟩]⟩,
  -- GLB_CAP2, R28
  ⟨6, [⟨0, 5, .ro, 18, .free, []⟩, ⟨8, 8, .ro, 64, .free, []⟩, ⟨16, 8, .ro, 128, .free, []⟩, ⟨24, 8, .ro, 96, .free, []⟩]⟩,
  -- GLB_CAP3, R29
  ⟨7, [⟨0, 4, .ro, 10, .free, []⟩, ⟨8, 8, .ro, 14, .free, []⟩, ⟨16, 8, .ro, 47, .free, []⟩, ⟨24, 1, .ro, 1, .free, []⟩]⟩,
  -- GLB_TN_LO, R36
  ⟨8, [⟨0, 32, .ro, 0, .free, []⟩]⟩,
  -- GLB_TN_HI, R36
  ⟨9, [⟨0, 32, .ro, 0, .free, []⟩]⟩,
  -- GLB_TIX, R36
  ⟨10, [⟨0, 15, .ro, 0, .free, []⟩]⟩,
  -- GLB_OVR_MIL, R66
  ⟨12, [⟨0, 16, .w1c, 0, .free, []⟩, ⟨16, 16, .w1c, 0, .free, []⟩]⟩,
  -- GLB_OVR_HRD, R66
  ⟨13, [⟨0, 16, .w1c, 0, .free, []⟩, ⟨16, 16, .w1c, 0, .free, []⟩]⟩,
  -- GLB_OVR_TLY, R66
  ⟨14, [⟨0, 16, .w1c, 0, .free, []⟩, ⟨16, 16, .w1c, 0, .free, []⟩]⟩,
  -- GLB_OVR_RVE, R66
  ⟨15, [⟨0, 16, .w1c, 0, .free, []⟩, ⟨16, 16, .w1c, 0, .free, []⟩]⟩,
  -- GLB_PEAK0, R66
  ⟨16, [⟨0, 16, .w1c, 0, .free, []⟩, ⟨16, 16, .w1c, 0, .free, []⟩]⟩]

def RegMap.glbPart1 : List RegSpec := [
  -- GLB_PEAK1, R66
  ⟨17, [⟨0, 16, .w1c, 0, .free, []⟩, ⟨16, 16, .w1c, 0, .free, []⟩]⟩,
  -- GLB_TIMECHAN, R78
  ⟨20, [⟨0, 4, .rwd, 0, .m6, []⟩, ⟨8, 1, .rwd, 0, .m6, []⟩]⟩,
  -- GLB_VIOL_ADDR, R160
  ⟨24, [⟨0, 22, .pfo, 0, .free, []⟩]⟩,
  -- GLB_VIOL_INFO, R160
  ⟨25, [⟨0, 3, .pfo, 0, .free, []⟩, ⟨8, 4, .pfo, 0, .free, []⟩, ⟨12, 1, .pfo, 0, .free, []⟩, ⟨13, 1, .pfo, 0, .free, []⟩, ⟨16, 16, .pfo, 0, .free, []⟩]⟩,
  -- GLB_WR_IGN0, R160
  ⟨28, [⟨0, 32, .pfo, 0, .free, []⟩]⟩,
  -- GLB_WR_IGN1, R160
  ⟨29, [⟨0, 32, .pfo, 0, .free, []⟩]⟩,
  -- GLB_WR_IGN2, R160
  ⟨30, [⟨0, 32, .pfo, 0, .free, []⟩]⟩,
  -- GLB_ARB_CTL, R141
  ⟨64, [⟨0, 1, .pfo, 0, .free, []⟩, ⟨8, 7, .pfo, 60, .free, [(0, 60)]⟩]⟩,
  -- GLB_ARB_W0, R141
  ⟨65, [⟨0, 8, .pfo, 16, .free, [(1, 255)]⟩, ⟨8, 8, .pfo, 16, .free, [(1, 255)]⟩, ⟨16, 8, .pfo, 16, .free, [(1, 255)]⟩, ⟨24, 8, .pfo, 16, .free, [(1, 255)]⟩]⟩,
  -- GLB_ARB_W1, R141
  ⟨66, [⟨0, 8, .pfo, 16, .free, [(1, 255)]⟩, ⟨8, 8, .pfo, 16, .free, [(1, 255)]⟩, ⟨16, 8, .pfo, 16, .free, [(1, 255)]⟩, ⟨24, 8, .pfo, 16, .free, [(1, 255)]⟩]⟩,
  -- GLB_ARB_W2, R141
  ⟨67, [⟨0, 8, .pfo, 16, .free, [(1, 255)]⟩, ⟨8, 8, .pfo, 16, .free, [(1, 255)]⟩, ⟨16, 8, .pfo, 16, .free, [(1, 255)]⟩, ⟨24, 8, .pfo, 16, .free, [(1, 255)]⟩]⟩,
  -- GLB_ARB_W3, R141
  ⟨68, [⟨0, 8, .pfo, 16, .free, [(1, 255)]⟩, ⟨8, 8, .pfo, 16, .free, [(1, 255)]⟩, ⟨16, 8, .pfo, 16, .free, [(1, 255)]⟩, ⟨24, 8, .pfo, 16, .free, [(1, 255)]⟩]⟩,
  -- GLB_DB_ERR, R118
  ⟨70, [⟨0, 16, .w1c, 0, .free, []⟩, ⟨16, 6, .ro, 0, .free, []⟩, ⟨22, 2, .ro, 0, .free, []⟩]⟩,
  -- GLB_IRQ_MOD, R136
  ⟨71, [⟨0, 8, .rw, 0, .free, []⟩]⟩,
  -- GLB_ACC_ERR, R160
  ⟨72, [⟨0, 16, .w1c, 0, .free, []⟩, ⟨16, 3, .ro, 0, .free, []⟩]⟩,
  -- GLB_ACC_ADDR, R160
  ⟨73, [⟨0, 22, .ro, 0, .free, []⟩]⟩,
  -- GLB_TMP_CFG, R241
  ⟨800, [⟨0, 1, .pfo, 0, .free, []⟩, ⟨1, 2, .pfo, 2, .free, [(0, 2)]⟩, ⟨3, 1, .pfo, 0, .free, []⟩, ⟨4, 2, .pfo, 2, .free, [(0, 2)]⟩, ⟨8, 8, .pfo, 10, .free, []⟩]⟩]

def RegMap.glbPart2 : List RegSpec := [
  -- GLB_TMP_LOG, R241
  ⟨801, [⟨0, 10, .pfo, 0, .tamper, []⟩, ⟨10, 7, .pfo, 0, .tamper, [(0, 64)]⟩]⟩,
  -- GLB_TMP_STATUS, R241
  ⟨802, [⟨0, 1, .ro, 0, .free, []⟩, ⟨1, 1, .ro, 0, .free, []⟩, ⟨2, 1, .w1c, 0, .free, []⟩, ⟨3, 1, .w1c, 0, .free, []⟩, ⟨4, 1, .w1c, 0, .free, []⟩, ⟨16, 16, .w1c, 0, .free, []⟩]⟩,
  -- GLB_TMP_NEXT, R241
  ⟨803, [⟨0, 11, .ro, 0, .free, []⟩]⟩]

def RegMap.glb : List RegSpec := RegMap.glbPart0 ++ RegMap.glbPart1 ++ RegMap.glbPart2

def RegMap.ltc : List RegSpec := [
  -- LTC_STATUS, R87
  ⟨0, [⟨0, 1, .w1c, 1, .free, []⟩, ⟨1, 1, .ro, 0, .free, []⟩, ⟨2, 2, .ro, 0, .free, []⟩, ⟨4, 5, .ro, 31, .free, []⟩, ⟨9, 1, .ro, 0, .free, []⟩, ⟨10, 1, .ro, 0, .free, []⟩]⟩,
  -- LTC_CAPTURE, R87
  ⟨1, [⟨0, 1, .wo, 0, .free, []⟩]⟩,
  -- LTC_SNAP_NS, R87
  ⟨2, [⟨0, 30, .ro, 0, .free, []⟩]⟩,
  -- LTC_SNAP_FRAC, R87
  ⟨3, [⟨0, 32, .ro, 0, .free, []⟩]⟩,
  -- LTC_SNAP_S_LO, R87
  ⟨4, [⟨0, 32, .ro, 0, .free, []⟩]⟩,
  -- LTC_SNAP_S_HI, R87
  ⟨5, [⟨0, 16, .ro, 0, .free, []⟩]⟩,
  -- LTC_SNAP_TN_LO, R87
  ⟨6, [⟨0, 32, .ro, 0, .free, []⟩]⟩,
  -- LTC_SNAP_TN_HI, R87
  ⟨7, [⟨0, 32, .ro, 0, .free, []⟩]⟩,
  -- LTC_UTCOFF, R81
  ⟨8, [⟨0, 16, .rw, 0, .free, []⟩, ⟨16, 1, .rw, 0, .free, []⟩, ⟨17, 1, .rw, 0, .free, []⟩, ⟨18, 1, .rw, 0, .free, []⟩, ⟨19, 1, .rw, 0, .free, []⟩, ⟨20, 1, .ro, 0, .free, []⟩]⟩,
  -- LTC_STEP_S_LO, R87
  ⟨9, [⟨0, 32, .pfo, 0, .free, []⟩]⟩,
  -- LTC_STEP_S_HI, R87
  ⟨10, [⟨0, 16, .pfo, 0, .free, []⟩]⟩,
  -- LTC_STEP_NS, R87
  ⟨11, [⟨0, 30, .pfo, 0, .free, []⟩]⟩,
  -- LTC_STEP_CTL, R87
  ⟨12, [⟨0, 1, .pfo, 0, .free, []⟩]⟩,
  -- LTC_STEPCNT, R87
  ⟨13, [⟨0, 16, .w1c, 0, .free, []⟩, ⟨16, 16, .w1c, 0, .free, []⟩]⟩]

def RegMap.ring : List RegSpec := [
  -- GLB_RING_BASE_LO, R104
  ⟨0, [⟨6, 26, .rw, 0, .free, []⟩]⟩,
  -- GLB_RING_BASE_HI, R104
  ⟨1, [⟨0, 32, .rw, 0, .free, []⟩]⟩,
  -- GLB_RING_CFG, R104
  ⟨2, [⟨0, 5, .rw, 0, .free, []⟩, ⟨8, 6, .rw, 0, .free, []⟩, ⟨14, 1, .rw, 0, .free, []⟩, ⟨15, 1, .rw, 0, .free, []⟩, ⟨16, 4, .pfo, 0, .free, []⟩]⟩,
  -- GLB_RING_IDX, R104
  ⟨3, [⟨0, 32, .ro, 0, .free, []⟩]⟩,
  -- GLB_RING_WB_LO, R104
  ⟨4, [⟨3, 29, .rw, 0, .free, []⟩]⟩,
  -- GLB_RING_WB_HI, R104
  ⟨5, [⟨0, 32, .rw, 0, .free, []⟩]⟩,
  -- GLB_RING_THRESH, R104
  ⟨6, [⟨0, 28, .rw, 0, .free, []⟩]⟩,
  -- GLB_RING_DROP, R104
  ⟨7, [⟨0, 32, .w1c, 0, .free, []⟩]⟩]

def RegMap.dring : List RegSpec := [
  -- GLB_RING_BASE_LO, R104
  ⟨0, [⟨6, 26, .rw, 0, .free, []⟩]⟩,
  -- GLB_RING_BASE_HI, R104
  ⟨1, [⟨0, 32, .rw, 0, .free, []⟩]⟩,
  -- GLB_RING_CFG, R104
  ⟨2, [⟨0, 5, .rw, 0, .free, []⟩, ⟨8, 6, .rw, 0, .free, []⟩, ⟨14, 1, .rw, 0, .free, []⟩, ⟨15, 1, .rw, 0, .free, []⟩, ⟨16, 4, .pfo, 0, .free, []⟩]⟩,
  -- GLB_RING_IDX, R104
  ⟨3, [⟨0, 32, .ro, 0, .free, []⟩]⟩,
  -- GLB_RING_WB_LO, R104
  ⟨4, [⟨3, 29, .rw, 0, .free, []⟩]⟩,
  -- GLB_RING_WB_HI, R104
  ⟨5, [⟨0, 32, .rw, 0, .free, []⟩]⟩,
  -- GLB_RING_THRESH, R104
  ⟨6, [⟨0, 28, .rw, 0, .free, []⟩]⟩,
  -- GLB_RING_DROP, R104
  ⟨7, [⟨0, 32, .w1c, 0, .free, []⟩]⟩]

def RegMap.evr : List RegSpec := [
  -- GLB_EV_ROUTE, R134
  ⟨0, [⟨0, 6, .rw, 0, .free, []⟩, ⟨7, 1, .rw, 0, .free, []⟩, ⟨8, 6, .rw, 0, .free, []⟩, ⟨15, 1, .rw, 0, .free, []⟩, ⟨16, 6, .rw, 0, .free, []⟩, ⟨23, 1, .rw, 0, .free, []⟩, ⟨24, 6, .rw, 0, .free, []⟩, ⟨31, 1, .rw, 0, .free, []⟩]⟩]

def RegMap.prs : List RegSpec := [
  -- PRS_TC_CFG, R209
  ⟨0, [⟨0, 1, .rw, 0, .free, []⟩, ⟨1, 1, .rwd, 0, (.enable 0 0), []⟩, ⟨2, 6, .rwd, 0, (.enable 0 0), [(0, 31)]⟩, ⟨8, 4, .rwd, 5, (.enable 0 0), [(0, 8)]⟩, ⟨12, 1, .rwd, 0, (.enable 0 0), []⟩, ⟨13, 2, .rwd, 0, (.enable 0 0), [(0, 2)]⟩]⟩,
  -- PRS_TC_STATUS, R209
  ⟨1, [⟨0, 1, .ro, 0, .free, []⟩, ⟨1, 1, .ro, 0, .free, []⟩, ⟨2, 1, .ro, 0, .free, []⟩, ⟨3, 4, .ro, 15, .free, []⟩]⟩,
  -- PRS_TC_ERR, R209
  ⟨2, [⟨0, 8, .w1c, 0, .free, []⟩, ⟨8, 8, .w1c, 0, .free, []⟩, ⟨16, 8, .w1c, 0, .free, []⟩, ⟨24, 8, .w1c, 0, .free, []⟩]⟩,
  -- PRS_GOOD_LO, R209
  ⟨4, [⟨0, 32, .ro, 0, .free, []⟩]⟩,
  -- PRS_GOOD_HI, R209
  ⟨5, [⟨0, 32, .ro, 0, .free, []⟩]⟩,
  -- PRS_SUSP_LO, R209
  ⟨6, [⟨0, 32, .ro, 0, .free, []⟩]⟩,
  -- PRS_SUSP_HI, R209
  ⟨7, [⟨0, 32, .ro, 0, .free, []⟩]⟩]

def RegMap.prl : List RegSpec := [
  -- PRS_IN_CFG, R210
  ⟨0, [⟨0, 2, .rwd, 3, (.enable 2 0), []⟩, ⟨2, 1, .rwd, 0, (.enable 2 0), []⟩, ⟨3, 1, .rwd, 0, (.enable 2 0), []⟩, ⟨4, 2, .rwd, 0, (.enable 2 0), []⟩, ⟨8, 16, .rwd, 1, (.enable 2 0), [(1, 65535)]⟩]⟩,
  -- PRS_NOM, R210
  ⟨1, [⟨0, 26, .rwd, 1, (.enable 2 0), [(1, 50000000)]⟩]⟩,
  -- PRS_MON, R210
  ⟨2, [⟨0, 1, .rw, 0, .free, []⟩, ⟨1, 1, .rw, 1, .free, []⟩, ⟨2, 1, .rw, 1, .free, []⟩, ⟨3, 1, .rw, 1, .free, []⟩, ⟨4, 1, .rw, 0, .free, []⟩, ⟨5, 1, .rw, 0, .free, []⟩, ⟨6, 1, .rw, 0, .free, []⟩, ⟨8, 4, .rw, 2, .free, [(1, 8)]⟩, ⟨12, 3, .rw, 6, .free, [(1, 7)]⟩, ⟨16, 5, .rw, 10, .free, [(5, 20)]⟩]⟩,
  -- PRS_LIM0, R210
  ⟨3, [⟨0, 12, .rw, 120, .free, [(1, 4095)]⟩, ⟨16, 16, .rw, 100, .free, [(1, 65535)]⟩]⟩,
  -- PRS_LIM1, R210
  ⟨4, [⟨0, 16, .rw, 100, .free, [(1, 65535)]⟩, ⟨16, 16, .rw, 10, .free, [(1, 65535)]⟩]⟩,
  -- PRS_PW, R210
  ⟨5, [⟨0, 16, .rw, 1, .free, [(1, 65535)]⟩, ⟨16, 16, .rw, 50000, .free, [(1, 65535)]⟩]⟩,
  -- PRS_QUAL, R210
  ⟨6, [⟨0, 4, .rw, 8, .free, [(1, 8), (15, 15)]⟩, ⟨4, 4, .ro, 8, .free, []⟩, ⟨8, 8, .rw, 248, .free, []⟩, ⟨16, 8, .ro, 248, .free, []⟩]⟩,
  -- PRS_VERDICT, R210
  ⟨7, [⟨0, 2, .ro, 2, .free, []⟩, ⟨2, 1, .ro, 0, .free, []⟩, ⟨3, 1, .ro, 0, .free, []⟩, ⟨4, 7, .ro, 0, .free, []⟩, ⟨16, 16, .ro, 0, .free, []⟩]⟩]

def RegMap.prh : List RegSpec := [
  -- PRS_MON, R210
  ⟨2, [⟨0, 1, .rw, 0, .free, []⟩, ⟨1, 1, .rw, 1, .free, []⟩, ⟨2, 1, .rw, 1, .free, []⟩, ⟨3, 1, .rw, 1, .free, []⟩, ⟨4, 1, .rw, 0, .free, []⟩, ⟨5, 1, .rw, 0, .free, []⟩, ⟨6, 1, .rw, 0, .free, []⟩, ⟨8, 4, .rw, 2, .free, [(1, 8)]⟩, ⟨12, 3, .rw, 6, .free, [(1, 7)]⟩, ⟨16, 5, .rw, 10, .free, [(5, 20)]⟩]⟩,
  -- PRS_LIM0, R210
  ⟨3, [⟨0, 12, .rw, 120, .free, [(1, 4095)]⟩, ⟨16, 16, .rw, 100, .free, [(1, 65535)]⟩]⟩,
  -- PRS_LIM1, R210
  ⟨4, [⟨0, 16, .rw, 100, .free, [(1, 65535)]⟩, ⟨16, 16, .rw, 10, .free, [(1, 65535)]⟩]⟩,
  -- PRS_QUAL, R210
  ⟨6, [⟨0, 4, .rw, 8, .free, [(1, 8), (15, 15)]⟩, ⟨4, 4, .ro, 8, .free, []⟩, ⟨8, 8, .rw, 248, .free, []⟩, ⟨16, 8, .ro, 248, .free, []⟩]⟩,
  -- PRS_VERDICT, R210
  ⟨7, [⟨0, 2, .ro, 2, .free, []⟩, ⟨2, 1, .ro, 0, .free, []⟩, ⟨3, 1, .ro, 0, .free, []⟩, ⟨4, 7, .ro, 0, .free, []⟩, ⟨16, 16, .ro, 0, .free, []⟩]⟩]

def RegMap.prc : List RegSpec := [
  -- PRS_PRIO0, R211
  ⟨0, [⟨0, 6, .rw, 0, .free, []⟩, ⟨7, 1, .rw, 0, .free, []⟩, ⟨8, 6, .rw, 0, .free, []⟩, ⟨15, 1, .rw, 0, .free, []⟩, ⟨16, 6, .rw, 0, .free, []⟩, ⟨23, 1, .rw, 0, .free, []⟩, ⟨24, 6, .rw, 0, .free, []⟩, ⟨31, 1, .rw, 0, .free, []⟩]⟩,
  -- PRS_PRIO1, R211
  ⟨1, [⟨0, 6, .rw, 0, .free, []⟩, ⟨7, 1, .rw, 0, .free, []⟩, ⟨8, 6, .rw, 0, .free, []⟩, ⟨15, 1, .rw, 0, .free, []⟩, ⟨16, 6, .rw, 0, .free, []⟩, ⟨23, 1, .rw, 0, .free, []⟩, ⟨24, 6, .rw, 0, .free, []⟩, ⟨31, 1, .rw, 0, .free, []⟩]⟩,
  -- PRS_PRIO2, R211
  ⟨2, [⟨0, 6, .rw, 0, .free, []⟩, ⟨7, 1, .rw, 0, .free, []⟩, ⟨8, 6, .rw, 0, .free, []⟩, ⟨15, 1, .rw, 0, .free, []⟩, ⟨16, 6, .rw, 0, .free, []⟩, ⟨23, 1, .rw, 0, .free, []⟩, ⟨24, 6, .rw, 0, .free, []⟩, ⟨31, 1, .rw, 0, .free, []⟩]⟩,
  -- PRS_PRIO3, R211
  ⟨3, [⟨0, 6, .rw, 0, .free, []⟩, ⟨7, 1, .rw, 0, .free, []⟩, ⟨8, 6, .rw, 0, .free, []⟩, ⟨15, 1, .rw, 0, .free, []⟩, ⟨16, 6, .rw, 0, .free, []⟩, ⟨23, 1, .rw, 0, .free, []⟩, ⟨24, 6, .rw, 0, .free, []⟩, ⟨31, 1, .rw, 0, .free, []⟩]⟩,
  -- PRS_SEL_CFG, R211
  ⟨4, [⟨0, 2, .rw, 0, .free, [(0, 2)]⟩, ⟨2, 1, .rw, 0, .free, []⟩, ⟨7, 1, .rw, 0, .free, []⟩, ⟨8, 6, .rw, 0, .free, []⟩, ⟨16, 4, .rw, 4, .free, [(0, 12)]⟩]⟩,
  -- PRS_SEL_STATUS, R211
  ⟨5, [⟨0, 6, .ro, 0, .free, []⟩, ⟨6, 1, .ro, 0, .free, []⟩, ⟨8, 6, .ro, 0, .free, []⟩, ⟨14, 1, .ro, 0, .free, []⟩, ⟨16, 4, .ro, 0, .free, []⟩]⟩,
  -- PRS_PL_IDX, R211
  ⟨6, [⟨0, 6, .rw, 0, .free, []⟩]⟩,
  -- PRS_PL_OFF_LO, R211
  ⟨7, [⟨0, 32, .ro, 0, .free, []⟩]⟩,
  -- PRS_PL_OFF_HI, R211
  ⟨8, [⟨0, 16, .ro, 0, .free, []⟩, ⟨16, 1, .ro, 0, .free, []⟩, ⟨17, 1, .ro, 0, .free, []⟩]⟩]

def RegMap.ens : List RegSpec := [
  -- GLB_ENS_CFG, R236
  ⟨0, [⟨0, 1, .rw, 0, .free, []⟩, ⟨1, 1, .rwd, 0, (.enable 0 0), []⟩, ⟨2, 1, .rwd, 0, (.enable 0 0), []⟩, ⟨3, 1, .rw, 0, .free, []⟩, ⟨4, 4, .rw, 2, .free, [(1, 8)]⟩, ⟨8, 4, .rwd, 8, (.enable 0 0), [(4, 15)]⟩, ⟨12, 4, .rwd, 4, (.enable 0 0), [(0, 10)]⟩, ⟨16, 7, .rw, 50, .free, [(10, 100)]⟩, ⟨23, 1, .rw, 0, .free, []⟩]⟩,
  -- GLB_ENS_GATE, R236
  ⟨1, [⟨0, 4, .rw, 5, .free, [(1, 15)]⟩, ⟨4, 16, .rw, 20, .free, [(1, 65535)]⟩]⟩,
  -- GLB_ENS_TCFG, R236
  ⟨2, [⟨0, 8, .rw, 3, .free, [(1, 255)]⟩, ⟨8, 8, .rw, 8, .free, [(1, 255)]⟩, ⟨16, 16, .rw, 3600, .free, [(1, 65535)]⟩]⟩,
  -- GLB_ENS_HCFG, R236
  ⟨3, [⟨0, 16, .rw, 100, .free, [(1, 65535)]⟩, ⟨16, 12, .rw, 60, .free, [(1, 3600)]⟩]⟩,
  -- GLB_ENS_ACFG, R236
  ⟨4, [⟨0, 8, .rw, 16, .free, [(1, 255)]⟩, ⟨8, 12, .rw, 1000, .free, [(1, 4095)]⟩, ⟨20, 12, .rw, 100, .free, []⟩]⟩,
  -- GLB_ENS_STATUS, R236
  ⟨5, [⟨0, 4, .ro, 0, .free, []⟩, ⟨4, 1, .ro, 0, .free, []⟩, ⟨5, 3, .ro, 0, .free, []⟩, ⟨8, 1, .ro, 0, .free, []⟩, ⟨9, 1, .ro, 0, .free, []⟩, ⟨10, 3, .ro, 0, .free, []⟩]⟩,
  -- GLB_ENS_LATCH, R236
  ⟨6, [⟨0, 3, .rw, 0, .free, []⟩, ⟨3, 1, .ro, 0, .free, []⟩, ⟨16, 16, .ro, 0, .free, []⟩]⟩,
  -- GLB_ENS_LOFF, R236
  ⟨7, [⟨0, 32, .ro, 0, .free, []⟩]⟩]

def RegMap.em : List RegSpec := [
  -- GLB_EM_CFG, R237
  ⟨0, [⟨0, 6, .rwd, 0, .ensemble, []⟩, ⟨6, 1, .rwd, 0, .ensemble, []⟩, ⟨8, 8, .rwd, 1, .ensemble, []⟩, ⟨16, 16, .rwd, 0, .ensemble, []⟩]⟩,
  -- GLB_EM_STAT, R237
  ⟨1, [⟨0, 3, .ro, 0, .free, []⟩, ⟨3, 1, .ro, 0, .free, []⟩, ⟨4, 3, .ro, 0, .free, []⟩, ⟨8, 8, .ro, 0, .free, []⟩, ⟨16, 16, .ro, 0, .free, []⟩]⟩]

def RegMap.milPart0 : List RegSpec := [
  -- MIL_CFG, R278
  ⟨0, [⟨0, 1, .rw, 0, .free, []⟩, ⟨1, 1, .rwd, 0, (.enable 0 0), []⟩, ⟨2, 1, .rw, 1, .free, []⟩, ⟨4, 4, .rwd, 0, (.enable 0 0), []⟩]⟩,
  -- MIL_BW, R278
  ⟨1, [⟨0, 30, .rw, 100000, .free, [(10, 1000000000)]⟩]⟩,
  -- MIL_ABW, R278
  ⟨2, [⟨0, 30, .rw, 0, .free, [(0, 0), (10, 1000000000)]⟩]⟩,
  -- MIL_DAMP, R278
  ⟨3, [⟨0, 8, .rw, 40, .free, [(4, 255)]⟩]⟩,
  -- MIL_LIM0, R278
  ⟨4, [⟨0, 20, .rw, 7500, .free, [(1, 1000000)]⟩]⟩,
  -- MIL_LIM1, R278
  ⟨5, [⟨0, 17, .rw, 2000, .free, [(1, 100000)]⟩]⟩,
  -- MIL_LOCK, R278
  ⟨6, [⟨0, 16, .rw, 100, .free, [(1, 65535)]⟩, ⟨16, 8, .rw, 16, .free, [(1, 255)]⟩, ⟨24, 8, .rw, 4, .free, [(1, 255)]⟩]⟩,
  -- MIL_SPEC, R278
  ⟨7, [⟨0, 10, .rw, 120, .free, [(0, 1000)]⟩, ⟨16, 7, .rw, 8, .free, [(1, 100)]⟩, ⟨24, 1, .rw, 1, .free, []⟩, ⟨25, 1, .rw, 1, .free, []⟩]⟩,
  -- MIL_FRW_LO, R278
  ⟨8, [⟨0, 32, .rw, 0, .free, []⟩]⟩,
  -- MIL_FRW_HI, R278
  ⟨9, [⟨0, 32, .rw, 0, .free, []⟩]⟩,
  -- MIL_STATUS, R278
  ⟨10, [⟨0, 3, .ro, 0, .free, []⟩, ⟨3, 1, .ro, 0, .free, []⟩, ⟨4, 6, .ro, 0, .free, []⟩, ⟨10, 1, .ro, 0, .free, []⟩, ⟨11, 1, .ro, 0, .free, []⟩, ⟨12, 1, .ro, 0, .free, []⟩, ⟨13, 1, .ro, 0, .free, []⟩, ⟨14, 1, .ro, 0, .free, []⟩, ⟨15, 1, .ro, 0, .free, []⟩, ⟨16, 2, .ro, 0, .free, []⟩, ⟨18, 1, .ro, 1, .free, []⟩, ⟨19, 1, .ro, 0, .free, []⟩]⟩,
  -- MIL_LATCH, R278
  ⟨11, [⟨0, 1, .wo, 0, .free, []⟩]⟩,
  -- MIL_L_FW_LO, R278
  ⟨12, [⟨0, 32, .ro, 0, .free, []⟩]⟩,
  -- MIL_L_FW_HI, R278
  ⟨13, [⟨0, 32, .ro, 0, .free, []⟩]⟩,
  -- MIL_L_ERR, R278
  ⟨14, [⟨0, 32, .ro, 0, .free, []⟩]⟩,
  -- MIL_L_D_LO, R278
  ⟨15, [⟨0, 32, .ro, 0, .free, []⟩]⟩]

def RegMap.milPart1 : List RegSpec := [
  -- MIL_L_D_HI, R278
  ⟨16, [⟨0, 32, .ro, 0, .free, []⟩]⟩,
  -- MIL_L_DT_LO, R278
  ⟨17, [⟨0, 32, .ro, 0, .free, []⟩]⟩,
  -- MIL_L_DT_HI, R278
  ⟨18, [⟨0, 32, .ro, 0, .free, []⟩]⟩,
  -- MIL_L_TN_LO, R278
  ⟨19, [⟨0, 32, .ro, 0, .free, []⟩]⟩,
  -- MIL_L_TN_HI, R278
  ⟨20, [⟨0, 32, .ro, 0, .free, []⟩]⟩,
  -- MIL_L_SPEC, R278
  ⟨21, [⟨0, 16, .ro, 0, .free, []⟩, ⟨16, 1, .ro, 0, .free, []⟩]⟩,
  -- MIL_CNT, R278
  ⟨22, [⟨0, 16, .w1c, 0, .free, []⟩, ⟨16, 16, .w1c, 0, .free, []⟩]⟩]

def RegMap.mil : List RegSpec := RegMap.milPart0 ++ RegMap.milPart1

def RegMap.glb1Part0 : List RegSpec := [
  -- GLB_HRT_CFG, R326
  ⟨0, [⟨0, 4, .rwd, 0, .m6, []⟩, ⟨4, 1, .rwd, 1, .m6, []⟩, ⟨5, 8, .rwd, 16, .m6, [(1, 255)]⟩, ⟨13, 2, .rwd, 0, .m6, [(0, 1)]⟩, ⟨15, 4, .rw, 2, .free, []⟩]⟩,
  -- GLB_HRT_CFG1, R326
  ⟨1, [⟨0, 13, .rw, 64, .free, [(16, 4096)]⟩, ⟨13, 8, .rw, 8, .free, [(1, 255)]⟩, ⟨21, 8, .rw, 8, .free, []⟩]⟩,
  -- GLB_HRT_STATUS, R326
  ⟨2, [⟨0, 1, .ro, 0, .free, []⟩, ⟨1, 1, .ro, 0, .free, []⟩, ⟨2, 1, .ro, 0, .free, []⟩, ⟨3, 1, .ro, 0, .free, []⟩, ⟨4, 1, .ro, 0, .free, []⟩, ⟨16, 13, .ro, 0, .free, []⟩]⟩,
  -- GLB_HRT_TEMP, R326
  ⟨3, [⟨0, 16, .ro, 0, .free, []⟩, ⟨16, 16, .ro, 0, .free, []⟩]⟩,
  -- GLB_HRT_TRANGE, R326
  ⟨4, [⟨0, 16, .ro, 0, .free, []⟩, ⟨16, 16, .ro, 0, .free, []⟩]⟩,
  -- GLB_HRT_LATCH, R326
  ⟨5, [⟨0, 1, .wo, 0, .free, []⟩]⟩,
  -- GLB_HRT_C0_LO, R326
  ⟨6, [⟨0, 32, .ro, 0, .free, []⟩]⟩,
  -- GLB_HRT_C0_HI, R326
  ⟨7, [⟨0, 32, .ro, 0, .free, []⟩]⟩,
  -- GLB_HRT_C1_LO, R326
  ⟨8, [⟨0, 32, .ro, 0, .free, []⟩]⟩,
  -- GLB_HRT_C1_HI, R326
  ⟨9, [⟨0, 32, .ro, 0, .free, []⟩]⟩,
  -- GLB_HRT_K1_LO, R326
  ⟨10, [⟨0, 32, .ro, 0, .free, []⟩]⟩,
  -- GLB_HRT_K1_HI, R326
  ⟨11, [⟨0, 32, .ro, 0, .free, []⟩]⟩,
  -- GLB_HRT_K2_LO, R326
  ⟨12, [⟨0, 32, .ro, 0, .free, []⟩]⟩,
  -- GLB_HRT_K2_HI, R326
  ⟨13, [⟨0, 32, .ro, 0, .free, []⟩]⟩,
  -- GLB_HRT_SIGY, R326
  ⟨14, [⟨0, 32, .ro, 0, .free, []⟩]⟩,
  -- GLB_HRT_SA, R326
  ⟨15, [⟨0, 32, .ro, 0, .free, []⟩]⟩]

def RegMap.glb1Part1 : List RegSpec := [
  -- GLB_HRT_EMB, R326
  ⟨16, [⟨0, 1, .pfo, 0, .free, []⟩, ⟨16, 16, .pfo, 1000, .free, []⟩]⟩,
  -- GLB_HRT_EMBST, R326
  ⟨17, [⟨0, 1, .w1c, 0, .free, []⟩, ⟨1, 31, .ro, 0, .free, []⟩]⟩,
  -- GLB_HRT_LOC, R326
  ⟨18, [⟨0, 10, .pfo, 0, .free, []⟩, ⟨10, 1, .pfo, 0, .free, []⟩]⟩,
  -- GLB_PLK_CFG, R540
  ⟨128, [⟨0, 20, .rwd, 0, .m6, []⟩, ⟨24, 4, .rw, 8, .free, [(1, 8), (15, 15)]⟩, ⟨28, 1, .rwd, 0, .m6, []⟩]⟩,
  -- GLB_PLK_CFG1, R540
  ⟨129, [⟨0, 23, .rw, 1000000, .free, [(1000, 8000000)]⟩, ⟨24, 8, .rw, 7, .free, []⟩]⟩,
  -- GLB_PLK_SWAP, R540
  ⟨130, [⟨0, 13, .rw, 64, .free, [(0, 0), (8, 4096)]⟩, ⟨13, 4, .rw, 1, .free, [(1, 15)]⟩, ⟨17, 3, .rw, 2, .free, [(0, 6)]⟩, ⟨20, 8, .rw, 20, .free, [(1, 255)]⟩]⟩,
  -- GLB_PLK_STATUS, R540
  ⟨131, [⟨0, 5, .ro, 0, .free, []⟩, ⟨16, 16, .w1c, 0, .free, []⟩]⟩]

def RegMap.glb1 : List RegSpec := RegMap.glb1Part0 ++ RegMap.glb1Part1

def RegMap.swo : List RegSpec := [
  -- GLB_SWO_CFG, R327
  ⟨0, [⟨0, 1, .rw, 0, .free, []⟩, ⟨1, 1, .rw, 1, .free, []⟩]⟩,
  -- GLB_HRT_CSTAT, R327
  ⟨1, [⟨0, 1, .ro, 0, .free, []⟩, ⟨1, 4, .ro, 0, .free, []⟩, ⟨8, 24, .ro, 0, .free, []⟩]⟩,
  -- GLB_HRT_YBAR_LO, R327
  ⟨2, [⟨0, 32, .ro, 0, .free, []⟩]⟩,
  -- GLB_HRT_YBAR_HI, R327
  ⟨3, [⟨0, 32, .ro, 0, .free, []⟩]⟩]

def RegMap.lom : List RegSpec := [
  -- LOM_CFG, R360
  ⟨0, [⟨0, 1, .rw, 0, .free, []⟩, ⟨1, 4, .rwd, 0, (.enable 0 0), []⟩, ⟨5, 1, .rw, 1, .free, []⟩, ⟨6, 1, .rw, 1, .free, []⟩, ⟨8, 4, .rwd, 4, (.enable 0 0), [(4, 8)]⟩, ⟨12, 3, .rw, 3, .free, []⟩, ⟨16, 8, .rw, 32, .free, []⟩]⟩,
  -- LOM_N, R360
  ⟨1, [⟨0, 8, .rwd, 80, (.enable 0 0), [(10, 255)]⟩]⟩,
  -- LOM_FC_LO, R360
  ⟨2, [⟨0, 32, .rw, 797966336, .free, []⟩]⟩,
  -- LOM_FC_HI, R360
  ⟨3, [⟨0, 14, .rw, 2384, .free, []⟩]⟩,
  -- LOM_STATUS, R360
  ⟨4, [⟨0, 3, .ro, 0, .free, []⟩, ⟨3, 1, .w1c, 0, .free, []⟩, ⟨4, 9, .ro, 0, .free, []⟩, ⟨13, 3, .ro, 0, .free, []⟩, ⟨16, 8, .ro, 0, .free, []⟩, ⟨24, 1, .ro, 0, .free, []⟩, ⟨25, 1, .ro, 0, .free, []⟩]⟩,
  -- LOM_MEAS, R360
  ⟨5, [⟨0, 24, .ro, 0, .free, []⟩]⟩,
  -- LOM_CNT, R360
  ⟨6, [⟨0, 8, .w1c, 0, .free, []⟩, ⟨8, 8, .w1c, 0, .free, []⟩, ⟨16, 16, .w1c, 0, .free, []⟩]⟩,
  -- LOM_SRCH, R360
  ⟨7, [⟨0, 6, .ro, 0, .free, []⟩, ⟨6, 9, .ro, 0, .free, []⟩, ⟨15, 3, .ro, 0, .free, []⟩]⟩,
  -- LOM_BIDX, R360
  ⟨8, [⟨0, 9, .rw, 0, .free, []⟩]⟩,
  -- LOM_BTAB, R360
  ⟨9, [⟨0, 24, .ro, 0, .free, []⟩, ⟨24, 1, .ro, 0, .free, []⟩]⟩]

def RegMap.out : List RegSpec := [
  -- OUT_CFG, R397
  ⟨0, [⟨0, 1, .rw, 0, .free, []⟩, ⟨1, 4, .rwd, 0, (.enable 0 0), []⟩, ⟨5, 3, .rwd, 0, (.enable 0 0), []⟩, ⟨8, 1, .rw, 0, .free, []⟩, ⟨9, 1, .rw, 0, .free, []⟩, ⟨10, 3, .rw, 0, .free, []⟩, ⟨13, 1, .rw, 0, .free, []⟩]⟩,
  -- OUT_DIV, R397
  ⟨1, [⟨0, 32, .rw, 20, .free, [(1, 4294967295)]⟩]⟩,
  -- OUT_DLY, R397
  ⟨2, [⟨0, 16, .rw, 0, .free, []⟩, ⟨16, 10, .rw, 0, .free, []⟩]⟩,
  -- OUT_STATUS, R397
  ⟨3, [⟨0, 3, .ro, 0, .free, []⟩, ⟨3, 1, .ro, 0, .free, []⟩, ⟨4, 1, .ro, 0, .free, []⟩, ⟨5, 1, .w1c, 0, .free, []⟩, ⟨6, 1, .ro, 0, .free, []⟩]⟩]

def RegMap.bank : List RegSpec := [
  -- OUT_BANK_CFG, R397
  ⟨32, [⟨0, 5, .rw, 0, .free, []⟩]⟩,
  -- OUT_BANK_STATUS, R397
  ⟨33, [⟨0, 2, .ro, 0, .free, []⟩, ⟨2, 3, .ro, 0, .free, []⟩, ⟨5, 1, .ro, 0, .free, []⟩, ⟨6, 1, .ro, 0, .free, []⟩]⟩]

def RegMap.tcd : List RegSpec := [
  -- TCD_PPS_CFG, R398
  ⟨0, [⟨0, 1, .rw, 0, .free, []⟩, ⟨1, 16, .rw, 10000, .free, [(1, 50000)]⟩]⟩,
  -- TCD_PPS_OFF, R398
  ⟨1, [⟨0, 30, .rw, 0, .free, []⟩]⟩,
  -- TCD_TC_CFG, R398
  ⟨2, [⟨0, 1, .rw, 0, .free, []⟩, ⟨1, 3, .rw, 0, .free, []⟩, ⟨4, 1, .rw, 0, .free, []⟩, ⟨5, 2, .rw, 0, .free, [(0, 2)]⟩, ⟨7, 1, .rw, 1, .free, []⟩, ⟨8, 1, .rw, 0, .free, []⟩, ⟨9, 1, .rw, 0, .free, []⟩, ⟨10, 4, .rw, 0, .free, []⟩, ⟨14, 1, .rw, 0, .free, []⟩, ⟨15, 1, .rw, 0, .free, []⟩]⟩,
  -- TCD_TC_STATUS, R398
  ⟨3, [⟨0, 4, .ro, 15, .free, []⟩, ⟨4, 1, .ro, 0, .free, []⟩, ⟨5, 1, .ro, 0, .free, []⟩]⟩,
  -- TCD_SG_CTL, R398
  ⟨4, [⟨0, 8, .rw, 0, .free, []⟩, ⟨8, 8, .rw, 0, .free, []⟩]⟩,
  -- TCD_SG_STATUS, R398
  ⟨5, [⟨0, 8, .ro, 0, .free, []⟩, ⟨16, 16, .w1c, 0, .free, []⟩]⟩,
  -- TCD_SYNC_NS, R398
  ⟨6, [⟨0, 30, .ro, 0, .free, []⟩]⟩,
  -- TCD_SYNC_S, R398
  ⟨7, [⟨0, 32, .ro, 0, .free, []⟩]⟩]

def RegMap.lni : List RegSpec := [
  -- LNS_IN_CFG, R429
  ⟨0, [⟨0, 1, .rw, 0, .free, []⟩, ⟨1, 1, .rw, 0, .free, []⟩, ⟨2, 2, .rwd, 0, (.enable 0 0), [(0, 2)]⟩, ⟨4, 1, .rwd, 0, (.enable 0 0), []⟩, ⟨8, 4, .rw, 0, .free, []⟩]⟩,
  -- LNS_THR, R429
  ⟨1, [⟨0, 12, .rw, 0, .free, []⟩, ⟨16, 6, .rw, 10, .free, []⟩]⟩,
  -- LNS_MISS, R429
  ⟨2, [⟨0, 32, .w1c, 0, .free, []⟩]⟩,
  -- LNS_IN_STATUS, R429
  ⟨3, [⟨0, 1, .ro, 0, .free, []⟩]⟩]

def RegMap.lns : List RegSpec := [
  -- LNS_BUF_STATUS, R429
  ⟨64, [⟨0, 20, .ro, 0, .free, []⟩]⟩,
  -- LNS_BUF_PEAK, R429
  ⟨65, [⟨0, 20, .w1c, 0, .free, []⟩]⟩,
  -- LNS_BUF_DROP, R429
  ⟨66, [⟨0, 32, .w1c, 0, .free, []⟩]⟩,
  -- LNS_CAL, R429
  ⟨67, [⟨0, 1, .ro, 0, .free, []⟩]⟩]

def RegMap.bst : List RegSpec := [
  -- LNS_BST_CFG, R430
  ⟨0, [⟨0, 3, .rwd, 0, (.enable 3 0), []⟩, ⟨4, 8, .rwd, 0, (.enable 3 0), []⟩, ⟨12, 4, .rwd, 0, (.enable 3 0), []⟩, ⟨16, 1, .rw, 0, .free, []⟩]⟩,
  -- LNS_BST_WIN, R430
  ⟨1, [⟨0, 24, .rwd, 1000000, (.enable 3 0), [(1, 10000000)]⟩]⟩,
  -- LNS_BST_PRE, R430
  ⟨2, [⟨0, 14, .rwd, 0, (.enable 3 0), [(0, 10000)]⟩]⟩,
  -- LNS_BST_CTL, R430
  ⟨3, [⟨0, 1, .rw, 0, .free, []⟩]⟩,
  -- LNS_BST_STATUS, R430
  ⟨4, [⟨0, 2, .ro, 0, .free, []⟩, ⟨2, 7, .ro, 0, .free, []⟩, ⟨16, 12, .ro, 0, .free, []⟩]⟩,
  -- LNS_BST_CNT, R430
  ⟨5, [⟨0, 16, .w1c, 0, .free, []⟩, ⟨16, 16, .w1c, 0, .free, []⟩]⟩,
  -- LNS_BST_LOST, R430
  ⟨6, [⟨0, 16, .w1c, 0, .free, []⟩]⟩]

def RegMap.tly : List RegSpec := [
  -- TLY_CFG, R456
  ⟨0, [⟨0, 1, .rw, 0, .free, []⟩, ⟨1, 2, .rwd, 0, (.enable 0 0), []⟩, ⟨3, 2, .rwd, 0, (.enable 0 0), []⟩, ⟨6, 6, .rwd, 0, (.enable 0 0), []⟩, ⟨12, 4, .rwd, 0, (.enable 0 0), []⟩, ⟨16, 3, .rw, 0, .free, []⟩, ⟨20, 4, .rwd, 0, (.enable 0 0), []⟩]⟩,
  -- TLY_N, R456
  ⟨1, [⟨0, 25, .rwd, 1000, (.enable 0 0), [(0, 16777216)]⟩]⟩,
  -- TLY_GATE, R456
  ⟨2, [⟨0, 24, .rwd, 1000, (.enable 0 0), [(0, 10000000)]⟩]⟩,
  -- TLY_PER, R456
  ⟨3, [⟨0, 30, .rwd, 1000000000, (.enable 0 0), []⟩]⟩,
  -- TLY_WCFG, R456
  ⟨4, [⟨0, 16, .rwd, 1000, (.enable 0 0), [(1, 65535)]⟩, ⟨16, 4, .rwd, 7, (.enable 0 0), []⟩]⟩,
  -- TLY_STATUS, R456
  ⟨5, [⟨0, 2, .ro, 0, .free, []⟩, ⟨2, 1, .ro, 0, .free, []⟩]⟩,
  -- TLY_CNT, R456
  ⟨6, [⟨0, 16, .w1c, 0, .free, []⟩, ⟨16, 16, .w1c, 0, .free, []⟩]⟩,
  -- TLY_SKIP, R456
  ⟨7, [⟨0, 32, .w1c, 0, .free, []⟩]⟩]

def RegMap.sen : List RegSpec := [
  -- TLY_SEN_CFG, R456
  ⟨512, [⟨0, 1, .rw, 0, .free, []⟩, ⟨1, 3, .rwd, 0, (.enable 512 0), []⟩, ⟨4, 1, .rwd, 0, (.enable 512 0), []⟩, ⟨5, 3, .rw, 0, .free, []⟩, ⟨8, 4, .rwd, 2, (.enable 512 0), [(2, 15)]⟩]⟩,
  -- TLY_SEN_GATE, R456
  ⟨513, [⟨0, 14, .rwd, 1000, (.enable 512 0), [(20, 10000)]⟩]⟩,
  -- TLY_SEN_DLY, R456
  ⟨514, [⟨0, 32, .rw, 0, .free, []⟩]⟩,
  -- TLY_SEN_LIM0, R456
  ⟨515, [⟨0, 14, .rw, 500, .free, [(1, 10000)]⟩, ⟨16, 14, .rw, 500, .free, [(1, 10000)]⟩]⟩,
  -- TLY_SEN_LIM1, R456
  ⟨516, [⟨0, 10, .rw, 50, .free, [(0, 1000)]⟩]⟩,
  -- TLY_SEN_STATUS, R456
  ⟨517, [⟨0, 5, .ro, 0, .free, []⟩, ⟨8, 8, .ro, 0, .free, []⟩]⟩,
  -- TLY_SEN_F, R456
  ⟨518, [⟨0, 32, .ro, 0, .free, []⟩]⟩,
  -- TLY_SEN_ROCOF, R456
  ⟨519, [⟨0, 32, .ro, 0, .free, []⟩]⟩,
  -- TLY_SEN_PHASE, R456
  ⟨520, [⟨0, 32, .ro, 0, .free, []⟩]⟩,
  -- TLY_SEN_CNT, R456
  ⟨521, [⟨0, 16, .w1c, 0, .free, []⟩, ⟨16, 16, .w1c, 0, .free, []⟩]⟩]

def RegMap.hrpPart0 : List RegSpec := [
  -- HRD_PORT_CFG, R488
  ⟨0, [⟨0, 1, .rw, 0, .free, []⟩, ⟨1, 3, .rwd, 0, (.enable 0 0), []⟩, ⟨4, 1, .rwd, 0, (.enable 0 0), []⟩, ⟨5, 1, .rwd, 0, (.enable 0 0), []⟩, ⟨6, 1, .rw, 0, .free, []⟩, ⟨7, 1, .rw, 0, .free, []⟩, ⟨8, 2, .rw, 0, .free, []⟩, ⟨10, 3, .rwd, 0, (.enable 0 0), []⟩, ⟨13, 1, .rwd, 0, (.enable 0 0), []⟩, ⟨14, 1, .rw, 1, .free, []⟩]⟩,
  -- HRD_VLAN, R488
  ⟨1, [⟨0, 12, .rw, 0, .free, []⟩, ⟨12, 3, .rw, 0, .free, []⟩]⟩,
  -- HRD_MAC_LO, R488
  ⟨2, [⟨0, 32, .rwd, 0, (.enable 0 0), []⟩]⟩,
  -- HRD_MAC_HI, R488
  ⟨3, [⟨0, 16, .rwd, 0, (.enable 0 0), []⟩]⟩,
  -- HRD_IP4, R488
  ⟨4, [⟨0, 32, .rwd, 0, (.enable 0 0), []⟩]⟩,
  -- HRD_IP6_0, R488
  ⟨5, [⟨0, 32, .rwd, 0, (.enable 0 0), []⟩]⟩,
  -- HRD_IP6_1, R488
  ⟨6, [⟨0, 32, .rwd, 0, (.enable 0 0), []⟩]⟩,
  -- HRD_IP6_2, R488
  ⟨7, [⟨0, 32, .rwd, 0, (.enable 0 0), []⟩]⟩,
  -- HRD_IP6_3, R488
  ⟨8, [⟨0, 32, .rwd, 0, (.enable 0 0), []⟩]⟩,
  -- HRD_LAT, R488
  ⟨9, [⟨0, 16, .rw, 0, .free, []⟩, ⟨16, 16, .rw, 0, .free, []⟩]⟩,
  -- HRD_PORT_STATUS, R488
  ⟨10, [⟨0, 1, .ro, 0, .free, []⟩, ⟨1, 1, .ro, 0, .free, []⟩, ⟨2, 1, .ro, 0, .free, []⟩, ⟨3, 2, .ro, 0, .free, []⟩, ⟨5, 1, .ro, 0, .free, []⟩]⟩,
  -- HRD_TX_SYNC, R515
  ⟨16, [⟨0, 32, .w1c, 0, .free, []⟩]⟩,
  -- HRD_TX_FUP, R515
  ⟨17, [⟨0, 32, .w1c, 0, .free, []⟩]⟩,
  -- HRD_TX_ANN, R515
  ⟨18, [⟨0, 32, .w1c, 0, .free, []⟩]⟩,
  -- HRD_TX_DRESP, R515
  ⟨19, [⟨0, 32, .w1c, 0, .free, []⟩]⟩,
  -- HRD_TX_DREQ, R515
  ⟨20, [⟨0, 32, .w1c, 0, .free, []⟩]⟩]

def RegMap.hrpPart1 : List RegSpec := [
  -- HRD_TX_PDLY, R515
  ⟨21, [⟨0, 32, .w1c, 0, .free, []⟩]⟩,
  -- HRD_TX_SIG, R515
  ⟨22, [⟨0, 32, .w1c, 0, .free, []⟩]⟩,
  -- HRD_RX_SYNC, R515
  ⟨24, [⟨0, 32, .w1c, 0, .free, []⟩]⟩,
  -- HRD_RX_FUP, R515
  ⟨25, [⟨0, 32, .w1c, 0, .free, []⟩]⟩,
  -- HRD_RX_ANN, R515
  ⟨26, [⟨0, 32, .w1c, 0, .free, []⟩]⟩,
  -- HRD_RX_DRESP, R515
  ⟨27, [⟨0, 32, .w1c, 0, .free, []⟩]⟩,
  -- HRD_RX_DREQ, R515
  ⟨28, [⟨0, 32, .w1c, 0, .free, []⟩]⟩,
  -- HRD_RX_PDLY, R515
  ⟨29, [⟨0, 32, .w1c, 0, .free, []⟩]⟩,
  -- HRD_RX_SIG, R515
  ⟨30, [⟨0, 32, .w1c, 0, .free, []⟩]⟩,
  -- HRD_SKIP_OVR, R515
  ⟨32, [⟨0, 32, .w1c, 0, .free, []⟩]⟩,
  -- HRD_SKIP_RATE, R515
  ⟨33, [⟨0, 32, .w1c, 0, .free, []⟩]⟩,
  -- HRD_SKIP_SLOW, R515
  ⟨34, [⟨0, 32, .w1c, 0, .free, []⟩]⟩,
  -- HRD_RX_DISC, R515
  ⟨35, [⟨0, 32, .w1c, 0, .free, []⟩]⟩,
  -- HRD_RX_NOSESS, R515
  ⟨36, [⟨0, 32, .w1c, 0, .free, []⟩]⟩,
  -- HRD_DEFER, R515
  ⟨37, [⟨0, 32, .w1c, 0, .free, []⟩]⟩,
  -- HRD_STEPDISC, R515
  ⟨38, [⟨0, 32, .w1c, 0, .free, []⟩]⟩]

def RegMap.hrpPart2 : List RegSpec := [
  -- HRD_PATHOUT, R515
  ⟨39, [⟨0, 32, .w1c, 0, .free, []⟩]⟩,
  -- HRD_RX_FILT, R515
  ⟨40, [⟨0, 32, .w1c, 0, .free, []⟩]⟩,
  -- HRD_ESMC_CFG, R488
  ⟨48, [⟨0, 1, .rw, 0, .free, []⟩, ⟨1, 1, .rw, 1, .free, []⟩, ⟨2, 2, .rw, 1, .free, [(0, 2)]⟩, ⟨4, 4, .rw, 8, .free, [(1, 8), (15, 15)]⟩, ⟨8, 4, .rw, 0, .free, []⟩, ⟨12, 4, .rw, 8, .free, [(1, 8), (15, 15)]⟩, ⟨16, 4, .rw, 5, .free, [(2, 15)]⟩]⟩,
  -- HRD_ESMC_STATUS, R488
  ⟨49, [⟨0, 4, .ro, 15, .free, []⟩, ⟨4, 4, .ro, 15, .free, []⟩, ⟨8, 8, .ro, 255, .free, []⟩, ⟨16, 4, .ro, 15, .free, []⟩, ⟨20, 1, .ro, 0, .free, []⟩]⟩,
  -- HRD_ESMC_CNT, R488
  ⟨50, [⟨0, 16, .w1c, 0, .free, []⟩, ⟨16, 16, .w1c, 0, .free, []⟩]⟩]

def RegMap.hrp : List RegSpec := RegMap.hrpPart0 ++ RegMap.hrpPart1 ++ RegMap.hrpPart2

def RegMap.hrcPart0 : List RegSpec := [
  -- HRD_MGMT, R489
  ⟨0, [⟨0, 10, .rw, 1000, .free, [(1, 1000)]⟩, ⟨16, 7, .rw, 64, .free, [(1, 64)]⟩]⟩,
  -- HRD_MGMT_DROP, R489
  ⟨1, [⟨0, 16, .w1c, 0, .free, []⟩, ⟨16, 16, .w1c, 0, .free, []⟩]⟩,
  -- HRD_SE_CFG, R516
  ⟨64, [⟨0, 1, .rw, 0, .free, []⟩, ⟨1, 1, .rw, 0, .free, []⟩, ⟨2, 10, .rw, 300, .free, [(10, 1000)]⟩, ⟨12, 10, .rw, 300, .free, [(10, 1000)]⟩]⟩,
  -- HRD_SE_BASE_LO, R516
  ⟨65, [⟨12, 20, .rwd, 0, (.enable 64 0), []⟩]⟩,
  -- HRD_SE_BASE_HI, R516
  ⟨66, [⟨0, 32, .rwd, 0, (.enable 64 0), []⟩]⟩,
  -- HRD_SE_SIZE, R516
  ⟨67, [⟨0, 5, .rwd, 0, (.enable 64 0), [(0, 0), (8, 18)]⟩]⟩,
  -- HRD_SE_STATUS, R516
  ⟨68, [⟨0, 19, .ro, 0, .free, []⟩]⟩,
  -- HRD_SE_LAST, R516
  ⟨69, [⟨0, 18, .ro, 0, .free, []⟩, ⟨18, 1, .ro, 0, .free, []⟩]⟩,
  -- HRD_SE_CACHE, R516
  ⟨70, [⟨0, 13, .ro, 0, .free, []⟩]⟩,
  -- HRD_SE_CNT, R516
  ⟨71, [⟨0, 16, .w1c, 0, .free, []⟩, ⟨16, 16, .w1c, 0, .free, []⟩]⟩,
  -- HRD_SE_PCAP0, R516
  ⟨72, [⟨0, 13, .rw, 6000, .free, [(1, 6000)]⟩]⟩,
  -- HRD_SE_PCAP1, R516
  ⟨73, [⟨0, 13, .rw, 6000, .free, [(1, 6000)]⟩]⟩,
  -- HRD_SE_PCAP2, R516
  ⟨74, [⟨0, 13, .rw, 6000, .free, [(1, 6000)]⟩]⟩,
  -- HRD_SE_PCAP3, R516
  ⟨75, [⟨0, 13, .rw, 6000, .free, [(1, 6000)]⟩]⟩,
  -- HRD_SE_PLOAD0, R516
  ⟨76, [⟨0, 23, .ro, 0, .free, []⟩]⟩,
  -- HRD_SE_PLOAD1, R516
  ⟨77, [⟨0, 23, .ro, 0, .free, []⟩]⟩]

def RegMap.hrcPart1 : List RegSpec := [
  -- HRD_SE_PLOAD2, R516
  ⟨78, [⟨0, 23, .ro, 0, .free, []⟩]⟩,
  -- HRD_SE_PLOAD3, R516
  ⟨79, [⟨0, 23, .ro, 0, .free, []⟩]⟩]

def RegMap.hrc : List RegSpec := RegMap.hrcPart0 ++ RegMap.hrcPart1

def RegMap.pii : List RegSpec := [
  -- HRD_PI_CFG, R489
  ⟨0, [⟨0, 1, .rw, 0, .free, []⟩, ⟨1, 3, .rwd, 0, (.enable 0 0), []⟩, ⟨4, 2, .rwd, 0, (.enable 0 0), []⟩, ⟨6, 1, .rwd, 0, (.enable 0 0), []⟩, ⟨7, 2, .rwd, 0, (.enable 0 0), []⟩, ⟨9, 4, .rwd, 0, (.enable 0 0), []⟩, ⟨13, 8, .rwd, 0, (.enable 0 0), []⟩, ⟨21, 1, .rwd, 0, (.enable 0 0), []⟩]⟩,
  -- HRD_PI_PRIO, R489
  ⟨1, [⟨0, 8, .rw, 128, .free, []⟩, ⟨8, 8, .rw, 128, .free, []⟩, ⟨16, 8, .rw, 128, .free, []⟩, ⟨24, 8, .rw, 160, .free, []⟩]⟩,
  -- HRD_PI_CLASS, R489
  ⟨2, [⟨0, 8, .rw, 6, .free, []⟩, ⟨8, 8, .rw, 7, .free, []⟩, ⟨16, 8, .rw, 52, .free, []⟩, ⟨24, 5, .rw, 10, .free, [(0, 30)]⟩]⟩,
  -- HRD_PI_IVL, R489
  ⟨3, [⟨0, 4, .rw, 0, .free, []⟩, ⟨4, 4, .rw, 1, .free, []⟩, ⟨8, 4, .rw, 0, .free, []⟩, ⟨12, 4, .rw, 3, .free, [(2, 15)]⟩, ⟨16, 4, .rw, 3, .free, [(2, 15)]⟩, ⟨20, 4, .rw, 3, .free, [(0, 8)]⟩]⟩,
  -- HRD_PI_ID_LO, R489
  ⟨4, [⟨0, 32, .rwd, 0, (.enable 0 0), []⟩]⟩,
  -- HRD_PI_ID_HI, R489
  ⟨5, [⟨0, 32, .rwd, 0, (.enable 0 0), []⟩]⟩,
  -- HRD_PI_STATUS, R489
  ⟨6, [⟨0, 16, .ro, 0, .free, []⟩, ⟨16, 1, .ro, 0, .free, []⟩, ⟨17, 1, .ro, 0, .free, []⟩, ⟨18, 2, .ro, 0, .free, []⟩]⟩,
  -- HRD_PI_PAR_LO, R489
  ⟨7, [⟨0, 32, .ro, 0, .free, []⟩]⟩,
  -- HRD_PI_PAR_HI, R489
  ⟨8, [⟨0, 32, .ro, 0, .free, []⟩]⟩,
  -- HRD_PI_PAR_INFO, R489
  ⟨9, [⟨0, 16, .ro, 0, .free, []⟩, ⟨16, 8, .ro, 0, .free, []⟩, ⟨24, 8, .ro, 0, .free, []⟩]⟩,
  -- HRD_PI_GM_LO, R489
  ⟨10, [⟨0, 32, .ro, 0, .free, []⟩]⟩,
  -- HRD_PI_GM_HI, R489
  ⟨11, [⟨0, 32, .ro, 0, .free, []⟩]⟩,
  -- HRD_PI_MPD, R489
  ⟨12, [⟨0, 32, .ro, 0, .free, []⟩]⟩,
  -- HRD_PI_OFM, R489
  ⟨13, [⟨0, 32, .ro, 0, .free, []⟩]⟩]

def RegMap.pij : List RegSpec := [
  -- HRD_PI_JUMP, R517
  ⟨0, [⟨0, 30, .rw, 1000, .free, [(10, 1000000000)]⟩]⟩,
  -- HRD_PI_PATH, R517
  ⟨1, [⟨0, 16, .rw, 50, .free, [(1, 65535)]⟩, ⟨16, 12, .rw, 60, .free, [(1, 3600)]⟩]⟩,
  -- HRD_PI_JSTAT, R517
  ⟨2, [⟨0, 1, .ro, 0, .free, []⟩, ⟨1, 1, .ro, 0, .free, []⟩, ⟨2, 1, .ro, 0, .free, []⟩, ⟨16, 12, .ro, 0, .free, []⟩]⟩,
  -- HRD_PI_PSLOT, R517
  ⟨3, [⟨0, 18, .ro, 0, .free, []⟩, ⟨18, 1, .ro, 0, .free, []⟩]⟩,
  -- HRD_PI_JC_LO, R517
  ⟨4, [⟨0, 32, .ro, 0, .free, []⟩]⟩,
  -- HRD_PI_JC_HI, R517
  ⟨5, [⟨0, 32, .ro, 0, .free, []⟩]⟩,
  -- HRD_PI_ACC_LO, R517
  ⟨6, [⟨0, 32, .ro, 0, .free, []⟩]⟩,
  -- HRD_PI_ACC_HI, R517
  ⟨7, [⟨0, 32, .ro, 0, .free, []⟩]⟩,
  -- HRD_PI_PCOR, R517
  ⟨8, [⟨0, 32, .ro, 0, .free, []⟩]⟩,
  -- HRD_PI_QOFF, R517
  ⟨9, [⟨0, 32, .ro, 0, .free, []⟩]⟩,
  -- HRD_PI_ASYM0, R517
  ⟨10, [⟨0, 32, .rw, 0, .free, []⟩]⟩,
  -- HRD_PI_ASYM1, R517
  ⟨11, [⟨0, 32, .rw, 0, .free, []⟩]⟩,
  -- HRD_PI_ASYM2, R517
  ⟨12, [⟨0, 32, .rw, 0, .free, []⟩]⟩,
  -- HRD_PI_ASYM3, R517
  ⟨13, [⟨0, 32, .rw, 0, .free, []⟩]⟩,
  -- HRD_PI_JCNT, R517
  ⟨14, [⟨0, 16, .w1c, 0, .free, []⟩, ⟨16, 16, .w1c, 0, .free, []⟩]⟩]

def RegMap.plk : List RegSpec := [
  -- PLK_PORT_CFG, R541
  ⟨0, [⟨0, 1, .rw, 0, .free, []⟩, ⟨1, 3, .rwd, 0, (.enable 0 0), []⟩, ⟨4, 8, .rw, 4, .free, [(1, 255)]⟩, ⟨12, 1, .rwd, 0, (.enable 0 0), []⟩]⟩,
  -- PLK_ORIG, R541
  ⟨1, [⟨0, 20, .rwd, 0, (.enable 0 0), []⟩]⟩,
  -- PLK_STATUS, R541
  ⟨2, [⟨0, 1, .ro, 0, .free, []⟩, ⟨1, 1, .ro, 0, .free, []⟩, ⟨2, 1, .ro, 0, .free, []⟩, ⟨3, 1, .ro, 0, .free, []⟩, ⟨4, 1, .ro, 0, .free, []⟩, ⟨5, 1, .ro, 0, .free, []⟩, ⟨6, 1, .ro, 0, .free, []⟩, ⟨8, 3, .ro, 0, .free, []⟩, ⟨12, 20, .ro, 0, .free, []⟩]⟩,
  -- PLK_ORIGIN, R541
  ⟨3, [⟨0, 20, .ro, 0, .free, []⟩, ⟨20, 8, .ro, 0, .free, []⟩]⟩,
  -- PLK_ACC_LO, R541
  ⟨4, [⟨0, 32, .ro, 0, .free, []⟩]⟩,
  -- PLK_ACC_HI, R541
  ⟨5, [⟨0, 16, .ro, 0, .free, []⟩]⟩,
  -- PLK_DELAY, R541
  ⟨6, [⟨0, 32, .ro, 0, .free, []⟩]⟩,
  -- PLK_ASYM, R541
  ⟨7, [⟨0, 32, .ro, 0, .free, []⟩]⟩,
  -- PLK_RES, R541
  ⟨8, [⟨0, 16, .ro, 0, .free, []⟩]⟩,
  -- PLK_CNT0, R541
  ⟨9, [⟨0, 16, .w1c, 0, .free, []⟩, ⟨16, 16, .w1c, 0, .free, []⟩]⟩,
  -- PLK_CNT1, R541
  ⟨10, [⟨0, 16, .w1c, 0, .free, []⟩, ⟨16, 16, .w1c, 0, .free, []⟩]⟩,
  -- PLK_CNT2, R541
  ⟨11, [⟨0, 16, .w1c, 0, .free, []⟩, ⟨16, 16, .w1c, 0, .free, []⟩]⟩,
  -- PLK_TUN_TX, R541
  ⟨12, [⟨0, 32, .wo, 0, .free, []⟩]⟩,
  -- PLK_TUN_TXCTL, R541
  ⟨13, [⟨0, 8, .rw, 0, .free, [(0, 240)]⟩, ⟨8, 1, .wo, 0, .free, []⟩, ⟨9, 1, .ro, 0, .free, []⟩]⟩,
  -- PLK_TUN_STATUS, R541
  ⟨14, [⟨0, 5, .ro, 0, .free, []⟩, ⟨16, 16, .w1c, 0, .free, []⟩]⟩,
  -- PLK_TUN_RX_POP, R541
  ⟨15, [⟨0, 32, .ro, 0, .free, []⟩]⟩]

def RegMap.mir : List RegSpec := [
  -- MIR_CFG, R572
  ⟨0, [⟨0, 1, .rwd, 0, .m6, []⟩, ⟨1, 4, .rwd, 7, .m6, [(7, 10)]⟩, ⟨5, 1, .rw, 1, .free, []⟩, ⟨6, 1, .rw, 0, .free, []⟩, ⟨7, 1, .rwd, 0, .m6, []⟩, ⟨8, 1, .rw, 0, .free, []⟩, ⟨16, 16, .rw, 32000, .free, [(1, 65535)]⟩]⟩,
  -- MIR_KEY, R572
  ⟨1, [⟨0, 1, .pfo, 0, .free, []⟩, ⟨1, 1, .ro, 0, .free, []⟩, ⟨2, 1, .ro, 0, .free, []⟩, ⟨3, 1, .ro, 0, .free, []⟩, ⟨4, 1, .ro, 0, .free, []⟩, ⟨5, 3, .ro, 0, .free, []⟩]⟩,
  -- MIR_STATUS, R572
  ⟨2, [⟨0, 1, .ro, 0, .free, []⟩, ⟨1, 1, .ro, 0, .free, []⟩, ⟨2, 1, .ro, 0, .free, []⟩, ⟨3, 1, .ro, 0, .free, []⟩, ⟨4, 1, .ro, 0, .free, []⟩, ⟨5, 1, .w1c, 0, .free, []⟩, ⟨6, 1, .ro, 0, .free, []⟩, ⟨7, 1, .ro, 0, .free, []⟩, ⟨8, 4, .ro, 0, .free, []⟩, ⟨12, 3, .ro, 0, .free, []⟩]⟩,
  -- MIR_EPOCH, R572
  ⟨3, [⟨0, 32, .ro, 0, .free, []⟩]⟩,
  -- MIR_HEPOCH, R572
  ⟨4, [⟨0, 16, .ro, 0, .free, []⟩, ⟨16, 5, .ro, 0, .free, []⟩]⟩,
  -- MIR_CNT0, R572
  ⟨5, [⟨0, 16, .w1c, 0, .free, []⟩, ⟨16, 16, .w1c, 0, .free, []⟩]⟩,
  -- MIR_CNT1, R572
  ⟨6, [⟨0, 16, .w1c, 0, .free, []⟩, ⟨16, 16, .w1c, 0, .free, []⟩]⟩,
  -- MIR_LAG, R572
  ⟨7, [⟨0, 8, .ro, 0, .free, []⟩]⟩,
  -- MIR_TAKE_TN_LO, R572
  ⟨8, [⟨0, 32, .ro, 0, .free, []⟩]⟩,
  -- MIR_TAKE_TN_HI, R572
  ⟨9, [⟨0, 32, .ro, 0, .free, []⟩]⟩]

def RegMap.grnPart0 : List RegSpec := [
  -- GRN_CFG, R599
  ⟨0, [⟨0, 1, .pfo, 0, .free, []⟩]⟩,
  -- GRN_STATUS, R599
  ⟨1, [⟨0, 1, .ro, 0, .free, []⟩, ⟨1, 10, .ro, 0, .free, []⟩, ⟨11, 1, .ro, 0, .free, []⟩, ⟨12, 1, .w1c, 0, .free, []⟩, ⟨13, 11, .ro, 0, .free, []⟩, ⟨24, 5, .ro, 0, .free, []⟩]⟩,
  -- GRN_ERR, R599
  ⟨2, [⟨0, 1, .w1c, 0, .free, []⟩, ⟨1, 1, .w1c, 0, .free, []⟩, ⟨2, 1, .w1c, 0, .free, []⟩, ⟨3, 1, .w1c, 0, .free, []⟩, ⟨4, 1, .w1c, 0, .free, []⟩, ⟨16, 10, .ro, 0, .free, []⟩]⟩,
  -- GRN_TIE, R599
  ⟨3, [⟨0, 1, .w1c, 0, .free, []⟩, ⟨1, 10, .ro, 0, .free, []⟩, ⟨16, 16, .ro, 0, .free, []⟩]⟩,
  -- GRN_PFCNT, R599
  ⟨4, [⟨0, 9, .ro, 0, .free, []⟩, ⟨16, 10, .ro, 0, .free, []⟩]⟩,
  -- GRN_UNLOCK_LO, R599
  ⟨5, [⟨0, 32, .pfo, 0, .free, []⟩]⟩,
  -- GRN_UNLOCK_HI, R599
  ⟨6, [⟨0, 32, .pfo, 0, .free, []⟩]⟩,
  -- GRN_UNLOCK_CTL, R599
  ⟨7, [⟨0, 2, .pfo, 0, .free, []⟩, ⟨2, 1, .pfo, 0, .free, []⟩, ⟨3, 2, .pfo, 0, .free, []⟩, ⟨5, 1, .pfo, 0, .free, []⟩]⟩,
  -- GRN_LOCKST, R599
  ⟨8, [⟨0, 4, .ro, 0, .free, []⟩, ⟨4, 4, .ro, 0, .free, []⟩, ⟨8, 4, .ro, 0, .free, []⟩, ⟨12, 4, .ro, 0, .free, []⟩, ⟨16, 5, .ro, 0, .free, []⟩, ⟨21, 1, .ro, 0, .free, []⟩]⟩,
  -- GRN_CALST, R599
  ⟨9, [⟨0, 6, .ro, 0, .free, []⟩]⟩,
  -- GRN_WC_INC, R599
  ⟨12, [⟨0, 4, .wo, 0, .free, []⟩]⟩,
  -- GRN_WC_SEL, R599
  ⟨13, [⟨0, 4, .rw, 0, .free, []⟩]⟩,
  -- GRN_WC_LO, R599
  ⟨14, [⟨0, 32, .ro, 0, .free, []⟩]⟩,
  -- GRN_WC_HI, R599
  ⟨15, [⟨0, 16, .ro, 0, .free, []⟩, ⟨16, 1, .ro, 0, .free, []⟩, ⟨17, 1, .ro, 0, .free, []⟩]⟩,
  -- GRN_PFMAP0, R599
  ⟨16, [⟨0, 32, .ro, 0, .free, []⟩]⟩,
  -- GRN_PFMAP1, R599
  ⟨17, [⟨0, 32, .ro, 0, .free, []⟩]⟩]

def RegMap.grnPart1 : List RegSpec := [
  -- GRN_PFMAP2, R599
  ⟨18, [⟨0, 32, .ro, 0, .free, []⟩]⟩,
  -- GRN_PFMAP3, R599
  ⟨19, [⟨0, 32, .ro, 0, .free, []⟩]⟩,
  -- GRN_PFMAP4, R599
  ⟨20, [⟨0, 32, .ro, 0, .free, []⟩]⟩,
  -- GRN_PFMAP5, R599
  ⟨21, [⟨0, 32, .ro, 0, .free, []⟩]⟩,
  -- GRN_PFMAP6, R599
  ⟨22, [⟨0, 32, .ro, 0, .free, []⟩]⟩,
  -- GRN_PFMAP7, R599
  ⟨23, [⟨0, 32, .ro, 0, .free, []⟩]⟩,
  -- GRN_PFMAP8, R599
  ⟨24, [⟨0, 32, .ro, 0, .free, []⟩]⟩,
  -- GRN_PFMAP9, R599
  ⟨25, [⟨0, 32, .ro, 0, .free, []⟩]⟩,
  -- GRN_PFMAP10, R599
  ⟨26, [⟨0, 32, .ro, 0, .free, []⟩]⟩,
  -- GRN_PFMAP11, R599
  ⟨27, [⟨0, 32, .ro, 0, .free, []⟩]⟩,
  -- GRN_PFMAP12, R599
  ⟨28, [⟨0, 32, .ro, 0, .free, []⟩]⟩,
  -- GRN_PFMAP13, R599
  ⟨29, [⟨0, 32, .ro, 0, .free, []⟩]⟩,
  -- GRN_PFMAP14, R599
  ⟨30, [⟨0, 32, .ro, 0, .free, []⟩]⟩,
  -- GRN_PFMAP15, R599
  ⟨31, [⟨0, 32, .ro, 0, .free, []⟩]⟩,
  -- GRN_PFMAP16, R599
  ⟨32, [⟨0, 32, .ro, 0, .free, []⟩]⟩,
  -- GRN_PFMAP17, R599
  ⟨33, [⟨0, 32, .ro, 0, .free, []⟩]⟩]

def RegMap.grnPart2 : List RegSpec := [
  -- GRN_PFMAP18, R599
  ⟨34, [⟨0, 32, .ro, 0, .free, []⟩]⟩,
  -- GRN_PFMAP19, R599
  ⟨35, [⟨0, 32, .ro, 0, .free, []⟩]⟩,
  -- GRN_PFMAP20, R599
  ⟨36, [⟨0, 32, .ro, 0, .free, []⟩]⟩,
  -- GRN_PFMAP21, R599
  ⟨37, [⟨0, 32, .ro, 0, .free, []⟩]⟩,
  -- GRN_PFMAP22, R599
  ⟨38, [⟨0, 32, .ro, 0, .free, []⟩]⟩,
  -- GRN_PFMAP23, R599
  ⟨39, [⟨0, 32, .ro, 0, .free, []⟩]⟩,
  -- GRN_PFMAP24, R599
  ⟨40, [⟨0, 32, .ro, 0, .free, []⟩]⟩,
  -- GRN_PFMAP25, R599
  ⟨41, [⟨0, 32, .ro, 0, .free, []⟩]⟩,
  -- GRN_PFMAP26, R599
  ⟨42, [⟨0, 32, .ro, 0, .free, []⟩]⟩,
  -- GRN_PFMAP27, R599
  ⟨43, [⟨0, 32, .ro, 0, .free, []⟩]⟩,
  -- GRN_PFMAP28, R599
  ⟨44, [⟨0, 32, .ro, 0, .free, []⟩]⟩,
  -- GRN_PFMAP29, R599
  ⟨45, [⟨0, 32, .ro, 0, .free, []⟩]⟩,
  -- GRN_PFMAP30, R599
  ⟨46, [⟨0, 32, .ro, 0, .free, []⟩]⟩,
  -- GRN_PFMAP31, R599
  ⟨47, [⟨0, 32, .ro, 0, .free, []⟩]⟩]

def RegMap.grn : List RegSpec := RegMap.grnPart0 ++ RegMap.grnPart1 ++ RegMap.grnPart2

def RegMap.wchPart0 : List RegSpec := [
  -- WCH_CFG, R617
  ⟨0, [⟨0, 5, .pfo, 4, .free, []⟩]⟩,
  -- WCH_STATUS, R617
  ⟨1, [⟨0, 1, .ro, 0, .free, []⟩, ⟨1, 7, .ro, 0, .free, []⟩, ⟨8, 2, .ro, 0, .free, []⟩, ⟨10, 1, .ro, 0, .free, []⟩, ⟨11, 1, .ro, 0, .free, []⟩, ⟨12, 1, .ro, 0, .free, []⟩, ⟨13, 7, .ro, 0, .free, []⟩]⟩,
  -- WCH_FIRST, R617
  ⟨2, [⟨0, 7, .ro, 0, .free, []⟩, ⟨8, 2, .ro, 0, .free, []⟩, ⟨10, 1, .ro, 0, .free, []⟩, ⟨15, 1, .w1c, 0, .free, []⟩]⟩,
  -- WCH_FIRST_TN_LO, R617
  ⟨3, [⟨0, 32, .ro, 0, .free, []⟩]⟩,
  -- WCH_FIRST_TN_HI, R617
  ⟨4, [⟨0, 32, .ro, 0, .free, []⟩]⟩,
  -- WCH_LAT0, R617
  ⟨5, [⟨0, 32, .w1c, 0, .free, []⟩]⟩,
  -- WCH_LAT1, R617
  ⟨6, [⟨0, 32, .w1c, 0, .free, []⟩]⟩,
  -- WCH_LAT2, R617
  ⟨7, [⟨0, 32, .w1c, 0, .free, []⟩]⟩,
  -- WCH_CONS0, R617
  ⟨8, [⟨0, 32, .w1c, 0, .free, []⟩]⟩,
  -- WCH_CONS1, R617
  ⟨9, [⟨0, 32, .w1c, 0, .free, []⟩]⟩,
  -- WCH_CONS2, R617
  ⟨10, [⟨0, 32, .w1c, 0, .free, []⟩]⟩,
  -- WCH_PEND0, R617
  ⟨11, [⟨0, 32, .ro, 0, .free, []⟩]⟩,
  -- WCH_PEND1, R617
  ⟨12, [⟨0, 32, .ro, 0, .free, []⟩]⟩,
  -- WCH_PEND2, R617
  ⟨13, [⟨0, 32, .ro, 0, .free, []⟩]⟩,
  -- WCH_CNT_SEL, R617
  ⟨14, [⟨0, 7, .rw, 0, .free, [(0, 95)]⟩]⟩,
  -- WCH_CNT, R617
  ⟨15, [⟨0, 16, .ro, 0, .free, []⟩, ⟨16, 16, .ro, 0, .free, []⟩]⟩]

def RegMap.wchPart1 : List RegSpec := [
  -- WCH_SEV0, R617
  ⟨16, [⟨0, 2, .pfo, 3, .free, []⟩, ⟨2, 2, .pfo, 2, .free, []⟩, ⟨4, 2, .pfo, 2, .free, []⟩, ⟨6, 2, .pfo, 0, .free, []⟩, ⟨8, 2, .pfo, 2, .free, []⟩, ⟨10, 2, .pfo, 1, .free, []⟩, ⟨12, 2, .pfo, 0, .free, []⟩, ⟨14, 2, .pfo, 0, .free, []⟩, ⟨16, 2, .pfo, 0, .free, []⟩, ⟨18, 2, .pfo, 0, .free, []⟩, ⟨20, 2, .pfo, 1, .free, []⟩, ⟨22, 2, .pfo, 1, .free, []⟩, ⟨24, 2, .pfo, 0, .free, []⟩, ⟨26, 2, .pfo, 1, .free, []⟩, ⟨28, 2, .pfo, 1, .free, []⟩, ⟨30, 2, .pfo, 0, .free, []⟩]⟩,
  -- WCH_SEV1, R617
  ⟨17, [⟨0, 2, .pfo, 1, .free, []⟩, ⟨2, 2, .pfo, 3, .free, []⟩, ⟨4, 2, .pfo, 1, .free, []⟩, ⟨6, 2, .pfo, 0, .free, []⟩, ⟨8, 2, .pfo, 0, .free, []⟩, ⟨10, 2, .pfo, 0, .free, []⟩, ⟨12, 2, .pfo, 0, .free, []⟩, ⟨14, 2, .pfo, 0, .free, []⟩, ⟨16, 2, .pfo, 1, .free, []⟩, ⟨18, 2, .pfo, 1, .free, []⟩, ⟨20, 2, .pfo, 1, .free, []⟩, ⟨22, 2, .pfo, 1, .free, []⟩, ⟨24, 2, .pfo, 1, .free, []⟩, ⟨26, 2, .pfo, 1, .free, []⟩, ⟨28, 2, .pfo, 1, .free, []⟩, ⟨30, 2, .pfo, 1, .free, []⟩]⟩,
  -- WCH_SEV2, R617
  ⟨18, [⟨0, 2, .pfo, 1, .free, []⟩, ⟨2, 2, .pfo, 1, .free, []⟩, ⟨4, 2, .pfo, 1, .free, []⟩, ⟨6, 2, .pfo, 1, .free, []⟩, ⟨8, 2, .pfo, 1, .free, []⟩, ⟨10, 2, .pfo, 1, .free, []⟩, ⟨12, 2, .pfo, 0, .free, []⟩, ⟨14, 2, .pfo, 0, .free, []⟩, ⟨16, 2, .pfo, 1, .free, []⟩, ⟨18, 2, .pfo, 1, .free, []⟩, ⟨20, 2, .pfo, 0, .free, []⟩, ⟨22, 2, .pfo, 0, .free, []⟩, ⟨24, 2, .pfo, 1, .free, []⟩, ⟨26, 2, .pfo, 1, .free, []⟩, ⟨28, 2, .pfo, 1, .free, []⟩, ⟨30, 2, .pfo, 1, .free, []⟩]⟩,
  -- WCH_SEV3, R617
  ⟨19, [⟨0, 2, .pfo, 0, .free, []⟩, ⟨2, 2, .pfo, 0, .free, []⟩, ⟨4, 2, .pfo, 0, .free, []⟩, ⟨6, 2, .pfo, 0, .free, []⟩, ⟨8, 2, .pfo, 0, .free, []⟩, ⟨10, 2, .pfo, 0, .free, []⟩, ⟨12, 2, .pfo, 0, .free, []⟩, ⟨14, 2, .pfo, 0, .free, []⟩, ⟨16, 2, .pfo, 0, .free, []⟩, ⟨18, 2, .pfo, 0, .free, []⟩, ⟨20, 2, .pfo, 0, .free, []⟩, ⟨22, 2, .pfo, 0, .free, []⟩, ⟨24, 2, .pfo, 0, .free, []⟩, ⟨26, 2, .pfo, 0, .free, []⟩, ⟨28, 2, .pfo, 0, .free, []⟩, ⟨30, 2, .pfo, 0, .free, []⟩]⟩,
  -- WCH_SEV4, R617
  ⟨20, [⟨0, 2, .pfo, 0, .free, []⟩, ⟨2, 2, .pfo, 0, .free, []⟩, ⟨4, 2, .pfo, 0, .free, []⟩, ⟨6, 2, .pfo, 0, .free, []⟩, ⟨8, 2, .pfo, 0, .free, []⟩, ⟨10, 2, .pfo, 0, .free, []⟩, ⟨12, 2, .pfo, 0, .free, []⟩, ⟨14, 2, .pfo, 0, .free, []⟩, ⟨16, 2, .pfo, 0, .free, []⟩, ⟨18, 2, .pfo, 0, .free, []⟩, ⟨20, 2, .pfo, 0, .free, []⟩, ⟨22, 2, .pfo, 0, .free, []⟩, ⟨24, 2, .pfo, 0, .free, []⟩, ⟨26, 2, .pfo, 0, .free, []⟩, ⟨28, 2, .pfo, 0, .free, []⟩, ⟨30, 2, .pfo, 0, .free, []⟩]⟩,
  -- WCH_SEV5, R617
  ⟨21, [⟨0, 2, .pfo, 0, .free, []⟩, ⟨2, 2, .pfo, 0, .free, []⟩, ⟨4, 2, .pfo, 0, .free, []⟩, ⟨6, 2, .pfo, 0, .free, []⟩, ⟨8, 2, .pfo, 0, .free, []⟩, ⟨10, 2, .pfo, 0, .free, []⟩, ⟨12, 2, .pfo, 0, .free, []⟩, ⟨14, 2, .pfo, 0, .free, []⟩, ⟨16, 2, .pfo, 0, .free, []⟩, ⟨18, 2, .pfo, 0, .free, []⟩, ⟨20, 2, .pfo, 0, .free, []⟩, ⟨22, 2, .pfo, 0, .free, []⟩, ⟨24, 2, .pfo, 0, .free, []⟩, ⟨26, 2, .pfo, 0, .free, []⟩, ⟨28, 2, .pfo, 0, .free, []⟩, ⟨30, 2, .pfo, 0, .free, []⟩]⟩]

def RegMap.wch : List RegSpec := RegMap.wchPart0 ++ RegMap.wchPart1

def RegMap.pwr : List RegSpec := [
  -- PWR_STATUS, R638
  ⟨0, [⟨0, 4, .ro, 3, .free, []⟩, ⟨4, 4, .ro, 0, .free, []⟩, ⟨8, 1, .ro, 0, .free, []⟩, ⟨9, 1, .ro, 0, .free, []⟩, ⟨10, 1, .ro, 0, .free, []⟩, ⟨11, 1, .ro, 0, .free, []⟩, ⟨12, 1, .ro, 0, .free, []⟩]⟩,
  -- PWR_MODE_CTL, R638
  ⟨1, [⟨0, 4, .pfo, 0, .free, []⟩, ⟨4, 1, .pfo, 0, .free, []⟩]⟩,
  -- PWR_AUTO, R638
  ⟨2, [⟨0, 4, .pfo, 6, .free, [(6, 10), (12, 12)]⟩]⟩,
  -- PWR_BOOT, R638
  ⟨3, [⟨0, 2, .ro, 0, .free, []⟩, ⟨2, 2, .ro, 0, .free, []⟩, ⟨4, 3, .ro, 0, .free, []⟩, ⟨7, 1, .pfo, 0, .free, []⟩, ⟨16, 16, .ro, 0, .free, []⟩]⟩,
  -- PWR_RAIL, R638; OK follows the supplies: core, IO and LOOM rails up, VBAK absent (DESIGN CHOICE, log entry 20)
  ⟨4, [⟨0, 15, .ro, 32703, .free, []⟩, ⟨16, 15, .w1c, 0, .free, []⟩]⟩,
  -- PWR_HOLD, R638
  ⟨5, [⟨0, 11, .pfo, 1000, .free, [(400, 2000)]⟩, ⟨11, 1, .pfo, 0, .free, []⟩]⟩,
  -- PWR_PFW_NS, R638
  ⟨6, [⟨0, 30, .ro, 0, .free, []⟩]⟩,
  -- PWR_PFW_S, R638
  ⟨7, [⟨0, 32, .ro, 0, .free, []⟩]⟩,
  -- PWR_CNT, R638
  ⟨8, [⟨0, 16, .w1c, 0, .free, []⟩, ⟨16, 16, .w1c, 0, .free, []⟩]⟩,
  -- PWR_TEMP, R638
  ⟨9, [⟨0, 16, .ro, 0, .free, []⟩, ⟨16, 16, .w1c, 0, .free, []⟩]⟩,
  -- PWR_RESET, R638
  ⟨10, [⟨0, 1, .pfo, 0, .free, []⟩]⟩]

def RegMap.rve : List RegSpec := [
  -- RVE_STATUS, R670
  ⟨0, [⟨0, 2, .ro, 0, .free, []⟩, ⟨2, 1, .ro, 0, .free, []⟩]⟩,
  -- RVE_FWCRC, R670
  ⟨1, [⟨0, 32, .ro, 0, .free, []⟩]⟩,
  -- RVE_BEAT, R670
  ⟨2, [⟨0, 32, .ro, 0, .free, []⟩]⟩,
  -- RVE_STAGE, R670
  ⟨3, [⟨0, 13, .ro, 0, .free, []⟩, ⟨16, 13, .w1c, 0, .free, []⟩]⟩,
  -- RVE_CMDCNT, R670
  ⟨4, [⟨0, 16, .w1c, 0, .free, []⟩, ⟨16, 16, .w1c, 0, .free, []⟩]⟩,
  -- RVE_RESTART, R670
  ⟨5, [⟨0, 8, .w1c, 0, .free, []⟩, ⟨8, 7, .ro, 0, .free, []⟩]⟩,
  -- RVE_SPI_CTL, R670
  ⟨8, [⟨0, 1, .pfo, 0, .free, []⟩, ⟨1, 1, .pfo, 0, .free, []⟩, ⟨2, 1, .ro, 0, .free, []⟩, ⟨4, 9, .ro, 256, .free, []⟩, ⟨16, 16, .w1c, 0, .free, []⟩]⟩,
  -- RVE_SPI_TX, R670
  ⟨9, [⟨0, 8, .pfo, 0, .free, []⟩]⟩,
  -- RVE_SPI_RX_POP, R670
  ⟨10, [⟨0, 8, .pfo, 0, .free, []⟩, ⟨8, 1, .pfo, 0, .free, []⟩, ⟨16, 8, .pfo, 0, .free, []⟩]⟩]

/-- The windows of R663. -/
def RegMap.windows : List WinSpec := [
  ⟨0, 1, 10, [⟨0, 1, 1, RegMap.glb⟩, ⟨256, 8, 17, RegMap.ring⟩, ⟨512, 8, 24, RegMap.dring⟩, ⟨768, 1, 32, RegMap.evr⟩, ⟨832, 8, 8, RegMap.ens⟩, ⟨896, 2, 64, RegMap.em⟩]⟩,
  ⟨1, 1, 4, [⟨0, 1, 1, RegMap.rve⟩]⟩,
  ⟨2, 1, 5, [⟨0, 1, 1, RegMap.wch⟩]⟩,
  ⟨3, 1, 6, [⟨0, 1, 1, RegMap.grn⟩]⟩,
  ⟨4, 1, 4, [⟨0, 1, 1, RegMap.ltc⟩]⟩,
  ⟨5, 1, 8, [⟨0, 1, 1, RegMap.glb1⟩, ⟨64, 4, 16, RegMap.swo⟩]⟩,
  ⟨8, 1, 10, [⟨0, 1, 1, RegMap.prs⟩, ⟨512, 8, 32, RegMap.prl⟩, ⟨768, 8, 32, RegMap.prh⟩]⟩,
  ⟨9, 1, 8, [⟨0, 16, 16, RegMap.prc⟩]⟩,
  ⟨12, 16, 5, [⟨0, 1, 1, RegMap.mil⟩]⟩,
  ⟨28, 8, 4, [⟨0, 1, 1, RegMap.lom⟩]⟩,
  ⟨36, 6, 6, [⟨0, 1, 1, RegMap.bank⟩, ⟨0, 4, 8, RegMap.out⟩]⟩,
  ⟨44, 1, 7, [⟨0, 1, 1, RegMap.lns⟩, ⟨0, 4, 8, RegMap.lni⟩]⟩,
  ⟨45, 1, 5, [⟨0, 16, 2, RegMap.bst⟩]⟩,
  ⟨48, 1, 10, [⟨0, 8, 64, RegMap.tly⟩, ⟨0, 1, 1, RegMap.sen⟩]⟩,
  ⟨52, 4, 6, [⟨0, 1, 1, RegMap.hrp⟩]⟩,
  ⟨56, 1, 9, [⟨0, 1, 1, RegMap.hrc⟩, ⟨128, 16, 8, RegMap.pij⟩, ⟨384, 16, 8, RegMap.pii⟩]⟩,
  ⟨60, 4, 4, [⟨0, 1, 1, RegMap.plk⟩]⟩,
  ⟨64, 1, 4, [⟨0, 1, 1, RegMap.mir⟩]⟩,
  ⟨68, 1, 4, [⟨0, 1, 1, RegMap.pwr⟩]⟩,
  ⟨72, 1, 3, [⟨0, 1, 1, RegMap.tcd⟩]⟩]

end Sys2Proof.Machine
end

