-- ==== Sys2Proof/Machine/State.lean ====
section
/-! DEFINITION. The state of the part as plain data: the register file (every field software can see has its one home
there), and per block the state that no register shows. Each structure's default values are the values after reset. -/

namespace Sys2Proof.Machine

/-- Why the machine stops. -/
inductive Fault
  /-- Raised by `GRANARY_WRITE` and `GRANARY_READ` at a byte outside the 512 KiB of BAR4 (R576): the address does not
  exist. Safe: the machine stops where the hardware's answer is not given. -/
  | outsideBar4 (addr : Nat)
deriving DecidableEq, Repr

/-- What the model declines. -/
inductive Refusal
  /-- Raised by an arm of `exec` whose command has no meaning yet. Safe: nothing runs. -/
  | notModelled (mnemonic : String)
deriving DecidableEq, Repr

/-- A validated descriptor waiting for its apply tick (R47–R52). -/
structure Staged where
  d : Desc
  /-- First feasible tick (R47, R51). -/
  ready : Nat
  /-- Order of staging, which is ring order within a ring (R54). -/
  seq : Nat
deriving DecidableEq, Repr

/-- The local time counter (R67): TAI seconds, nanoseconds and 2⁻³² ns, standing at the start of the current tick. -/
structure Ltc where
  sec : Nat := 0
  ns : Nat := 0
  frac : Nat := 0
  /-- The committed fractional increment offset in use (R69, R70). -/
  inc : Rat := 0
  /-- LTC less nominal oscillator time, seconds. -/
  ph : Rat := 0
  /-- The pending register step (R76): seconds and nanoseconds. -/
  step : Option (Nat × Nat) := none
  /-- Step commands that came due at a boundary a step had used, and remain due (R75). -/
  due : List Staged := []
  /-- Sum of the steps applied, 2⁻³² ns (R412). -/
  stepped : Nat := 0
  /-- The counter as it stood at the end of the last tick, 2⁻³² ns (R94). -/
  atEnd : Nat := 0
  /-- The counter as the last steps left it, 2⁻³² ns, newest first (R505). -/
  steps : List Nat := []
  /-- TN of the tick that ended last: a step moves TN on from it (R34). -/
  ended : Nat := 0
  /-- The boundary that began the tick has taken its leap (R83). -/
  leapSeen : Bool := false
  /-- `LTC_UTCOFF` as consumers of UTC read it since the last boundary (R86). -/
  utc : Nat := 0
  /-- An LTC step carried the counter over the second of an announced leap: apply it at the next boundary (R85). -/
  leapJump : Option Bool := none
  /-- A step landed inside a second: its leap instant is taken at the landing (R83). -/
  landed : Bool := false
  /-- UTC fields that references carried in this tick, by index (R81, R84). -/
  utcIn : List (Nat × UtcIn) := []
  /-- The QUAL state an ACQUIRE of the time channel keeps (R92). -/
  acqHold : Bool := false
  /-- The estimate firmware holds while the time channel is locked, ns, and the reference whose stated accuracy it is
  (R92, log entry 16); none while the error is unknown. -/
  acc : Option Nat := none
  accRef : Option Nat := none
deriving DecidableEq, Repr

/-- Where a ring stands: LOG2SIZE, base, write-back address, owner (R104). -/
structure RingUse where
  log : Nat
  base : Nat
  wb : Nat
  owner : Nat
deriving DecidableEq, Repr

/-- What a ring holds beside its register block (R102–R117). -/
structure RingSt where
  /-- Host index last accepted: producer of a host-filled ring, consumer of a part-filled one. -/
  host : Nat := 0
  /-- Doorbells not yet consumed: producer index and doorbell tick (R116), oldest first. -/
  bells : List (Nat × Nat) := []
  /-- Held after a FENCE descriptor until its completion (R117). -/
  fence : Option Nat := none
  /-- Tick count from which fetching resumes after a FENCE descriptor's completion (R117). -/
  resume : Nat := 0
  /-- Slots reserved for completions of staged commands (R110). -/
  reserved : Nat := 0
  /-- Entries dropped since the last EV123 entry (R111). -/
  dropped : Nat := 0
  /-- The threshold condition has signalled and not fallen since (R135). -/
  above : Bool := false
  /-- Entries were written in this tick (R109). -/
  wrote : Bool := false
  /-- Times in this tick that unconsumed entries rose to THRESH (R135). -/
  rose : Nat := 0
  /-- The next descriptor, read and found beyond the horizon (R53): it is not read again (R115). -/
  far : Option Desc := none
  /-- Disabled in this tick: what the part goes on using until the next boundary (R107). -/
  closing : Option RingUse := none
deriving DecidableEq, Repr

/-- Occurrences of one event source and instance in the current tick (R132). -/
structure EvOcc where
  ev : Nat
  inst : Nat
  data : Nat
  count : Nat
  tn : Nat
deriving DecidableEq, Repr

/-- One level of a deficit round robin (R138): the contender whose turn it is, and the deficits. -/
structure Drr where
  cur : Nat := 0
  deficit : List (Nat × Nat) := []
deriving DecidableEq, Repr

/-- The upstream arbiter (R138): functions; classes by function; rings by function × 8 + class; the capture lane. -/
structure ArbSt where
  fn : Drr := {}
  cls : List (Nat × Drr) := []
  ring : List (Nat × Drr) := []
  lane : Drr := {}
  /-- The last transactions sent, newest first: bytes, and whether through the capture lane. -/
  sent : List (Nat × Bool) := []
  /-- The last choice: lane, function, class, ring. -/
  last : Option (Bool × Nat × Nat × Nat) := none
  /-- `GLB_ARB_CTL` and `GLB_ARB_W0`–`3` in force since the last boundary (R141). -/
  ctl : Nat := 0x3C00
  w : List Nat := [0x10101010, 0x10101010, 0x10101010, 0x10101010]
deriving DecidableEq, Repr

/-- The host side: rings, staged commands, events, vectors, functions. -/
structure HostSt where
  rings : List (Nat × RingSt) := []
  staged : List Staged := []
  seq : Nat := 0
  events : List EvOcc := []
  /-- By function, how many of these its event ring has lost (R107). -/
  evLost : List (Nat × Nat) := []
  /-- Vectors due: function, vector (R135). -/
  vecs : List (Nat × Nat) := []
  /-- Last signal of a vector: function, vector, tick count (R136). -/
  sigs : List (Nat × Nat × Nat) := []
  /-- MSI-X table dwords, by function × 256 + dword index; unlisted reads as after a PCIe reset. -/
  msix : List (Nat × Word) := []
  /-- Pending-bit array: function, vector. -/
  pba : List (Nat × Nat) := []
  /-- Enabled VFs, 0–15 (R98). -/
  nvf : Nat := 0
  /-- Descriptors fetched in this tick (R51). -/
  fetched : Nat := 0
  /-- Functions whose level reset waits for the boundary (R99). -/
  flr : List Nat := []
  /-- Reeve overran in the tick that ends at the next boundary, with this many steps of its work done (R42, R65). -/
  overrun : Option Nat := none
  /-- Transactions the part has to send upstream, by function, class and ring (R137). -/
  up : List Backlog := []
  /-- Tick count of the entry boundary of M13; ring traffic ends at the boundary after it (R112). -/
  haltAt : Option Nat := none
  arb : ArbSt := {}
deriving DecidableEq, Repr

/-- The current reaction of Watchman (R607), beside its source and severity in `WCH_STATUS`: detection tick and the
boundary at which it may end. -/
structure React where
  tick : Nat
  ends : Nat
deriving DecidableEq, Repr

/-- An isolation action under way (R608): source, detection tick, boundary it begins at, boundary it completes at. -/
structure Isol where
  src : Nat
  tick : Nat
  start : Nat
  done : Nat
  began : Bool := false
deriving DecidableEq, Repr

/-- Watchman beside its registers. -/
structure WatchSt where
  /-- Occurrence counts and consequential counts by source. -/
  cnt : List (Nat × Nat) := []
  ccnt : List (Nat × Nat) := []
  /-- Effective severity at recording of each latched source. -/
  sev : List (Nat × Nat) := []
  cur : Option React := none
  /-- Detection ticks of queued reactions. -/
  qtick : List (Nat × Nat) := []
  isol : List Isol := []
  /-- Suppression: source, dependant, tick count of the boundary at which it ends (none while the reaction runs). -/
  supp : List (Nat × Nat × Option Nat) := []
  /-- Held sources whose condition persists. -/
  held : List Nat := []
  /-- Configuration registers with bad parity, by number 0–6 (R614). -/
  badPar : List Nat := []
  /-- A SAFE reaction waits for its boundary, by tick count. -/
  safeAt : Option Nat := none
  /-- Reeve is held for restart until this boundary (R608). -/
  reeveHold : Option Nat := none
  /-- Channels that overran, with the tick (R608 channel reset). -/
  ovrChan : List (Nat × Nat) := []
  /-- Tally cores that overran in the last detection tick. -/
  ovrCore : List Nat := []
  /-- Ticks in a row without the firmware signal (WF01). -/
  missed : Nat := 0
  /-- Tick count for which the watchdog has given its occurrence. -/
  barked : Option Nat := none
deriving DecidableEq, Repr

/-- A pending monitor failure (R184): monitor number, due tick, tick it was raised in, results since, failed again. -/
structure Pend where
  mon : Nat
  due : Nat
  raised : Nat
  results : Nat := 0
  again : Bool := false
deriving DecidableEq, Repr

/-- One reference index. Phases are in 2 ps units, times in 2 ps units of the measurement timebase. -/
structure RefSt where
  /-- Settings in force since the last boundary (R182, R186, R189). -/
  en : Bool := false
  mon : Nat := 0xA620E
  lim0 : Nat := 0x640078
  lim1 : Nat := 0xA0064
  pw : Nat := 0xC3500001
  /-- Input edges counted towards the next divided edge, and the divided edges of the last judged tick (R172). -/
  divc : Nat := 0
  es : List EdgeIn := []
  /-- Ticks of the frequency gate that held edges: tick, first, last, count (R177). -/
  gate : List (Nat × Int × Int × Nat) := []
  /-- Predicted time of the next edge (R178). -/
  pred : Option Int := none
  /-- Leading edge waiting for its trailing edge (R177). -/
  lead : Option Int := none
  /-- Results formed in this tick: monitor, failed. -/
  res : List (Nat × Bool) := []
  /-- Sample a virtual reference's unit supplied in this tick. -/
  vs : Option Rat := none
  /-- Sample of the last judged tick (R175). -/
  samp : Option Rat := none
  /-- Last accepted sample: time, phase (R180). -/
  last : Option (Int × Rat) := none
  /-- Accepted samples of the fit and the tracked frequency (R680). -/
  fit : List (Nat × Int × Rat) := []
  freq : Rat := 0
  /-- Verdict of the machine, 0 GOOD 1 SUSPECT 2 BAD. -/
  v : Nat := 2
  /-- Tick that opened the pending window, and the pending monitors. -/
  win : Option Nat := none
  pend : List Pend := []
  cause : Nat := 0
  /-- Start of the soak, as a count of ticks that occurred (R188). -/
  soak : Option Nat := none
  /-- Forced verdict (R190). -/
  forced : Option Nat := none
  /-- The tick last judged. -/
  judged : Option Nat := none
deriving DecidableEq, Repr

/-- Pre-lock offset of an index against a channel (R205): offset in 2⁻¹⁶ of 2 ps, samples taken, tracked frequency. -/
structure PreLock where
  chan : Nat
  idx : Nat
  off : Int := 0
  n : Nat := 0
  /-- It has become valid since it was discarded last (R206). -/
  valid : Bool := false
  fit : List (Nat × Int × Rat) := []
  freq : Rat := 0
  last : Option (Int × Rat) := none
deriving DecidableEq, Repr

/-- The time-of-day decoder of index 48 (R192–R196). -/
structure TcSt where
  /-- LTC second of the last on-time edge and where in it, 2 ps units, with the OFFSET and LEAP_INS of its tick. -/
  edge : Option (Nat × Nat × Int × Bool) := none
  /-- Previous assigned TAI second and the on-time edges since. -/
  prev : Option (Int × Nat) := none
  /-- Sentences that name the next edge (ALIGN = 1), newest first: UTC second count, whether it says 23:59:60, and the LTC
  time of its end, ns. -/
  next : List (Int × Bool × Nat) := []
  /-- The last edge has its result already. -/
  done : Bool := true
  /-- On-time edges of the running tick taken before its end. -/
  taken : Nat := 0
  /-- LEAP61 and LEAP59 as the last IRIG-B frame carries them for FOLLOW (R195). -/
  carries : Option (Bool × Bool) := none
  /-- Daylight saving in effect, from the last IRIG-B frame that carries control functions (R194). -/
  dst : Bool := false
deriving DecidableEq, Repr

/-- Prism beside its registers. -/
structure PrismSt where
  /-- Timebase time of the last boundary, 2 ps units. -/
  now : Int := 0
  /-- Boundaries since reset: the count of ticks that occurred. -/
  tick : Nat := 0
  refs : List RefSt := List.replicate 64 {}
  /-- Latched O_c by channel, 2 ps units (R207). -/
  oc : List Rat := List.replicate 16 0
  /-- Whether the offset latched at the last move was valid (R207). -/
  ocV : List Bool := List.replicate 16 false
  pl : List PreLock := []
  /-- Channels whose `PRS_PL_IDX` was written (R208). -/
  plReq : List Nat := []
  /-- Channels with a selection move at the last boundary. -/
  moved : List Nat := []
  /-- By channel, what this boundary's selection started from: the reference in use, its O_c and whether that was valid (R45). -/
  was : List (Option Nat × Rat × Bool) := []
  tc : TcSt := {}
  /-- PTP instances whose parent session became PATH_SUSPECT in this tick (R233). -/
  psus : List Nat := []
  /-- What Prism did with a path fault, for Herald (R508): instance and 0 window opened, 1 no ensemble qualifies, 2 too
  few samples, 3 correction applied, 4 member condemned. -/
  asymOut : List (Nat × Nat) := []
  /-- Log Sync interval of the last parent of each PTP instance since it was enabled (R248). -/
  piLog : List (Option Int) := List.replicate 8 none
  /-- Indices judged against gates in this tick, and those that failed one (R228). -/
  gjud : List Nat := []
  gfail : List Nat := []
  /-- Member slots that changed state at the last boundary: ensemble, slot (R220: one change a tick). -/
  chg : List (Nat × Nat) := []
deriving DecidableEq, Repr

/-- One member slot (R213–R222). Residuals in 2⁻¹⁶ of 2 ps. -/
structure Slot where
  /-- Learned offset and mean square residual (σ²). -/
  d : Rat := 0
  ms : Rat := 0
  learned : Bool := false
  /-- Residuals collected in LEARN or ASYM. -/
  acc : List Rat := []
  passes : Nat := 0
  /-- Estimate in x: phase and time (R215). -/
  p : Option (Rat × Int) := none
  /-- Allan estimate: last residual, last values at τ steps (newest first), v and number of D values (R219). -/
  z : Option Rat := none
  zs : List Rat := []
  v : Rat := 0
  nd : Nat := 0
  /-- Raw weight of WMODE 1 once the estimate is usable. -/
  rw : Rat := 0
  /-- The last Hearth residual passed. -/
  hok : Bool := true
  /-- Ticks of the present run of passes in TAMPER, and whether a sample came (REJOIN). -/
  tpass : Nat × Bool := (0, false)
  /-- Share in use. -/
  u : Rat := 0
  /-- It entered LEARN as the pilot: its d is never relearned (R217). -/
  pil : Bool := false
deriving DecidableEq, Repr

/-- One ensemble beside its registers; member states stand in `GLB_EM_STAT`. -/
structure EnsSt where
  on : Bool := false
  /-- Phase and frequency; none while undefined (R217). -/
  x : Option Rat := none
  fe : Rat := 0
  /-- Time x was formed at. -/
  tx : Int := 0
  slots : List Slot := List.replicate 8 {}
  /-- Pilot slot while x follows it alone. -/
  pilot : Option Nat := none
  /-- Hearth anchor: A, f_A, tick count and timebase time of t_a; Δ_H so far; TAI seconds and reading at t_a (R226). -/
  anchor : Option (Rat × Rat × Nat × Int) := none
  dH : Rat := 0
  aSec : Rat := 0
  aTemp : Rat := 0
  /-- End of the asymmetry window, tick count (R233). -/
  asymEnd : Option Nat := none
  latch : Bool := false
  /-- Tick count of the last Allan step. -/
  atick : Nat := 0
deriving DecidableEq, Repr

/-- Tamper pins beside their registers (R238–R241): records waiting while a log store runs. -/
structure TmpSt where
  queue : List Nat := []
  storing : Bool := false
  /-- The log has been filled once: the next record overwrites the oldest (WRAP). -/
  wrapped : Bool := false
  /-- Keeper copies: EMB0 and EMB1 wait to be reported (R240). -/
  seq : List Nat := [0, 0]
deriving DecidableEq, Repr

/-- A bank of loop-filter state (R250, R279): dimensionless i, pk and y, seconds d and dt. -/
structure Bank where
  i : Rat := 0
  pk : Rat := 0
  d : Rat := 0
  dt : Rat := 0
  /-- d for the word in effect one tick earlier (d_at). -/
  dp : Rat := 0
  ee : Rat := 0
  lockN : Nat := 0
  unlockN : Nat := 0
  /-- Ticks since the previous sample that entered; none before the first (R252). -/
  since : Option Nat := none
  /-- Feed-forward and proportional terms, and the word as a fraction. -/
  ff : Rat := 0
  pc : Rat := 0
  y : Rat := 0
  /-- A clamp of R255 acted in the last tick; the last sample's p exceeded the room (R254). -/
  fcl : Bool := false
  pcl : Bool := false
deriving DecidableEq, Repr

/-- A state change decided in this tick for the next boundary (R260): state, cause, index if valid. -/
structure Change where
  st : Nat
  cause : Nat
  idx : Option Nat
deriving DecidableEq, Repr

/-- What the holdover word of a channel is built from (R315, R316). -/
structure Hold where
  ybar : Rat
  /-- End second and mean temperature of the interval of the mean. -/
  tm : Nat
  tbar : Rat
  /-- The word frozen by a HEARTH_CTL clear. -/
  frozen : Option Rat := none
deriving DecidableEq, Repr

/-- The settings of `MIL_BW`, `MIL_ABW`, `MIL_DAMP`, `MIL_LIM0` and `MIL_LIM1` (R257). -/
structure LoopLim where
  bw : Nat := 100000
  abw : Nat := 0
  damp : Nat := 40
  pslope : Nat := 7500
  fmax : Nat := 2000
deriving DecidableEq, Repr

/-- One Miller channel: what the tick's processing has made of it; words, state changes and outcomes take effect at the
next boundary. -/
structure Chan where
  /-- Enable in effect. -/
  on : Bool := false
  /-- Committed and speculative bank. -/
  c : Bank := {}
  s : Bank := {}
  /-- Committed word in effect and the one computed for the next boundary. -/
  fw : Int := 0
  fwNext : Int := 0
  /-- Word that carries the increment, and its next value. -/
  out : Int := 0
  outNext : Int := 0
  /-- Phase less nominal oscillator time, seconds (R243). -/
  ph : Rat := 0
  /-- Excursion, its next value, and the S lead, seconds (R287). -/
  x : Rat := 0
  xNext : Rat := 0
  xs : Rat := 0
  xsNext : Rat := 0
  /-- The lead at the last boundary, before its words took effect: what e_S is formed with (R285). -/
  xsErr : Rat := 0
  changes : List Change := []
  /-- Decided end of a speculation: commit or squash (R290). -/
  ending : Option Bool := none
  /-- State before FROZEN (R59). -/
  frozen : Option Nat := none
  /-- The part overran in the tick that ends at the next boundary (R59). -/
  ovr : Bool := false
  /-- Index in use by C. -/
  ref : Option Nat := none
  /-- Open speculation: window tick n, speculative index, O_S (2 ps units). -/
  specN : Option Nat := none
  sidx : Option Nat := none
  oS : Rat := 0
  /-- Window of the current reference, and by reference the window in which no speculation opens any more (R279, R282). -/
  winN : Option Nat := none
  specSeen : List (Nat × Nat) := []
  /-- Error published for the last tick, 2 ps units; none for NOSAMPLE (R176). -/
  err : Option Rat := none
  /-- A removal under R304 or R305 waits for the end of the speculation or for the entry to ACQUIRE. -/
  rem : Bool := false
  /-- What this boundary's move added to d and to `dp`, in seconds (R304). -/
  took : Rat := 0
  tookP : Rat := 0
  /-- The word of the holdover that runs, as chosen at its entry (R315, R316). -/
  hold : Option Hold := none
  /-- Tick count of the boundary at which HOLDOVER was entered. -/
  holdTn : Nat := 0
  /-- LOCKED through the whole Hearth interval so far, and the sum of committed i + pc over its ticks. -/
  ivOk : Bool := false
  ivSum : Rat := 0
  /-- Last 16 interval means: end second, mean, mean temperature, valid; newest first (R312). -/
  means : List (Nat × Rat × Rat × Bool) := []
  latch : Bool := false
  /-- Discontinuity of the output phase at this boundary, seconds, for the Looms (R333). -/
  jump : Rat := 0
  /-- Free-run word in effect, and a pair written and waiting (R246). -/
  frw : Int := 0
  frwNext : Option Int := none
  /-- Bandwidth setting in use (µHz): a change recomputes pk (R257). -/
  bw : Nat := 0
  /-- Budget and unwind rate in force, seconds (R297). -/
  bud : Rat := 120 / 1000000000000
  unw : Rat := 4 / 1000000000000
  /-- Tick count at which the channel last left LOCKED, SPEC_SWITCH or SPEC_HOLD (R319). -/
  lastLock : Nat := 0
  /-- A sample that entered in the tick that ends at the next boundary was clamped: it counts there (R278). -/
  clamped : Bool := false
  /-- Loop settings in effect since the last boundary (R257). -/
  lim : LoopLim := {}
deriving DecidableEq, Repr

/-- A history entry of the Hearth (R309, R310). -/
structure HistEnt where
  sec : Nat
  y : Rat
  t : Rat
  flags : Nat
deriving DecidableEq, Repr

/-- The fitted model (R313). -/
structure Model where
  c0 : Rat
  c1 : Rat
  k1 : Rat
  k2 : Rat
  tf : Nat
  tref : Rat
  tmin : Rat
  tmax : Rat
  /-- Mean square residual and variance of c1. -/
  sy2 : Rat
  sa2 : Rat
  n : Nat
  afit : Bool
  tfit : Bool
deriving DecidableEq, Repr

/-- What the Hearth has put into Granary (R321): history entries by slot, and the model page. -/
structure Saved where
  hist : List (Nat × HistEnt) := []
  model : Option Model := none
  means : List (List (Nat × Rat × Rat × Bool)) := []
  d : Rat := 0
  dt : Rat := 0
deriving DecidableEq, Repr

/-- An interval of R309 that has ended: its end second, its ticks, the sum of the readings, its flags, and for each channel
the sum of committed i + pc and whether it was LOCKED throughout. -/
structure ClosedIv where
  sec : Nat
  ticks : Nat
  tsum : Rat
  flags : Nat
  sums : List (Rat × Bool)
deriving DecidableEq, Repr

/-- A holdover estimate (R319): tick count it starts at, the LTC's estimate there in ns, and σ_y and s_a as squares, or,
without a valid model, EMBY as the square of σ_y. -/
structure Estimate where
  from_ : Nat
  e0 : Option Rat
  sy2 : Rat
  sa2 : Rat
  valid : Bool
  /-- Seconds in M1 EMBER since it started. -/
  ember : Nat := 0
deriving DecidableEq, Repr

/-- The Hearth beside its registers. -/
structure HearthSt where
  /-- An interval that has ended and whose entry is not appended yet. -/
  closed : Option ClosedIv := none
  /-- History, oldest first, and entries appended so far (the next circular slot, R309). -/
  hist : List HistEnt := []
  count : Nat := 0
  model : Option Model := none
  /-- A refit waiting for the next boundary. -/
  modelNext : Option (Option Model) := none
  /-- First second of the interval grid (R309). -/
  grid : Option Nat := none
  /-- Grid second at which the running interval started; its sums, flags (R310) and the index selected in its first tick, none
  until that has ended. -/
  ivStart : Nat := 0
  ticks : Nat := 0
  flags : Nat := 0
  tsum : Rat := 0
  ivRef : Option (Option Nat) := none
  /-- Learning stopped by HEARTH_CTL ACT 1. -/
  stopped : Bool := false
  /-- Latest reading, °C, and the tick count it was taken at (R311). -/
  temp : Rat := 0
  tempTick : Option Nat := none
  /-- The thermistor input is open or shorted (R653). -/
  thermBad : Bool := false
  /-- The bound of R317 left last was the upper one. -/
  outHigh : Bool := false
  latch : Bool := false
  /-- Ember NCO word as a fraction, and whether it drives the LTC (R322). -/
  ember : Rat := 0
  emberOn : Bool := false
  /-- The core failed with VBAK present: the next boundary enters M1 EMBER (R322). -/
  emberDue : Bool := false
  /-- LTC second of the ember entry, and of the last ageing step. -/
  emberStart : Nat := 0
  /-- TN of the boundary that entered it (R324). -/
  emberTn : Nat := 0
  emberSec : Nat := 0
  /-- The ageing term at the ember entry while the model was valid (R322). -/
  kC1 : Option Rat := none
  /-- Keeper copies of PPS and EMBY (R681). -/
  kPps : Bool := false
  kEmby : Nat := 1000
  /-- d and dt of the time channel, kept on VBAK (R322). -/
  kD : Rat := 0
  kDt : Rat := 0
  /-- Resuming after ember mode: HOLD until the time channel is LOCKED (R324). -/
  resuming : Bool := false
  /-- The holdover estimate of R319 that runs, and the one from the moment the time channel last left LOCKED. -/
  est : Option Estimate := none
  estAcq : Option Estimate := none
  /-- The time channel has entered HOLDOVER: a new estimate starts (R319). -/
  estNew : Bool := false
  /-- Loaded from Granary after a cold start; the second at which SET was first seen (R321). -/
  loaded : Bool := false
  setSec : Option Nat := none
  /-- What the stored pages hold of the Hearth, by page; slots of a history page count from its start (R321). -/
  saved : List (Nat × Saved) := []
  /-- What the retained SRAM holds of the Hearth, with its first page; means to hand to the channels (R321, R324). -/
  kept : Option (Nat × Saved) := none
  keptMeans : List (List (Nat × Rat × Rat × Bool)) := []
  /-- Location in force since the last boundary (R321). -/
  loc : Nat := 0
deriving DecidableEq, Repr

/-- One shadow copy of a page (R574): its data stands in the shadow memory. -/
structure Copy where
  seq : Nat := 0
  /-- CRC matches; commit marker written. -/
  crc : Bool := false
  commit : Bool := false
deriving DecidableEq, Repr

/-- The two copies of a page and which one the directory names (R574, R575: copy A valid at sequence number 1). -/
structure PageSt where
  a : Copy := { seq := 1, crc := true, commit := true }
  b : Copy := {}
  curB : Bool := false
deriving DecidableEq, Repr

/-- An open store request (R584): pages still to be stored or skipped, counts, and whether it is the tamper log's. -/
structure StoreReq where
  first : Nat
  left : List Nat
  /-- The page that is being stored is one of its pages. -/
  now : Bool := false
  /-- Pages stored for it; one failed; the tamper log asked for it (R584, R239). -/
  stored : Nat := 0
  failed : Bool := false
  tamper : Bool := false
deriving DecidableEq, Repr

/-- One wear-spread counter (R597). -/
structure WearSt where
  value : Nat := 0
  /-- The increments that are being written as one step, and those that came since. -/
  now : Nat := 0
  pend : Nat := 0
  /-- A worn cell has been skipped (R597). -/
  worn : Bool := false
deriving DecidableEq, Repr

/-- Granary beside its registers: SRAM, shadow, system area. -/
structure GranSt where
  /-- Working SRAM by byte offset; shadow copies by copy × 2¹⁹ + offset. -/
  sram : List Host.Cell := []
  shadow : List Host.Cell := []
  pages : List (Nat × PageSt) := []
  dirty : List Nat := []
  /-- Queued pages with FORCE. -/
  queue : List (Nat × Bool) := []
  reqs : List StoreReq := []
  busy : Option Nat := none
  /-- Writes held for the busy page, oldest first. -/
  held : List (Nat × List Byte) := []
  /-- Passwords by region × 2 + kind, and whether each is unlocked (R579, R580). -/
  pw : List Nat := List.replicate 8 0
  unl : List Bool := List.replicate 8 false
  /-- PF-eligible pages as the system area holds them (R585). -/
  marks : List Nat := []
  /-- A journal start without its end, and the last page its store committed (R586, R591). -/
  journal : Bool := false
  pfLast : Nat := 0
  /-- A power-fail store runs; the last page of it that was begun. -/
  pf : Bool := false
  pfAt : Option Nat := none
  wear : List WearSt := List.replicate 16 {}
  /-- The SRAM was kept through M1 EMBER (R588). -/
  retained : Bool := false
  /-- Pages without a valid copy at the last recovery. -/
  lost : List Nat := []
deriving DecidableEq, Repr

/-- What the bus gave back: bytes of the last read, and whether the last access ended in a Completer Abort. -/
structure BusSt where
  rdata : List Byte := []
  abort : Bool := false
deriving DecidableEq, Repr

/-- Where a band search stands (R340, R341). -/
inductive Phase
  /-- `bit` still to be tested on top of band `b`; the measured frequency of `b`, Hz. -/
  | coarse (bit b : Nat) (fb : Option Nat)
  /-- The coarse phase did not measure band `b`: it is measured first (R341). -/
  | refineFirst (b : Nat)
  /-- The coarse band, the best band and its frequency, the bands measured, the band under test and its direction. -/
  | refine (b : Nat) (best : Nat × Nat) (meas : List Nat) (test : Nat) (up : Bool)
  /-- Settle and check; lock is declared at this tick count (R340). -/
  | check (lockAt : Nat) (r : Nat)
  /-- The attempt failed; the tick count of the boundary at which that is found (R342). -/
  | failed (found : Nat)
deriving DecidableEq, Repr

/-- A running search: the tick count it started at and its phase. -/
structure Search where
  start : Nat
  cband : Nat := 0
  phase : Phase
deriving DecidableEq, Repr

/-- One Loom beside its registers. -/
structure LoomSt where
  on : Bool := false
  /-- FC in effect, 2⁻¹⁶ Hz; a pair written and waiting (R330). -/
  fc : Nat := 0x9502F900000
  fcNext : Option Nat := none
  /-- A write of `LOM_FC_LO` is held (R330). -/
  held : Bool := false
  /-- N, PDIV and CHAN in effect. -/
  n : Nat := 80
  pdiv : Nat := 4
  chan : Nat := 0
  search : Option Search := none
  /-- Attempts since TRIES was reset. -/
  tries : Nat := 0
  /-- A search starts at the next boundary (R343). -/
  startNext : Bool := false
  /-- A glide: first FC, last FC, steps, steps taken, tick count of the last (R347). -/
  glide : Option (Nat × Nat × Nat × Nat × Nat) := none
  /-- Comb slew: remainder in seconds and the tick count it began at (R333). -/
  slew : Option (Rat × Nat) := none
  /-- Phase of the channel the comb has dropped, seconds (R333). -/
  ofs : Rat := 0
  latch : Bool := false
deriving DecidableEq, Repr

/-- The divider of a bypass output (R364): the last input edge was of the selected slope; the output is high; the input
half-cycles left in that half; the oscillator time of the last input edge, seconds. -/
structure Byp where
  lead : Bool
  high : Bool
  left : Nat
  at_ : Rat
deriving DecidableEq, Repr

/-- One output beside its registers. -/
structure OutSt where
  en : Bool := false
  /-- Source in effect: while the output is enabled or completes its last high pulse, SRC as it was at the enable (R369). -/
  src : Nat := 0
  /-- DIV, HALF and CDLY of the last divider start (R365). -/
  div : Nat := 20
  half : Bool := false
  cdly : Nat := 0
  /-- Policy in effect (R371). -/
  bridge : Bool := false
  /-- A rising edge, gone by or to come, counted in half-cycles of the Loom clock; none while the divider stands. -/
  rise : Option Int := none
  /-- Oscillator time in seconds at which the last low began, or will begin when a high pulse is being completed. -/
  low : Rat := 0
  /-- The sync group whose reset waits for this output's first edge (R379). -/
  resetting : Option Nat := none
  /-- The bypass divider from its first edge until it holds low (R364, R369). -/
  byp : Option Byp := none
  /-- A move of the fine delay line (R367): oscillator time in seconds and position in 0.5 ps steps at its start. -/
  fmove : Option (Rat × Rat) := none
deriving DecidableEq, Repr

/-- A bank's bridge: tick count its subject was chosen, and the frozen Loom-clock frequency in hertz (R351, R352). -/
structure BridgeSt where
  since : Nat := 0
  freq : Option Rat := none
deriving DecidableEq, Repr

/-- The C37.118.1 control functions of a frame (R388): year, leap pending and sign, daylight saving pending and in effect,
half hours of offset, quality; parity follows from them. -/
structure FrameCtl where
  year : Nat
  lsp : Bool
  lss : Bool
  dsp : Bool
  dst : Bool
  offset : Int
  tq : Nat
deriving DecidableEq, Repr

/-- What the last timecode frame carried (R385–R389). -/
structure FrameOut where
  manchester : Bool
  sec : Nat
  min : Nat
  hour : Nat
  doy : Nat
  year : Option Nat
  sbs : Option Nat
  ctl : Option FrameCtl
deriving DecidableEq, Repr

/-- The 1PPS and timecode generators and SYNC_IN_N (R378–R392). -/
structure TcdSt where
  /-- WIDTH and OFF in use, and as latched one boundary ago (R384). -/
  width : Nat := 10000
  off : Int := 0
  widthN : Nat := 10000
  offN : Int := 0
  /-- LTC second of the last edge handled, and the end of its pulse: 2 ps units of oscillator time (R383). -/
  last : Option Int := none
  pulseEnd : Option Int := none
  /-- `TCD_TC_CFG` in use, and as latched one boundary ago (R390). -/
  tc : Nat := 0x80
  tcN : Nat := 0x80
  /-- Second of the last frame, and its contents. -/
  frameSec : Option Nat := none
  frame : Option FrameOut := none
  /-- A step cut the frame in progress (R390). -/
  cut : Bool := false
  /-- Sync groups reset by command at a boundary: group and TN (R379). -/
  sgAt : List (Nat × Nat) := []
  /-- Groups whose command waits for the boundary's other changes (R375). -/
  sgDue : List Nat := []
  /-- Keeper copies of WIDTH and OFF (R681), and the ember 1PPS running on. -/
  kWidth : Nat := 10000
  kOff : Int := 0
  ember : Bool := false
  /-- End of the ember pulse that was in progress when M6 took the output over, 2 ps units (R392). -/
  tail : Option Int := none
  /-- State and exponent of QUAL at the boundary that began the tick (R389). -/
  q : Nat × Nat := (0, 31)
deriving DecidableEq, Repr


/-- Power, start-up and reset beside their registers. -/
structure PwrSt where
  /-- Firmware has applied the register image since the entry to M6 (R595, R681), and the tick count of that entry while
  it has not. -/
  imageDone : Bool := false
  imageFrom : Option Nat := none
  /-- Start-up has not yet entered the mode of `PWR_AUTO`; tick count from which it may (R634). -/
  starting : Bool := true
  autoAt : Option Nat := none
  /-- Granary recovery has ended since the reset (R634). -/
  recovered : Bool := false
  /-- RST_N is low (R637). -/
  rstLow : Bool := false
  /-- The PRIO strap (R545). -/
  prio : Bool := false
  /-- A core rail failed: the LTC boundary after this tick count enters M1 or M0 (R625). -/
  coreFail : Option Nat := none
  /-- The strap order has been tried (R635). -/
  tried : Bool := false
  /-- A power-fail warning waits for its boundary; PF clears at the next boundary (R624, R627). -/
  warned : Bool := false
  clearing : Bool := false
  /-- An accepted `PWR_MODE_CTL` request (R633). -/
  exit : Bool := false
  /-- This start is a cold one, or follows M1, until firmware has counted it (R597). -/
  coldStart : Bool := true
  fromEmber : Bool := false
deriving DecidableEq, Repr
/-- A Lens stamp kept for bursts: input, whether it rose, LTC time in 2⁻³² ns with the steps taken off (R412). -/
structure Stop where
  input : Nat
  rising : Bool
  u : Int
deriving DecidableEq, Repr

/-- One Lens input beside its registers: THR in two's complement, HYS and RING in force since the last boundary (R402, R429),
and the last edge stamped for the stream. -/
structure LensIn where
  thr : Nat := 0
  hys : Nat := 10
  ring : Nat := 0
  last : Option Int := none
deriving DecidableEq, Repr

/-- The start of a burst: input and edge of the header (R415), LTC time as recorded, quality, and its time as a stop's. -/
structure BurstStart where
  input : Nat
  edge : Nat
  sec : Nat
  ns16 : Nat
  qual : Nat
  u : Int
deriving DecidableEq, Repr

/-- One burst unit (R408–R413): the settings in force, the pre-trigger
history and the burst. -/
structure BurstSt where
  start : Nat := 0
  stops : Nat := 0
  win : Nat := 1000000
  pre : Nat := 0
  ring : Nat := 0
  hist : List Stop := []
  burst : Option BurstStart := none
  got : List Stop := []
  /-- Last stamp per input (R409). -/
  last : List (Nat × Int) := []
  missed : Nat := 0
  ooo : Nat := 0
  trunc : Bool := false
  endc : Nat := 0
deriving DecidableEq, Repr

/-- An episode of loss of a capture ring (R423): tick of the first loss, records lost, cause. -/
structure Loss where
  tn : Nat
  n : Nat
  cause : Nat
deriving DecidableEq, Repr

/-- Lens and the burst buffer. -/
structure LensSt where
  ins : List LensIn := List.replicate 8 {}
  units : List BurstSt := List.replicate 2 {}
  /-- Stream records of this tick: input, ring, record. -/
  stream : List (Nat × Nat × Nat) := []
  /-- Host markers applied at this boundary: ring and record (R427). -/
  marks : List (Nat × Nat) := []
  /-- The burst buffer, oldest first: ring and record (R421). -/
  buf : List (Nat × Nat) := []
  lost : List (Nat × Loss) := []
  /-- Records drained in this tick (R422). -/
  drained : Nat := 0
deriving DecidableEq, Repr

/-- One measurement beside its registers. Times are LTC time in 2⁻³² ns, values in 2⁻¹⁶ ns. -/
structure Meas where
  ring : Nat := 0
  /-- The open window: its first tick for a gate or slot, and its samples, oldest first: time and value. -/
  winAt : Option Nat := none
  samples : List (Nat × Int) := []
  /-- WANDER: values of the slots done, and the tick at which the running slot began. -/
  slots : List Int := []
  slotAt : Nat := 0
  /-- Stamps received in the window (R433), value last seen for unwrapping, speculative sample in the window (R303). -/
  seen : Nat := 0
  lastX : Option Rat := none
  spec : Bool := false
  /-- Channel or index sample of the tick that ended last: value and speculative. -/
  samp : Option (Int × Bool) := none
  /-- The ended tick's samples are absorbed. -/
  absorbed : Bool := false
deriving DecidableEq, Repr

/-- The mains sentinel beside its registers. -/
structure SenSt where
  ring : Nat := 0
  winAt : Option Nat := none
  edges : List Nat := []
  /-- Last used edge, or the time the sentinel started (R451). -/
  last : Option Nat := none
  since : Nat := 0
  lost : Bool := false
  /-- LOST was set at some time in the open window; it was set when the window began. -/
  lostIn : Bool := false
  lostNow : Bool := false
  uf : Bool := false
  of : Bool := false
  /-- Ends (ms) and values (µHz) of the last consecutive valid windows, newest first (R450). -/
  freqs : List (Nat × Nat) := []
  /-- Last valid F, µHz. -/
  lastF : Option Nat := none
  /-- Values to publish at the next boundary (R453): flags, F, ROCOF, PHASE. -/
  pub : Option (Nat × Nat × Int × Int) := none
  absorbed : Bool := false
deriving DecidableEq, Repr

/-- Tally: stamps of this tick and of the one being absorbed (input, LTC time in 2⁻³² ns), measurements, sentinel. -/
structure TallySt where
  stamps : List (Nat × Nat) := []
  work : List (Nat × Nat) := []
  meas : List Meas := List.replicate 64 {}
  sen : SenSt := {}
deriving DecidableEq, Repr

/-- A foreign master of a port (R475): identity, session slot, Announce data and log interval, and the tick counts of its
last two Announce messages, newest first. -/
structure Foreign where
  clk : Nat
  pnum : Nat
  slot : Option Nat
  ann : Ann
  logInt : Int
  times : List Nat
  /-- Two of its messages once lay within 4 of its intervals (R475). -/
  qual : Bool := false
deriving DecidableEq, Repr

/-- One port of an instance beside its state in `HRD_PI_STATUS.PS`. -/
structure PiPort where
  foreign : List Foreign := []
  /-- Tick count at which the port entered LISTENING, and the Announce receipt timeout has passed there. -/
  since : Nat := 0
  expired : Bool := false
  /-- End of PRE_MASTER, tick count. -/
  preEnd : Nat := 0
  /-- The port would be master and is held in LISTENING for want of the key (R470). -/
  held : Bool := false
deriving DecidableEq, Repr

/-- The parent (R469, R490): port, portIdentity, session slot, Announce data. -/
structure Parent where
  port : Nat
  clk : Nat
  pnum : Nat
  slot : Option Nat
  ann : Ann
deriving DecidableEq, Repr

/-- What the BMCA of one tick decided (R475): the state recommended for each port (0 none, 1 M1 or M2, 2 M3, 3 P1 or P2,
4 S1) and the best foreign master with its port. -/
structure Decision where
  rec4 : List Nat
  best : Option (Nat × Foreign)
deriving DecidableEq, Repr

/-- A Sync waiting for its Follow_Up: sequenceId, t2 and correctionField. -/
structure SyncWait where
  seq : Nat
  t2 : Int
  corr : Int
deriving DecidableEq, Repr

/-- A delay request sent and not yet answered: port, sequenceId, local stamp t3 or t1p; for P2P the receipt t4p, t2p and
corrections of the Pdelay_Resp. -/
structure DelayReq where
  port : Nat
  seq : Nat
  sent : Int
  resp : Option (Int × Int × Int) := none
deriving DecidableEq, Repr

/-- What an Announce that was sent carried (R466, R476, R478). -/
structure AnnOut where
  ann : Ann
  timeTrace : Bool
  freqTrace : Bool
  utcOff : Nat
  utcValid : Bool
  leap61 : Bool
  leap59 : Bool
  tsrc : Nat
  ptpScale : Bool
  /-- IEEE_C37_238 TLV: grandmasterID and totalTimeInaccuracy; offset and DST of the alternate time offset TLV. -/
  power : Option (Nat × Nat)
  alt : Option (Int × Bool)
deriving DecidableEq, Repr

/-- An instance's own data set (R476): what the BMCA compares, traceability of time and frequency, timeSource. -/
structure DataSet where
  ann : Ann
  timeTrace : Bool
  freqTrace : Bool
  tsrc : Nat
deriving DecidableEq, Repr

/-- One PTP instance beside its registers. Times and offsets in 2⁻¹⁶ ns of LTC time. -/
structure PiSt where
  on : Bool := false
  ports : List PiPort := List.replicate 4 {}
  parent : Option Parent := none
  /-- No port might be MASTER at the last boundary (R469, R470). -/
  barred : Bool := false
  /-- New Announce data; the decision under way (R475). -/
  annNew : Bool := false
  dec : Option Decision := none
  syncs : List SyncWait := []
  dreqs : List DelayReq := []
  /-- The master-to-slave difference of the last Sync exchange, with its t2; the mean path delay. -/
  ms : Option (Int × Int) := none
  mpd : Option Int := none
  /-- Log Sync interval of the parent session. -/
  ivl : Option Int := none
  /-- First outlier (R507); the mean of two on becoming PATH_SUSPECT, with the mpd before. -/
  outl : Option Int := none
  suspect : Option (Int × Int) := none
  /-- Step of the path at PATH_SUSPECT, for the event of R511. -/
  stepAbs : Nat := 0
  /-- Quarantine offset and its end, tick count. -/
  q : Int := 0
  quarEnd : Option Nat := none
  /-- Exchanges completed in this tick, oldest first: o and t2. -/
  ex : List (Int × Int) := []
  /-- Last o published as a sample, with its t2. -/
  lastO : Option (Int × Int) := none
  /-- Latched c; exchanges within LIMIT since the last refused one; accepted offset a_k. -/
  c : Int := 0
  good : Nat := 0
  a : Int := 0
  /-- Tick count of the last completed exchange, or of entry to SLAVE; the timeout has failed since. -/
  lastEx : Nat := 0
  timedOut : Bool := false
  /-- The external monitor fails in this tick, since the parent changed (R501). -/
  extFail : Bool := false
  /-- Tick count of the last parent change. -/
  pchg : Option Nat := none
  annOut : Option AnnOut := none
  /-- The data set formed at the last boundary (R476). -/
  ds : Option DataSet := none
deriving DecidableEq, Repr

/-- A grant (R491, R499): log interval, expiry in LTC seconds, duration, the LTC second it was given in, the first TN it
holds for, and the log interval of the grant it replaces from there. -/
structure Grant where
  l : Int
  exp : Nat
  dur : Nat
  given : Nat
  start : Nat
  old : Option Int := none
deriving DecidableEq, Repr

/-- A request under way (R497): tick count it was sent at and is unanswered, tick count of the next attempt, failures, and
the LTC second of the type's next request (R491). -/
structure Ask where
  sent : Option Nat := none
  retry : Option Nat := none
  fails : Nat := 0
  next : Option Nat := none
deriving DecidableEq, Repr

/-- A session-table entry (R491) and what the engine keeps of it. -/
structure Sess where
  request : Bool
  inst : Nat
  port : Nat
  origin : Bool
  addr : Nat
  clk : Nat
  pnum : Nat
  minl : List Int
  grants : List (Option Grant) := [none, none, none]
  asks : List Ask := [{}, {}, {}]
  denials : Nat := 0
deriving DecidableEq, Repr

/-- ESMC of one port (R481, R482): settings in force, tick count of the last valid PDU or of the enable, LTC second of the
last information PDU, an event PDU is due. -/
structure EsmcSt where
  on : Bool := false
  lastRx : Nat := 0
  lastTx : Option Nat := none
  event : Bool := false
  /-- The rank to be sent at the last boundary (R482). -/
  was : Option Nat := none
  /-- SSM code and enhanced SSM code of the PDU sent last (R482). -/
  sent : Option (Nat × Option Nat) := none
deriving DecidableEq, Repr

/-- A PTP message as it was sent last (R459, R461, R471): whether a Follow_Up goes with it, the whole nanoseconds and the
fraction, 2⁻¹⁶ ns, of the time it carries (t1 of a Sync, the receipt of the request that an answer answers), its egress
stamp, its VLAN tag, VID and PCP, and what t1 adds in one's complement to the sum of the UDP checksum. -/
structure PtpOut where
  msg : Msg
  two : Bool
  ns : Int
  frac : Int
  stamp : Int
  vlan : Option (Nat × Nat)
  udp : Option Nat
deriving DecidableEq, Repr

/-- Herald beside its registers. -/
structure HrdSt where
  pis : List PiSt := List.replicate 8 {}
  esmc : List EsmcSt := List.replicate 4 {}
  /-- Sessions by slot; slots in the session cache, most recent first (R494). -/
  sess : List (Nat × Sess) := []
  cache : List Nat := []
  /-- Entries read in this tick; keys looked up in it: instance, port, address (R495). -/
  reads : Nat := 0
  looked : List (Nat × Nat × Nat) := []
  /-- Keys looked up in the tick before. -/
  looked' : List (Nat × Nat × Nat) := []
  /-- Answers and Signaling waiting to be sent; messages handled in this tick; messages deferred with their tick count. -/
  queue : List Msg := []
  done : List Msg := []
  deferred : List (Msg × Nat) := []
  /-- Half tokens in the port buckets; messages sent in this tick (R500). -/
  tokens : List Nat := [750, 750, 750, 750]
  sent : Nat := 0
  /-- Grants cancelled by the peer, to end at the next boundary: slot and type (R498). -/
  cancels : List (Nat × Nat) := []
  /-- Tokens of the host buckets to and from the host, 1/256 byte (R485, R486). -/
  rxTok : Nat := 16777216
  txTok : Nat := 16777216
  /-- RX buffers given by the host and host frames waiting to leave, oldest first. -/
  bufs : List Desc := []
  txq : List Desc := []
  /-- The host frame sent last: port, and its bytes with the FCS (R128). -/
  hostTx : Option (Nat × List Byte) := none
  /-- The PTP message sent last. -/
  ptpTx : Option PtpOut := none
deriving DecidableEq, Repr

/-- The fields of a link frame that a port sends (R523). -/
structure LinkOut where
  node : Nat
  role : Nat
  orient : Bool
  cal : Bool
  step : Bool
  leader : Bool
  seq : Nat
  txprev : Nat
  pseq : Nat
  rxpeer : Nat
  swapcnt : Nat
  mir : Option MirIn
  tun : List Byte
deriving DecidableEq, Repr

/-- A sample a time frame gave (R530): the LTC less the reference at the arrival, and the arrival, 2⁻¹⁶ ns. -/
structure PlkSamp where
  o : Int
  t : Int
deriving DecidableEq, Repr

/-- One Polsis port beside its registers. Times in 2⁻¹⁶ ns. -/
structure PlkPort where
  on : Bool := false
  /-- The role in effect while the port is on: a change of ROLE takes the link down at the boundary (R520). -/
  role : Nat := 0
  /-- Consecutive valid and compatible frames; ticks without a valid one; a frame came in this tick (R519). -/
  good : Nat := 0
  miss : Nat := 0
  got : Bool := false
  /-- SEQ of the last frame sent and stamps of those sent, newest first, one for each SEQ; SEQ and receive stamp of the last
  peer frame and its STEP; the PSEQ whose exchange was formed last (R524). -/
  seq : Nat := 0
  tx : List (Nat × Nat) := []
  rx : Option (Nat × Nat) := none
  rxStep : Bool := false
  pseq : Option Nat := none
  /-- An LTC step since the last frame sent. -/
  step : Bool := false
  /-- The last 32 d_meas, newest first; Δ̂ (R524, R526). -/
  dm : List Int := []
  dhat : Int := 0
  /-- θ_raw of the last exchange of this tick (R560), and the samples of the running window with their times. -/
  theta : Option Int := none
  ths : List (Int × Int) := []
  /-- Tick counts of the boundaries at which swap gaps begin (R525). -/
  swapAt : List Nat := []
  /-- A gap or the window after it: its first boundary as tick count and LTC time, the fit before and the exchanges it
  held, whether this end received on lane 0 before, whether the lanes have turned. -/
  gap : Option Nat := none
  gapT : Int := 0
  before : Option Rat := none
  rx0 : Bool := false
  turned : Bool := false
  /-- Tick count at which the after-window began. -/
  after : Option Nat := none
  /-- Calibration runs (R527); the gap that runs or comes next is not its swap and only brings orientation 0. -/
  calib : Bool := false
  pre : Bool := false
  /-- Tick count of link-up. -/
  up : Nat := 0
  /-- Origin locked last; ticks without one of its frames; ticks without a sample; the loss has failed ACT. -/
  lastOrig : Option Nat := none
  origMiss : Nat := 0
  noSamp : Nat := 0
  lossDone : Bool := false
  /-- The sample of this tick, and QL and CC of the last one. -/
  samp : Option PlkSamp := none
  q : Option (Nat × Nat) := none
  /-- Words of the tunnel message being written; the message to go out; received messages as words. -/
  tunTx : List Nat := []
  tunOut : Option (List Byte) := none
  fifo : List (List Nat) := []
  /-- The last frames sent. -/
  sentLink : Option (List Byte) := none
  sentTime : Option (List Byte) := none
deriving DecidableEq, Repr

/-- An origin tracked for forwarding (R532): last OTN by port, tick count of the last frame forwarded. -/
structure PlkOrig where
  origin : Nat
  last : List (Nat × Nat)
  tick : Nat
deriving DecidableEq, Repr

structure PlkSt where
  ports : List PlkPort := List.replicate 4 {}
  /-- The forwarding paths are set (R528). -/
  path : Bool := false
  /-- The origins tracked (R532). -/
  origs : List PlkOrig := []
deriving DecidableEq, Repr


/-- Mirror beside its registers (R542–R568). -/
structure MirSt where
  /-- KEY_SENSE as it was last seen: high, which is free; tick count of the last sample. -/
  line : Bool := true
  sampled : Option Nat := none
  /-- The key was claimed in this tick count and is not yet acted on; the link was up then (R546, R564). -/
  claim : Option Nat := none
  claimLink : Bool := false
  /-- End of the holdoff, tick count; the line has read low since the release (R549). -/
  holdoff : Option Nat := none
  partner : Bool := false
  /-- High samples in a row while the key is held (R548). -/
  highs : Nat := 0
  /-- A release that waits for its boundary, by code (R547). -/
  rel : Option Nat := none
  /-- A SAFE part that released the key still drives (R550). -/
  safeDrv : Bool := false
  /-- An override: tick counts from which and until which it drives; tick count the last one ended at (R554). -/
  ovr : Option (Nat × Nat) := none
  ovrEnd : Option Nat := none
  /-- Consecutive headers of the partner that claim the key; its PRIO strap (R545, R552). -/
  clashN : Nat := 0
  pprio : Option Bool := none
  /-- What the last boundary latched, and what the one before it latched, which goes out (R555). -/
  latch : Option MirIn := none
  out : Option MirIn := none
  /-- A received snapshot and the tick count it came in (R558). -/
  recv : Option (MirIn × Nat) := none
  /-- The committed snapshot; its epoch. -/
  com : Option MirIn := none
  epoch : Option Nat := none
  /-- A snapshot was committed in this tick; the next commit is the first of R561. -/
  got : Bool := false
  first : Bool := true
  /-- Hearth collection: HEPOCH and fragments by number; the committed one (R559). -/
  coll : Option (Nat × List (Nat × List Rat)) := none
  hcom : Option (List (Nat × List Rat)) := none
  /-- Refits of this part (R559). -/
  hepoch : Nat := 0
  /-- θ of the tick that ended at the last boundary, seconds (R560). -/
  theta : Option Rat := none
  /-- Errors of the shadow loops for this tick, seconds (R560, R562). -/
  err : List (Option Rat) := List.replicate 16 none
  /-- φ_C less the LTC of every channel at the last boundaries, by TN, newest first (R560). -/
  own : List (Nat × List Rat) := []
deriving DecidableEq, Repr

/-- The SPI pass-through (R671): bytes queued and received, oldest first; SPI_CS_N is low. -/
structure SpiSt where
  tx : List Nat := []
  rx : List Nat := []
  cs : Bool := false
deriving DecidableEq, Repr

/-- The three variants (R1, R17). -/
inductive Variant
  | gsy8720
  | gsy8712
  | gsy8706
deriving DecidableEq, Repr

/-- The part. -/
structure State where
  variant : Variant := .gsy8720
  /-- The register file: word by key, function × 2²⁰ + window × 1,024 + index; unlisted keys hold their reset value. -/
  regs : List (Nat × Word) := []
  ltc : Ltc := {}
  /-- Free values drawn so far: the model's own field, not the spec's (log entry 9). -/
  free : Nat := 0
  /-- Host memory the part has written, by function × 2⁶⁴ + address. -/
  hostMem : List Host.Cell := []
  host : HostSt := {}
  wd : WatchSt := {}
  prism : PrismSt := {}
  ens : List EnsSt := List.replicate 8 {}
  tmp : TmpSt := {}
  mil : List Chan := List.replicate 16 {}
  /-- The channels as they stood before the tick's processing, for an overrun (R59, R60). -/
  milBak : List Chan := List.replicate 16 {}
  hearth : HearthSt := {}
  gran : GranSt := {}
  loom : List LoomSt := List.replicate 8 {}
  out : List OutSt := List.replicate 48 {}
  bridge : List BridgeSt := List.replicate 6 {}
  tcd : TcdSt := {}
  lens : LensSt := {}
  tally : TallySt := {}
  hrd : HrdSt := {}
  plk : PlkSt := {}
  mir : MirSt := {}
  pwr : PwrSt := {}
  bus : BusSt := {}
  spi : SpiSt := {}
  /-- Next SEQ by SRC of time records (R93). -/
  seqs : List (Nat × Nat) := []
  /-- The commands that wait, first in, first out. -/
  pending : List Instr := []
deriving DecidableEq, Repr

/-- The part after the reset that follows a cold start, at the start of M3 (R12, R71, R634): every field at the value it
has there, nothing in the queue. -/
def State.reset : State := {}

end Sys2Proof.Machine
end

