-- ==== Sys2Proof/Machine/Ops.lean ====
section
/-! DEFINITION. The named operations on the register file, host memory, time and events that every meaning uses. -/

namespace Sys2Proof.Machine

/-! ## The register file -/

/-- The register a key names, from the map: the key of its block and its fields (R145, R663). -/
def RegMap.lookup (k : Nat) : Option (Nat × List FieldSpec) :=
  let k := k % 2 ^ 20
  let w := k / 1024
  let i := k % 1024
  match RegMap.windows.find? (fun ws => ws.base ≤ w && w < ws.base + ws.nwin) with
  | none => none
  | some ws => ws.groups.findSome? (fun g =>
      if i < g.off then none else
      let r := i - g.off
      let n := if g.count ≤ 1 then 0 else min (r / g.stride) (g.count - 1)
      (g.regs.find? (fun rs => rs.idx + n * g.stride == r)).map (fun rs => (k - rs.idx, rs.fields)))

/-- The word a field list resets to (R12, R666). -/
def resetFields : List FieldSpec → Nat
  | [] => 0
  | f :: fs => f.reset * 2 ^ f.lo + resetFields fs

/-- What a register holds when nothing has written it: its reset value. -/
def resetWord (k : Nat) : Option Word :=
  match RegMap.lookup k with
  | some (_, fs) => some (BitVec.ofNat 32 (resetFields fs))
  | none => some 0

namespace State

/-- The word a register holds. -/
def reg (s : State) (k : Nat) : Word := (memGet resetWord s.regs k).getD 0

/-- A word put into a register, the file kept canonical. -/
def setReg (s : State) (k : Nat) (v : Word) : State := { s with regs := memPut resetWord s.regs k v }

/-- The value of a field of the block at `b`. -/
def get (s : State) (b : Nat) (f : Fld) : Nat := bitsOf (s.reg (b + f.idx)).toNat f.lo f.width

/-- The same as a two's complement number. -/
def getI (s : State) (b : Nat) (f : Fld) : Int := signed (s.get b f) f.width

/-- A flag is set. -/
def on (s : State) (b : Nat) (f : Fld) : Bool := s.get b f != 0

/-- The hardware's own write of a field: no access code, no protection (R154). -/
def put (s : State) (b : Nat) (f : Fld) (v : Nat) : State :=
  s.setReg (b + f.idx) (BitVec.ofNat 32 (putBits (s.reg (b + f.idx)).toNat f.lo f.width v))

def putI (s : State) (b : Nat) (f : Fld) (v : Int) : State := s.put b f (unsigned v f.width)

def putB (s : State) (b : Nat) (f : Fld) (v : Bool) : State := s.put b f v.toNat

/-- A value held at the field's largest when it does not fit. -/
def putSat (s : State) (b : Nat) (f : Fld) (v : Nat) : State := s.put b f (satN f.width v)

/-- The same for a two's complement field. -/
def putSatI (s : State) (b : Nat) (f : Fld) (v : Int) : State :=
  s.putI b f (clampI (-(2 ^ (f.width - 1) : Nat)) ((2 ^ (f.width - 1) : Nat) - 1) v)

/-- The software-written fields of a register set from a word; everything else in it stays (R9). -/
def putWord (s : State) (k v : Nat) : State :=
  match RegMap.lookup k with
  | none => s
  | some (_, fs) =>
    let w := fs.foldl (fun w f =>
      match f.acc with
      | .rw | .rwd | .pfo => putBits w f.lo f.width (bitsOf v f.lo f.width)
      | _ => w) (s.reg k).toNat
    s.setReg k (BitVec.ofNat 32 w)

/-- A saturating counter moved on by `n` (R66, R159). -/
def bump (s : State) (b : Nat) (f : Fld) (n : Nat := 1) : State := s.putSat b f (s.get b f + n)

/-- A peak field: the largest value seen since it was cleared (R66). -/
def peak (s : State) (b : Nat) (f : Fld) (v : Nat) : State :=
  if s.get b f < v then s.putSat b f v else s

/-- A 64-bit value put into a pair of registers. -/
def put64 (s : State) (b : Nat) (lo hi : Fld) (v : Int) : State :=
  (s.put b lo (unsigned v 64 % 2 ^ 32)).put b hi (unsigned v 64 / 2 ^ 32)

/-- The value of a pair of registers. -/
def get64 (s : State) (b : Nat) (lo hi : Fld) : Nat := s.get b lo + 2 ^ lo.width * s.get b hi

/-! ## Lists of keyed entries -/

end State

/-- Entry of a keyed list, or the default. -/
def assocD {α : Type} (d : α) (l : List (Nat × α)) (k : Nat) : α := ((l.find? (fun e => e.1 == k)).map (·.2)).getD d

/-- A keyed list with one entry replaced; the default is not listed. -/
def assocPut {α : Type} [DecidableEq α] (d : α) (l : List (Nat × α)) (k : Nat) (v : α) : List (Nat × α) :=
  memPut (fun _ => some d) l k v

namespace State

/-! ## Modes and variants -/

/-- The device mode (R628). -/
def mode (s : State) : Nat := s.get pwrR PWR_STATUS_MODE

def setMode (s : State) (m : Nat) : State := s.put pwrR PWR_STATUS_MODE m

/-- Units present on the variant (R17). -/
def nMil (s : State) : Nat := match s.variant with | .gsy8720 => 16 | .gsy8712 => 8 | .gsy8706 => 4
def nLom (s : State) : Nat := match s.variant with | .gsy8720 => 8 | .gsy8712 => 4 | .gsy8706 => 2
def nOut (s : State) : Nat := match s.variant with | .gsy8720 => 48 | .gsy8712 => 24 | .gsy8706 => 12
def nHrd (s : State) : Nat := match s.variant with | .gsy8720 => 4 | .gsy8712 => 2 | .gsy8706 => 0
def nPi (s : State) : Nat := match s.variant with | .gsy8706 => 0 | _ => 8
def nLns (s : State) : Nat := match s.variant with | .gsy8720 => 8 | .gsy8712 => 4 | .gsy8706 => 2
def nPlk (s : State) : Nat := match s.variant with | .gsy8720 => 4 | .gsy8712 => 2 | .gsy8706 => 0
def hasMir (s : State) : Bool := match s.variant with | .gsy8720 => true | _ => false

/-- The four capability registers (R25, R30). -/
def cap (s : State) (i : Nat) : Nat :=
  match s.variant, i with
  | .gsy8720, 0 => 0x44883010 | .gsy8720, 1 => 0x000F1087 | .gsy8720, 2 => 0x60804012 | .gsy8720, _ => 0x012F0E0A
  | .gsy8712, 0 => 0x22441808 | .gsy8712, 1 => 0x000F1086 | .gsy8712, 2 => 0x60804012 | .gsy8712, _ => 0x01170E0A
  | .gsy8706, 0 => 0x00220C04 | .gsy8706, 1 => 0x000F1000 | .gsy8706, 2 => 0x60804000 | .gsy8706, _ => 0x010B0E0A

/-- M7 or above, and no entry to M6 has begun, in which every block counts as disabled (R630, DEDUCED: log
entry 47). -/
def inRun (s : State) : Bool := 7 ≤ s.mode && !s.on pwrR PWR_STATUS_CHG

/-- Whether Reeve, Miller, Herald and Tally run in the mode (R46); Miller halts when an entry to M6 begins (R630). -/
def reeveRuns (s : State) : Bool := 3 ≤ s.mode
def millerRuns (s : State) : Bool := 7 ≤ s.mode && s.mode ≤ 12 && !s.on pwrR PWR_STATUS_CHG
def heraldRuns (s : State) : Bool := s.inRun && 0 < s.nHrd
def tallyRuns (s : State) : Bool := s.inRun

/-- Whether a reference index names a unit the variant has (R22, R169). -/
def indexPresent (s : State) (i : Nat) : Bool :=
  i < 32 || (i < 36 && i - 32 < s.nHrd) || (36 ≤ i && i < 44 && 0 < s.nPi) ||
  (44 ≤ i && i < 48 && i - 44 < s.nPlk) || i == 48 || (56 ≤ i && i < 64)

/-! ## Time -/

/-- The tick index and number (R31, R32). -/
def tix (s : State) : Nat := s.ltc.ns / 31250
def tn (s : State) : Nat := s.ltc.sec * 32000 + s.tix

/-- What consumers of UTC read until the next boundary (R86). -/
def utcLatch (s : State) : State := { s with ltc := { s.ltc with utc := (s.reg (ltcR + LTC_UTCOFF_OFFSET.idx)).toNat } }

/-- A field of the latched `LTC_UTCOFF`. -/
def utcOf (s : State) (f : Fld) : Nat := bitsOf s.ltc.utc f.lo f.width
def utcOn (s : State) (f : Fld) : Bool := s.utcOf f != 0

/-- The time channel, while one disciplines the LTC (R78). -/
def timeChan (s : State) : Option Nat :=
  if s.on glbR GLB_TIMECHAN_EN then some (s.get glbR GLB_TIMECHAN_CHAN) else none

/-- A channel, a reference, an ensemble by number. -/
def chan (s : State) (c : Nat) : Chan := s.mil.getD c {}
def setChan (s : State) (c : Nat) (f : Chan → Chan) : State := { s with mil := s.mil.modify c f }
def ref (s : State) (i : Nat) : RefSt := s.prism.refs.getD i {}
def setRef (s : State) (i : Nat) (f : RefSt → RefSt) : State :=
  { s with prism := { s.prism with refs := s.prism.refs.modify i f } }

/-- State of the time channel as QUAL codes it: 1 FREE, 2 HOLD, 3 LOCK (R92). -/
def qualState (s : State) : Nat :=
  if !s.on ltcR LTC_STATUS_SET then 0 else
  match s.timeChan with
  | none => 1
  | some c =>
    match s.get (milR c) MIL_STATUS_STATE with
    | 0 => 1
    | 1 => if s.ltc.acqHold then 2 else 1
    | 2 => 3
    | 3 => 3
    | 4 => 3
    | _ => 2

/-- The error exponent, with the downgrade of R604. -/
def qualExp (s : State) : Nat :=
  let e := s.get ltcR LTC_STATUS_ERR
  if s.on wchR WCH_STATUS_DQ then min 31 (e + s.get wchR WCH_CFG_DEGE) else e

/-- QUAL of a time record (R92). -/
def qual (s : State) : Nat := s.get ltcR LTC_STATUS_STATE * 32 + s.qualExp

/-! ## Host memory -/

/-- Host memory that the part has not written holds no known byte. -/
def hostByte (s : State) (f addr : Nat) : Option Byte := memGet (fun _ => none) s.hostMem (f * 2 ^ 64 + addr)

/-- A write of bytes to the address space of function `f`, lowest address first. -/
def hostWrite (s : State) (f addr : Nat) : List Byte → State
  | [] => s
  | b :: bs =>
    hostWrite { s with hostMem := memPut (fun _ => none) s.hostMem (f * 2 ^ 64 + addr % 2 ^ 64) b } f (addr + 1) bs

/-! ## Free values -/

/-- A value the spec leaves open, `width` bits, fresh each time. -/
def fresh (s : State) (width : Nat) : Nat × State :=
  ((Config.freeValue s.free).toNat % 2 ^ width, { s with free := s.free + 1 })

/-! ## Events -/

/-- An occurrence of an event source, coalesced within its tick by source and instance (R131, R132). -/
def raiseAt (s : State) (tn ev inst data : Nat) : State :=
  let hit := fun (e : EvOcc) => e.ev == ev && e.inst == inst && e.tn == tn
  let evs :=
    if s.host.events.any hit then
      s.host.events.map (fun e => if hit e then { e with count := min 255 (e.count + 1), data := data } else e)
    else s.host.events ++ [⟨ev, inst, data, 1, tn⟩]
  { s with host := { s.host with events := evs } }

def raise (s : State) (ev inst data : Nat) : State := s.raiseAt s.tn ev inst data

end State

/-! ## Time records -/

/-- A time brought to 2⁻¹⁶ ns, ties up, carries taken (R90): seconds and 2⁻³² ns units in, seconds and 2⁻¹⁶ ns out. -/
def recTime (sec ns32 : Nat) : Nat × Nat :=
  let u := (ns32 + 2 ^ 15) / 2 ^ 16
  let sub := 1000000000 * 2 ^ 16
  (sec + u / sub, u % sub)

/-- The 128-bit time record of R89. -/
def timeRec (sec ns16 src kind spec qual seq : Nat) : Nat :=
  (sec % 2 ^ 48) * 2 ^ 80 + (ns16 / 2 ^ 16 % 2 ^ 30) * 2 ^ 50 + (ns16 % 2 ^ 16) * 2 ^ 34 +
  src % 256 * 2 ^ 26 + kind % 4 * 2 ^ 24 + spec % 2 * 2 ^ 23 + qual % 128 * 2 ^ 16 + seq % 2 ^ 16

namespace State

/-- LTC time in 2⁻³² ns, `pos` units past the last boundary. -/
def ltcRaw (s : State) (pos : Nat) : Nat := (s.ltc.sec * 1000000000 + s.ltc.ns) * 2 ^ 32 + s.ltc.frac + pos

/-- Units of 2⁻³² ns from where the LTC stands to the next boundary. -/
def tickRest (s : State) : Nat := 31250 * 2 ^ 32 - (s.ltc.ns % 31250 * 2 ^ 32 + s.ltc.frac)

/-- LTC nanoseconds left in the current tick (R31, R73). -/
def tickLeft (s : State) : Nat := 31250 - s.ltc.ns % 31250

/-- The same in 2 ps units. -/
def tickLeftUnits (s : State) : Nat := s.tickLeft * 500

end State

end Sys2Proof.Machine
end

