-- ==== Sys2Proof/Machine/Watch.lean ====
section
/-! DEFINITION. Watchman: recording an occurrence, starting, queueing and ending reactions (R600–R616). -/

namespace Sys2Proof.Machine

/-- The dependants of a source (R606). -/
def wfDependants : Nat → List Nat
  | 1 => [4, 6, 13]
  | 2 => [1, 4, 6, 13]
  | 4 => [1, 6, 13]
  | 5 => [6]
  | 13 => [1, 4, 6]
  | 17 => [10, 11, 12, 13, 24, 25, 26, 27, 28, 29, 30, 31]
  | 18 => [14, 24, 25, 26, 27, 28, 29, 30, 31]
  | _ => []

/-- A source the list of R606 names. -/
def wfListed (n : Nat) : Bool :=
  n ≤ 8 || (10 ≤ n && n ≤ 18) || (24 ≤ n && n ≤ 37) || n == 40 || n == 41 || (44 ≤ n && n ≤ 47)

/-- A source that has an isolation action other than "None" (R606). -/
def wfIsolates (n : Nat) : Bool :=
  n == 1 || n == 2 || n == 4 || (10 ≤ n && n ≤ 13) || (24 ≤ n && n ≤ 37)

/-- A source whose isolation action is the Reeve restart. -/
def wfRestartsReeve (n : Nat) : Bool := n == 1 || n == 2 || n == 4 || n == 13

namespace State

/-- A source that the variant has: sources of absent units never assert (R22). -/
def wfPresent (s : State) (n : Nat) : Bool :=
  wfListed n && (n != 11 || 0 < s.nHrd) && (n < 24 || 31 < n || n - 24 < s.nLom) &&
  (n < 32 || 37 < n || (n - 32) * 8 < s.nOut) && ((n != 40 && n != 41) || s.hasMir)

/-- The severity field of a source. -/
def sevField (n : Nat) : Fld := (WCH_SEV_SEV.at (n / 16)).up (2 * (n % 16)) |> fun f => { f with width := 2 }

/-- Effective severity (R603, R605, R614): WF00 is always SAFE, and under bad parity every other source reacts as
NOTE. -/
def effSev (s : State) (n : Nat) : Nat :=
  if n == 0 then 3 else if !s.wd.badPar.isEmpty then 0 else s.get wchR (sevField n)

/-- Bit maps of 96 sources over three registers. -/
def mapBit (f : Fld) (n : Nat) : Fld := (f.at (n / 32)).bit (n % 32)

def latched (s : State) (n : Nat) : Bool := s.on wchR (mapBit WCH_LAT_LAT n)

/-- `WCH_STATUS.SAFEHOLD` (R616): a latch bit of a SAFE occurrence, or of WF00, is set. -/
def syncSafehold (s : State) : State :=
  s.putB wchR WCH_STATUS_SAFEHOLD (s.wd.sev.any (fun e => (e.2 == 3 || e.1 == 0) && s.latched e.1))

/-- The quality downgrade of R604, taken at a boundary. -/
def syncDq (s : State) : State :=
  s.putB wchR WCH_STATUS_DQ (s.wd.sev.any (fun e => 1 ≤ e.2 && s.latched e.1))

def setWd (s : State) (f : WatchSt → WatchSt) : State := { s with wd := f s.wd }

/-- EV114 for a reaction of DEGRADE or higher (R603, R611). -/
def ev114 (s : State) (n sev : Nat) (queued esc : Bool) : State :=
  if sev = 0 then s else s.raise 114 n (sev + 4 * queued.toNat + 8 * esc.toNat)

/-- Suppression of a source's dependants until a boundary; none while the reaction runs (R612). -/
def suppress (s : State) (n : Nat) (until? : Option Nat) : State :=
  (wfDependants n).foldl
    (fun s d => s.setWd (fun w => { w with supp := (n, d, until?) :: w.supp.filter (fun e => !(e.1 == n && e.2.1 == d)) })) s

/-- A source whose occurrences are consequential now (R612). -/
def suppressed (s : State) (n : Nat) : Bool :=
  n != 0 && s.wd.supp.any (fun e => e.2.1 == n && match e.2.2 with | none => true | some b => s.prism.tick < b)

/-- What a reaction does at its start: EV114, the isolation action or SAFE entry it asks for, and suppression. -/
def startReaction (s : State) (n sev tick : Nat) (queued esc : Bool) : State :=
  let s := s.ev114 n sev queued esc
  let s :=
    if sev = 2 then
      s.setWd (fun w => { w with isol := w.isol ++
        [{ src := n, tick := tick, start := s.prism.tick + 1, done := if wfRestartsReeve n then s.prism.tick + 4 else s.prism.tick + 1 }] })
    else if sev = 3 then s.setWd (fun w => { w with safeAt := some (s.prism.tick + 1) })
    else s
  s.suppress n (if 2 ≤ sev then none else some (s.prism.tick + 3))

/-- The reaction that `WCH_STATUS` shows. -/
def makeCurrent (s : State) (n sev tick : Nat) : State :=
  let ends := if sev = 2 && wfRestartsReeve n then s.prism.tick + 4 else s.prism.tick + 1
  (((s.putB wchR WCH_STATUS_RACT true).put wchR WCH_STATUS_RSRC n).put wchR WCH_STATUS_RSEV sev).setWd
    (fun w => { w with cur := some ⟨tick, max ends (match w.cur with | some r => if sev = 2 then r.ends else 0 | none => 0)⟩ })

/-- A reaction that has to wait (R609). -/
def queueReaction (s : State) (n : Nat) : State :=
  ((s.putB wchR (mapBit WCH_PEND_PEND n) true).put wchR WCH_STATUS_QCNT (s.get wchR WCH_STATUS_QCNT + 1)).setWd
    (fun w => { w with qtick := (n, s.prism.tick) :: w.qtick })

/-- A new reaction against the current one (R609). -/
def react (s : State) (n sev : Nat) : State :=
  if sev = 3 && (s.mode = 13 || (s.wd.cur.isSome && s.get wchR WCH_STATUS_RSEV = 3)) then
    (s.ev114 n 3 false false).suppress n (some (s.prism.tick + 3))
  else
  match s.wd.cur with
  | none => (s.startReaction n sev s.prism.tick false false).makeCurrent n sev s.prism.tick
  | some r =>
    let cs := s.get wchR WCH_STATUS_RSEV
    let cn := s.get wchR WCH_STATUS_RSRC
    if cn = n then s
    else if sev < cs then s.queueReaction n
    else if sev = cs && sev = 2 then
      let s := s.startReaction n sev s.prism.tick false true
      s.setWd (fun w => { w with cur := some { r with ends := max r.ends (if wfRestartsReeve n then s.prism.tick + 4 else s.prism.tick + 1) } })
    else if sev = cs then s.startReaction n sev s.prism.tick false false
    else (s.startReaction n sev s.prism.tick false true).makeCurrent n sev s.prism.tick

/-- The first-fault record (R602). -/
def recordFirst (s : State) (n sev : Nat) (multi : Bool) : State :=
  if s.on wchR WCH_FIRST_VALID then s else
  let s := ((s.put wchR WCH_FIRST_SRC n).put wchR WCH_FIRST_SEV sev).putB wchR WCH_FIRST_MULTI multi
  (s.putB wchR WCH_FIRST_VALID true).put64 wchR WCH_FIRST_TN_LO_TN WCH_FIRST_TN_HI_TN s.tn

/-- A consequential occurrence (R612). -/
def consequential (s : State) (n : Nat) : State :=
  (s.putB wchR (mapBit WCH_CONS_CONS n) true).setWd
    (fun w => { w with ccnt := assocPut 0 w.ccnt n (min 65535 (assocD 0 w.ccnt n + 1)) })

/-- One occurrence (R600, R601, R612). `multi` says that other latch bits are set in the same cycle. -/
def occurOne (s : State) (n : Nat) (multi : Bool) : State :=
  if !s.wfPresent n then s
  else if s.suppressed n then s.consequential n
  else
    let s := s.setWd (fun w => { w with cnt := assocPut 0 w.cnt n (min 65535 (assocD 0 w.cnt n + 1)) })
    if s.latched n then s else
    let sev := s.effSev n
    let s := (s.putB wchR (mapBit WCH_LAT_LAT n) true).setWd
      (fun w => { w with sev := (n, sev) :: w.sev.filter (fun e => e.1 != n) })
    ((s.recordFirst n sev multi).react n sev).syncSafehold

/-- An occurrence of one source. -/
def occur (s : State) (n : Nat) : State := s.occurOne n false

/-- The source chosen among those of one cycle: highest severity, then lowest number (R602). -/
def chooseFirst (s : State) (l : List Nat) : Option Nat :=
  l.foldl (fun b n => match b with
    | none => some n
    | some m => if s.effSev m < s.effSev n || (s.effSev m = s.effSev n && n < m) then some n else b) none

/-- Occurrences that arrive in one core-clock cycle: the chosen one first, the others as arriving during its reaction
(R602, R609). -/
def occurMany (s : State) (l : List Nat) : State :=
  let fresh := l.filter (fun n => s.wfPresent n && !s.suppressed n && !s.latched n)
  match s.chooseFirst fresh with
  | none => l.foldl occur s
  | some n =>
    let others := fresh.filter (fun m => m != n && !(wfDependants n).contains m)
    (l.filter (· != n)).foldl occur (s.occurOne n (!others.isEmpty))

/-- The onset of a held condition, and its end (R600). -/
def heldStart (s : State) (n : Nat) : State :=
  if s.wd.held.contains n then s else (s.setWd (fun w => { w with held := w.held ++ [n] })).occur n

/-- What a condition that persists gives at a boundary (R600); the boundary at which a suppression ends still belongs to
it (R612, DEDUCED: log entry 21). -/
def heldBoundary (s : State) (n : Nat) : State :=
  if n != 0 && s.wd.supp.any (fun e => e.2.1 == n && e.2.2 = some s.prism.tick) then s.consequential n else s.occur n

def heldEnd (s : State) (n : Nat) : State := s.setWd (fun w => { w with held := w.held.filter (· != n) })

/-- A latch bit cleared by software: its downgrade, safe hold and queued reaction go (R609, R613). -/
def latchCleared (s : State) (n : Nat) : State :=
  let s := s.setWd (fun w => { w with sev := w.sev.filter (fun e => e.1 != n), qtick := w.qtick.filter (fun e => e.1 != n) })
  let s := if s.on wchR (mapBit WCH_PEND_PEND n) then
      (s.putB wchR (mapBit WCH_PEND_PEND n) false).put wchR WCH_STATUS_QCNT (s.get wchR WCH_STATUS_QCNT - 1)
    else s
  s.syncSafehold

/-- The first-fault record is cleared (R602). -/
def firstCleared (s : State) : State :=
  let s := (s.putB wchR WCH_FIRST_VALID false).put wchR WCH_FIRST_SRC 0
  let s := (s.put wchR WCH_FIRST_SEV 0).put wchR WCH_FIRST_MULTI 0
  (s.put wchR WCH_FIRST_TN_LO_TN 0).put wchR WCH_FIRST_TN_HI_TN 0

/-- A queued reaction leaves the queue and starts (R609). -/
def startQueued (s : State) (n sev : Nat) : State :=
  let s := (s.putB wchR (mapBit WCH_PEND_PEND n) false).put wchR WCH_STATUS_QCNT (s.get wchR WCH_STATUS_QCNT - 1)
  let tick := assocD s.prism.tick s.wd.qtick n
  let s := s.setWd (fun w => { w with qtick := w.qtick.filter (fun e => e.1 != n) })
  let s := s.startReaction n sev tick true false
  if s.wd.cur.isSome then s else s.makeCurrent n sev tick

/-- Queued sources in the order they start: severity, then number. -/
def queueOrder (s : State) : List (Nat × Nat) :=
  let q := (List.range 96).filter (fun n => s.on wchR (mapBit WCH_PEND_PEND n))
  let sv := fun n => assocD 0 s.wd.sev n
  ([3, 2, 1, 0].map (fun v => (q.filter (fun n => sv n == v)).map (fun n => (n, v)))).flatten

/-- Tick count at which the last isolation action of a source that still runs is complete, now where none runs (R607, R612). -/
def actionEnd (s : State) (n : Nat) : Nat :=
  (s.wd.isol.filter (fun x => x.src = n)).foldl (fun t x => max t x.done) s.prism.tick

/-- The end of the current reaction at a boundary (R607, R609, R612). -/
def endReaction (s : State) : State :=
  let s := (((s.putB wchR WCH_STATUS_RACT false).put wchR WCH_STATUS_RSRC 0).put wchR WCH_STATUS_RSEV 0).setWd (fun w => { w with
    cur := none
    supp := (w.supp.map (fun e => if e.2.2.isNone then (e.1, e.2.1, some (s.actionEnd e.1 + 2)) else e)).filter
      (fun e => match e.2.2 with | none => true | some b => s.prism.tick < b) })
  let q := s.queueOrder
  match q.find? (fun e => 2 ≤ e.2) with
  | some (n, sev) => s.startQueued n sev
  | none => q.foldl (fun s e => s.startQueued e.1 e.2) s

end State

end Sys2Proof.Machine
end

