-- ==== Sys2Proof/Machine/Granary.lean ====
section
/-! DEFINITION. Granary: working SRAM, page stores, passwords, PF marks, recovery, wear counters and the tamper pins that
log into it (R238–R241, R573–R599). -/

namespace Sys2Proof.Machine

/-- Bytes of BAR4 (R576). -/
def granSize : Nat := 524288

/-- What an unwritten byte of the SRAM and of a shadow copy holds (R575): the factory calibration set in CAL, zero
elsewhere. -/
def granDflt (a : Nat) : Option Byte := some (if a % granSize < 32768 then Config.calByte (a % granSize) else 0)

/-- The region of a page (R573): 0 CAL, 1 CFG, 2 LOG, 3 USER. -/
def granRegion (p : Nat) : Nat := if p < 64 then 0 else if p < 320 then 1 else if p < 768 then 2 else 3

/-- One step of the IEEE 802.3 CRC-32, reflected. -/
def crcBit (c : Nat) : Nat := if c % 2 = 1 then (c / 2) ^^^ 0xEDB88320 else c / 2
def crcByte (c : Nat) (b : Byte) : Nat :=
  crcBit (crcBit (crcBit (crcBit (crcBit (crcBit (crcBit (crcBit (c ^^^ b.toNat))))))))
def crc32 (l : List Byte) : Nat := (l.foldl crcByte 0xFFFFFFFF) ^^^ 0xFFFFFFFF

/-- A valid copy (R574). -/
def Copy.valid (c : Copy) : Bool := c.crc && c.commit

namespace State

def setGran (s : State) (f : GranSt → GranSt) : State := { s with gran := f s.gran }

def sramByte (s : State) (o : Nat) : Byte := (memGet granDflt s.gran.sram o).getD 0
def shadowByte (s : State) (copy o : Nat) : Byte := (memGet granDflt s.gran.shadow (copy * granSize + o)).getD 0

def sramWrite (s : State) (o : Nat) : List Byte → State
  | [] => s
  | b :: bs => sramWrite (s.setGran (fun g => { g with sram := memPut granDflt g.sram o b })) (o + 1) bs

/-- Bytes of the SRAM. -/
def sramRead (s : State) (o n : Nat) : List Byte := (List.range n).map (fun i => s.sramByte (o + i))

/-- `n` bytes of the SRAM copied into a shadow copy, or of a shadow copy into the SRAM. -/
def copyOut (s : State) (copy p : Nat) : State :=
  (List.range 512).foldl (fun s i =>
    s.setGran (fun g => { g with shadow := memPut granDflt g.shadow (copy * granSize + p * 512 + i) (s.sramByte (p * 512 + i)) })) s

def copyIn (s : State) (copy p : Nat) : State :=
  s.sramWrite (p * 512) ((List.range 512).map (fun i => s.shadowByte copy (p * 512 + i)))

def setDirty (s : State) (p : Nat) : State :=
  s.setGran (fun g => { g with dirty := if g.dirty.contains p then g.dirty else p :: g.dirty })

def pageSt (s : State) (p : Nat) : PageSt := assocD {} s.gran.pages p
def setPage (s : State) (p : Nat) (f : PageSt → PageSt) : State :=
  s.setGran (fun g => { g with pages := assocPut {} g.pages p (f (assocD {} g.pages p)) })

/-- `GRN_STATUS` follows queue, requests and the running store. -/
def granStatus (s : State) : State :=
  let s := (s.putB grnR GRN_STATUS_BUSY s.gran.busy.isSome).put grnR GRN_STATUS_BPAGE (s.gran.busy.getD 0)
  (s.put grnR GRN_STATUS_QUEUED s.gran.queue.length).put grnR GRN_STATUS_OPEN s.gran.reqs.length

/-- A page is queued for a store; a queued page keeps its place (R583). -/
def queuePage (s : State) (p : Nat) (force : Bool) : State :=
  let q := if s.gran.queue.any (·.1 == p) then s.gran.queue.map (fun e => if e.1 == p then (p, e.2 || force) else e)
    else s.gran.queue ++ [(p, force)]
  (s.setGran (fun g => { g with queue := q })).granStatus

/-- A store request of `n` pages from `first` (R584); false when sixteen are open. -/
def storeRequest (s : State) (first n : Nat) (force tamper : Bool) : State × Bool :=
  if 16 ≤ s.gran.reqs.length then (s, false) else
  let pages := (List.range n).map (first + ·)
  let s := s.setGran (fun g => { g with reqs := g.reqs ++ [{ first := first, left := pages, tamper := tamper }] })
  ((pages.foldl (fun s p => s.queuePage p force) s).granStatus, true)

/-! ## Passwords (R579, R580) -/

def pwIdx (region kind : Nat) : Nat := region * 2 + kind

/-- A kind of access to a region is open or unlocked. -/
def granOpen (s : State) (region kind : Nat) : Bool :=
  s.gran.pw.getD (pwIdx region kind) 0 = 0 || s.gran.unl.getD (pwIdx region kind) false

def bits4 (f : Nat → Bool) : Nat := (f 0).toNat + 2 * (f 1).toNat + 4 * (f 2).toNat + 8 * (f 3).toNat

/-- `GRN_LOCKST` follows the passwords. -/
def lockStatus (s : State) : State :=
  let s := (s.put grnR GRN_LOCKST_RUNL (bits4 (fun r => s.granOpen r 0))).put grnR GRN_LOCKST_WUNL (bits4 (fun r => s.granOpen r 1))
  (s.put grnR GRN_LOCKST_RZERO (bits4 (fun r => s.gran.pw.getD (pwIdx r 0) 0 = 0))).put grnR GRN_LOCKST_WZERO
    (bits4 (fun r => s.gran.pw.getD (pwIdx r 1) 0 = 0))

/-- Unlock with a password; after the limit nothing changes and nothing is flagged (R580, DEDUCED: log entry 25). -/
def granUnlock (s : State) (region kind pw : Nat) : State :=
  if s.on grnR GRN_LOCKST_PWLIM then s
  else if s.gran.pw.getD (pwIdx region kind) 0 = pw then
    (s.setGran (fun g => { g with unl := g.unl.set (pwIdx region kind) true })).lockStatus
  else
    let n := s.get grnR GRN_LOCKST_FAILS + 1
    (s.put grnR GRN_LOCKST_FAILS (min n 16)).putB grnR GRN_LOCKST_PWLIM (16 ≤ n)

def granLock (s : State) (region kind : Nat) : State :=
  (s.setGran (fun g => { g with unl := g.unl.set (pwIdx region kind) false })).lockStatus

def granSetPw (s : State) (region kind pw : Nat) : State :=
  if !s.granOpen region 1 then s else
  (s.setGran (fun g => { g with pw := g.pw.set (pwIdx region kind) pw, unl := g.unl.set (pwIdx region kind) true })).lockStatus

/-- Every region whose password is not zero is locked: a reset or an FLR of PF0 (R580). -/
def granLockAll (s : State) : State := (s.setGran (fun g => { g with unl := List.replicate 8 false })).lockStatus

/-! ## BAR4 (R576–R579) -/

/-- The parts of an access, page by page: page, offset, bytes. -/
def granParts (o : Nat) (bs : List Byte) : List (Nat × Nat × List Byte) :=
  (List.range (o % 512 + bs.length + 511)).filterMap (fun i =>
    if i % 512 != 0 then none else
    let p := o / 512 + i / 512
    let lo := max o (p * 512)
    let hi := min (o + bs.length) ((p + 1) * 512)
    if hi ≤ lo then none else some (p, lo, (bs.drop (lo - o)).take (hi - lo)))

/-- A page written while a power-fail store runs joins it, unless its turn has passed (R586). -/
def pfJoin (s : State) (p : Nat) : State :=
  let g := s.gran
  if !g.pf || !g.marks.contains p || g.queue.any (·.1 == p) || Option.any (fun (q : Nat) => p ≤ q) g.pfAt then s else
  (s.setGran (fun g => { g with queue := g.queue.takeWhile (·.1 < p) ++ (p, false) :: g.queue.dropWhile (·.1 < p) })).granStatus

/-- A write to one page. -/
def granWritePart (s : State) (p o : Nat) (bs : List Byte) : State :=
  if !s.granOpen (granRegion p) 1 then
    (s.putB grnR GRN_ERR_WLOCK true).put grnR GRN_ERR_PAGE p
  else
    let s := if s.gran.busy = some p then s.setGran (fun g => { g with held := g.held ++ [(o, bs)] })
      else ((s.sramWrite o bs).setDirty p).pfJoin p
    if s.on grnR GRN_CFG_AUTO then s.queuePage p false else s

def granWrite (s : State) (o : Nat) (bs : List Byte) : State :=
  (granParts o bs).foldl (fun s x => s.granWritePart x.1 x.2.1 x.2.2) s

/-- What a read of one byte gives, and the error it leaves. -/
def granReadByte (s : State) (o : Nat) : Byte :=
  let p := o / 512
  if !s.granOpen (granRegion p) 0 || s.gran.busy = some p then 0 else s.sramByte o

def granRead (s : State) (o n : Nat) : State :=
  let bs := (List.range n).map (fun i => s.granReadByte (o + i))
  let s := (granParts o bs).foldl (fun s x =>
    let p := x.1
    if !s.granOpen (granRegion p) 0 then (s.putB grnR GRN_ERR_RLOCK true).put grnR GRN_ERR_PAGE p
    else if s.gran.busy = some p then (s.putB grnR GRN_ERR_BUSYPAGE true).put grnR GRN_ERR_PAGE p
    else s) s
  { s with bus := { rdata := bs, abort := false } }

/-! ## Tamper pins (R238–R240) -/

/-- Next SEQ of a SRC (R93). -/
def nextSeq (s : State) (src : Nat) : Nat × State :=
  let n := assocD 0 s.seqs src
  (n, { s with seqs := assocPut 0 s.seqs src ((n + 1) % 2 ^ 16) })

/-- A record written into the log's page and its store requested. -/
def tamperWrite (s : State) (r : Nat) : State :=
  let n := 32 * s.get glbR GLB_TMP_LOG_COUNT
  if n = 0 then s else
  let pos := s.get glbR GLB_TMP_NEXT_NEXT % n
  let page := s.get glbR GLB_TMP_LOG_FIRST + pos / 32
  let s := (s.sramWrite (page * 512 + pos % 32 * 16) (leBytes 16 r)).setDirty page
  let s := s.put glbR GLB_TMP_NEXT_NEXT ((pos + 1) % n)
  let s := if s.tmp.wrapped then s.putB glbR GLB_TMP_STATUS_WRAP true else s
  let s := if pos + 1 = n then { s with tmp := { s.tmp with wrapped := true } } else s
  let (s, ok) := s.storeRequest page 1 false true
  { s with tmp := { s.tmp with storing := ok } }

/-- The log takes a record, keeps it waiting, or loses it (R239). -/
def tamperLog (s : State) (r : Nat) : State :=
  if s.get glbR GLB_TMP_LOG_COUNT = 0 then s
  else if !s.tmp.storing then s.tamperWrite r
  else if s.tmp.queue.length < 16 then { s with tmp := { s.tmp with queue := s.tmp.queue ++ [r] } }
  else s.bump glbR GLB_TMP_STATUS_LOST

/-- The store of a log page ended: the next waiting record is written. -/
def tamperNext (s : State) : State :=
  let s := { s with tmp := { s.tmp with storing := false } }
  match s.tmp.queue with
  | [] => s
  | r :: q => { s with tmp := { s.tmp with queue := q } }.tamperWrite r

/-- A wear-counter increment is asked for (R597). -/
def wearInc (s : State) (c : Nat) : State :=
  s.setGran (fun g => { g with wear := g.wear.modify c (fun w => if w.now = 0 then { w with now := 1 } else { w with pend := w.pend + 1 }) })

/-- The value of a counter latched at once (R599). -/
def wearLatch (s : State) : State :=
  let w := s.gran.wear.getD (s.get grnR GRN_WC_SEL_CTR) {}
  let s := (s.put grnR GRN_WC_LO_VALUE (w.value % 2 ^ 32)).put grnR GRN_WC_HI_VALUE (w.value / 2 ^ 32)
  (s.putB grnR GRN_WC_HI_WORN w.worn).putB grnR GRN_WC_HI_PEND (0 < w.now)

/-- The step being written ends; what came since is written as the next one; `worn` cells are skipped (R597). -/
def wearWrite (s : State) (c : Nat) (worn : Bool) : State :=
  let w := s.gran.wear.getD c {}
  if w.now = 0 then s else
  let w' : WearSt := { value := min (w.value + w.now) (2 ^ 48 - 1), now := w.pend, pend := 0, worn := w.worn || worn }
  let s := s.setGran (fun g => { g with wear := g.wear.set c w' })
  if worn then s.raise 113 0 5 else s

/-- A tamper-pin edge `ns` into the tick, its new level then held for `hold` ns: stamped and logged if that is FILT, or any
edge latched in M1 (R238–R240). -/
def tamperEdge (s : State) (pin : Nat) (rising : Bool) (ns hold : Nat) : State :=
  let en := if pin = 0 then s.on glbR GLB_TMP_CFG_EN0 else s.on glbR GLB_TMP_CFG_EN1
  let sl := if pin = 0 then s.get glbR GLB_TMP_CFG_SLOPE0 else s.get glbR GLB_TMP_CFG_SLOPE1
  let s := s.putB glbR (if pin = 0 then GLB_TMP_STATUS_LVL0 else GLB_TMP_STATUS_LVL1) rising
  if !en then s
  else if s.mode = 1 then
    { s.putB glbR (if pin = 0 then GLB_TMP_STATUS_EMB0 else GLB_TMP_STATUS_EMB1) true with
      tmp := { s.tmp with seq := s.tmp.seq.set pin 1 } }
  else if s.mode < 3 || !(sl = 2 || (sl = 0 && rising) || (sl = 1 && !rising)) ||
    hold < s.get glbR GLB_TMP_CFG_FILT * 1000 then s
  else
    let t := s.ltc.ns + ns
    let (q, s) := s.nextSeq (0x50 + pin)
    let r := timeRec (s.ltc.sec + t / 1000000000) (t % 1000000000 * 65536) (0x50 + pin) (if rising then 0 else 1) 0 s.qual q
    (((s.raise (74 + pin) 0 rising.toNat).tamperLog r).wearInc 3)

/-- Latches of M1 EMBER that are still set are reported on the return to a run mode (R240). -/
def tamperReport (s : State) : State :=
  let s := [0, 1].foldl (fun s pin =>
    if s.tmp.seq.getD pin 0 = 1 && s.on glbR (if pin = 0 then GLB_TMP_STATUS_EMB0 else GLB_TMP_STATUS_EMB1) then
      let lvl := s.get glbR (if pin = 0 then GLB_TMP_STATUS_LVL0 else GLB_TMP_STATUS_LVL1)
      s.raise (74 + pin) 0 (lvl + 2)
    else s) s
  { s with tmp := { s.tmp with seq := [0, 0] } }

/-! ## Page stores (R582–R584, R596) -/

/-- The running store ended, well or not, or page `p` was skipped: requests take note (R584). One that asked for the busy page
after its store had begun waits for the page's next turn (R583). -/
def reqDone (s : State) (p : Nat) (stored failed : Bool) : State :=
  let note := fun (r : StoreReq) =>
    if stored || failed then
      if r.now then { r with now := false, stored := r.stored + stored.toNat, failed := r.failed || failed } else r
    else { r with left := r.left.filter (· != p) }
  let over' := fun (r : StoreReq) => r.left.isEmpty && !r.now
  let s := s.setGran (fun g => { g with reqs := g.reqs.map note })
  let done := s.gran.reqs.filter over'
  let s := s.setGran (fun g => { g with reqs := g.reqs.filter (fun r => !over' r) })
  let s := done.foldl (fun s r => s.raise 112 r.first (r.stored + r.failed.toNat * 2048)) s
  let s := if done.any (·.tamper) then s.tamperNext else s
  s.granStatus

/-- The first queued page that is dirty or forced starts; clean ones are skipped (R583). -/
def takePages (s : State) : List (Nat × Bool) → State
  | [] => s
  | (p, force) :: r =>
    let s := s.setGran (fun g => { g with queue := g.queue.filter (·.1 != p) })
    if force || s.gran.dirty.contains p then
      let s := s.setGran (fun g => { g with
        busy := some p, dirty := g.dirty.filter (· != p), pfAt := if g.pf then some p else none
        reqs := g.reqs.map (fun r => if r.left.contains p then { r with left := r.left.filter (· != p), now := true } else r) })
      -- the copy that is not current is being written (R582)
      (s.setPage p (fun x => if x.curB then { x with a := { x.a with crc := false, commit := false } }
        else { x with b := { x.b with crc := false, commit := false } })).granStatus
    else takePages (s.reqDone p false false) r

def pageStoreStart (s : State) : State :=
  if s.gran.busy.isSome || s.mode < 3 then s else s.takePages s.gran.queue

/-- The end of a power-fail store: journal end (R586). -/
def pfEnd (s : State) : State :=
  let g := s.gran
  if g.pf && g.busy.isNone && g.queue.all (fun e => !g.marks.contains e.1) then
    s.setGran (fun g => { g with pf := false, pfAt := none, journal := false })
  else s

/-- The running store commits, or fails on a second mismatch (R582, R596). -/
def pageStoreComplete (s : State) (ok : Bool) : State :=
  match s.gran.busy with
  | none => s
  | some p =>
    let x := s.pageSt p
    let cur := if x.curB then x.b else x.a
    let s := if ok then
        let s := s.copyOut (if x.curB then 0 else 1) p
        let c : Copy := { seq := cur.seq + 1, crc := true, commit := true }
        let s := s.setPage p (fun x => if x.curB then { x with a := c, curB := false } else { x with b := c, curB := true })
        if s.gran.pfAt = some p then (s.setGran (fun g => { g with pfLast := p })).put grnR GRN_PFCNT_PFLAST p else s
      else
        let s := (s.setDirty p).putB grnR GRN_ERR_VERIFY true
        (s.put grnR GRN_ERR_PAGE p).raise 113 p 2
    let held := s.gran.held
    let s := s.setGran (fun g => { g with busy := none, held := [] })
    let s := held.foldl (fun s w => (s.sramWrite w.1 w.2).setDirty p) s
    let s := (s.reqDone p ok (!ok)).pfEnd
    if ok then s else s.occur 44

/-- The power-fail store begins (R586): queued pages that are not eligible are dropped without EV112, the journal start
is written, and every dirty eligible page is queued in ascending order, before the clean ones already queued. -/
def pfStore (s : State) : State :=
  let g := s.gran
  let pages := (List.range 1024).filter (fun p => g.marks.contains p && g.dirty.contains p)
  let reqs := g.reqs.map (fun r => { r with left := r.left.filter g.marks.contains })
  let gone := fun (r : StoreReq) => r.left.isEmpty && !r.now
  let rest := g.queue.filter (fun e => g.marks.contains e.1 && !pages.contains e.1)
  let s := s.setGran (fun g => { g with
    pf := true, pfAt := none, journal := true, pfLast := 0, reqs := reqs.filter (fun r => !gone r)
    queue := pages.map (fun p => (p, false)) ++ rest })
  let s := ((s.put grnR GRN_PFCNT_PFLAST 0).wearInc 0).granStatus
  let s := if reqs.any (fun r => r.tamper && gone r) then s.tamperNext else s
  s.pfEnd

/-! ## PF marks (R585) -/

def granMarks (s : State) (marks : List Nat) : State :=
  let s := s.setGran (fun g => { g with marks := marks })
  let s := s.putSat grnR GRN_PFCNT_MARKED marks.length
  (List.range 32).foldl (fun s k =>
    s.put grnR (GRN_PFMAP_MAP.at k) (((List.range 32).filter (fun b => marks.contains (k * 32 + b))).foldl (fun a b => a + 2 ^ b) 0)) s

/-- Marks of a range set or cleared; false when more than 256 pages would be marked. -/
def pfMark (s : State) (first n : Nat) (set : Bool) : State × Bool :=
  let range := (List.range n).map (first + ·)
  let marks := if set then (List.range 1024).filter (fun p => s.gran.marks.contains p || range.contains p)
    else s.gran.marks.filter (fun p => !range.contains p)
  if set && 256 < marks.length then (s, false) else (s.granMarks marks, true)

/-! ## Recovery (R588–R591) -/

/-- Whether two copies of a page hold the same bytes. -/
def copiesEqual (s : State) (p : Nat) : Bool :=
  (List.range 512).all (fun i => s.shadowByte 0 (p * 512 + i) = s.shadowByte 1 (p * 512 + i))

/-- One page: the current copy is found, and the SRAM filled unless it was retained. -/
def recoverPage (s : State) (p : Nat) : State :=
  let x := s.pageSt p
  let retained := s.gran.retained
  let zero := fun (s : State) => if retained then s else s.sramWrite (p * 512) (List.replicate 512 0)
  if !x.a.valid && !x.b.valid then
    let s := (s.putB grnR GRN_ERR_NOCOPY true).put grnR GRN_ERR_PAGE p
    let s := ((s.raise 113 p 0).occur 45).setGran (fun g => { g with lost := g.lost ++ [p] })
    zero s
  else
    let tie := x.a.valid && x.b.valid && x.a.seq = x.b.seq && !s.copiesEqual p
    let useB := x.b.valid && (!x.a.valid || x.a.seq < x.b.seq)
    let s := if tie then
        let s := if 0 < s.get grnR GRN_TIE_COUNT then s else ((s.putB grnR GRN_TIE_SET true).put grnR GRN_TIE_PAGE p).raise 113 p 1
        s.bump grnR GRN_TIE_COUNT
      else s
    let s := s.setPage p (fun x => { x with curB := useB })
    if retained then s else s.copyIn (if useB then 1 else 0) p

/-- Recovery starts: nothing is queued, requested or running. -/
def recoverStart (s : State) : State :=
  ((s.put grnR GRN_TIE_COUNT 0).putB grnR GRN_STATUS_RET s.gran.retained).setGran
    (fun g => { g with lost := [], queue := [], reqs := [], busy := none, held := [], pf := false })

def recoverPages (s : State) : State := (List.range 1024).foldl recoverPage s

/-- What recovery reports after the pages: the power-fail journal, marks and locks (R588, R591). -/
def recoverEnd (s : State) : State :=
  let s := if s.gran.retained then s else s.setGran (fun g => { g with dirty := [] })
  let s := s.put grnR GRN_PFCNT_PFLAST s.gran.pfLast
  let s := if s.gran.journal then
      (s.putB grnR GRN_STATUS_PFCUT true).raise 113 s.gran.pfLast 3
    else s
  let s := s.setGran (fun g => { g with journal := false })
  ((s.granMarks s.gran.marks).lockStatus).granStatus

def granRecover (s : State) : State := ((s.recoverStart).recoverPages).recoverEnd

end State

end Sys2Proof.Machine
end

