-- ==== Sys2Proof/Machine/Rings.lean ====
section
/-! DEFINITION. Rings: entries, completions, events, write-backs, vectors and doorbells (R102–R136). -/

namespace Sys2Proof.Machine

/-- The status codes of R122. -/
inductive Status
  | ok | late | zeroLen | unsupported | inval | denied | fault
deriving DecidableEq, Repr

def Status.code : Status → Nat
  | .ok => 0 | .late => 1 | .zeroLen => 2 | .unsupported => 3 | .inval => 4 | .denied => 5 | .fault => 6

namespace State

def ringSt (s : State) (b : Nat) : RingSt := assocD {} s.host.rings b
def setHost (s : State) (f : HostSt → HostSt) : State := { s with host := f s.host }
def setRing (s : State) (b : Nat) (f : RingSt → RingSt) : State :=
  s.setHost (fun h => { h with rings := assocPut {} h.rings b (f (assocD {} h.rings b)) })

/-- A ring is enabled while LOG2SIZE is not 0 (R104). -/
def ringOn (s : State) (b : Nat) : Bool := s.on b GLB_RING_CFG_LOG2SIZE

/-- The function that owns a ring block (R102, R106): the key's own for function-relative blocks, OWNER otherwise. -/
def ringOwner (s : State) (b : Nat) : Nat := if b < 0x200 || 2 ^ 20 ≤ b then b / 2 ^ 20 else s.get b GLB_RING_CFG_OWNER

/-- The place of a ring as its registers give it. -/
def ringRegs (s : State) (b : Nat) : RingUse :=
  { log := s.get b GLB_RING_CFG_LOG2SIZE
    base := s.get b GLB_RING_BASE_LO_ADDR * 64 + 2 ^ 32 * s.get b GLB_RING_BASE_HI_ADDR
    wb := s.get b GLB_RING_WB_LO_ADDR * 8 + 2 ^ 32 * s.get b GLB_RING_WB_HI_ADDR
    owner := s.ringOwner b }

/-- What the part uses: a ring disabled in this tick stays in use as it was until the next boundary (R107). -/
def ringUse (s : State) (b : Nat) : RingUse := (s.ringSt b).closing.getD (s.ringRegs b)

/-- The part uses the ring. -/
def ringLive (s : State) (b : Nat) : Bool := (s.ringUse b).log != 0
def ringSize (s : State) (b : Nat) : Nat := 2 ^ (s.ringUse b).log
def ringIdx (s : State) (b : Nat) : Nat := s.get b GLB_RING_IDX_IDX

/-- Entries the host has not returned (R103, R113). -/
def ringFill (s : State) (b : Nat) : Nat := (s.ringIdx b + 2 ^ 32 - (s.ringSt b).host) % 2 ^ 32

/-- A part-filled ring has a slot that is not reserved. -/
def ringRoom (s : State) (b : Nat) : Bool := s.ringLive b && s.ringFill b + (s.ringSt b).reserved < s.ringSize b

/-- The transactions that carry `len` bytes of a function, a class and a ring: none has more than 512 bytes, as the bound of R138
needs (log entry 60). -/
def pieces (f cls ring len : Nat) : List Backlog :=
  List.replicate (len / 512) ⟨f, cls, ring, 512⟩ ++ (if len % 512 = 0 then [] else [⟨f, cls, ring, len % 512⟩])

/-- What the part has to send upstream, charged to a function, a class and a ring (R137). -/
def charge (s : State) (f cls ring len : Nat) : State := s.setHost (fun h => { h with up := h.up ++ pieces f cls ring len })

/-- PHASE of the entry with index `i` (R108). -/
def ringPhase (s : State) (b i : Nat) : Nat := 1 - i / s.ringSize b % 2

/-- The unconsumed entries of a ring have risen to THRESH or above, and have not been below it since (R135). -/
def risen (s : State) (b : Nat) : Bool :=
  let th := s.get b GLB_RING_THRESH_THRESH
  th != 0 && th ≤ s.ringFill b && !(s.ringSt b).above

/-- The entry at the producer index is written and the index moves on (R103). -/
def ringPut (s : State) (b : Nat) (esize : Nat) (bytes : List Byte) : State :=
  let i := s.ringIdx b
  let u := s.ringUse b
  let s := s.hostWrite u.owner (u.base + i % s.ringSize b * esize) bytes
  let s := s.put b GLB_RING_IDX_IDX (i + 1)
  let up := s.risen b
  s.setRing b (fun r => { r with wrote := true, above := r.above || up, rose := r.rose + up.toNat })

/-- A vector of a function is due (R135). -/
def vecDue (s : State) (f v : Nat) : State :=
  s.setHost (fun h => if h.vecs.contains (f, v) then h else { h with vecs := h.vecs ++ [(f, v)] })

/-- A dword of the MSI-X table; a vector is masked after reset. -/
def msixWord (s : State) (f d : Nat) : Nat := (assocD (if d % 4 = 3 then (1 : Word) else 0) s.host.msix (f * 256 + d)).toNat

/-- The message of a vector, or its pending bit while it is masked (R135; log entry 24). The table of R137 names no class for
messages: they are charged to none (log entry 66). -/
def msixSend (s : State) (f v : Nat) : State :=
  if s.msixWord f (4 * v + 3) % 2 = 1 then
    s.setHost (fun h => if h.pba.contains (f, v) then h else { h with pba := h.pba ++ [(f, v)] })
  else
    let s := s.setHost (fun h => { h with pba := h.pba.filter (· != (f, v)) })
    s.hostWrite f (s.msixWord f (4 * v) + 2 ^ 32 * s.msixWord f (4 * v + 1)) (leBytes 4 (s.msixWord f (4 * v + 2)))

/-- A vector is signalled at the end of a tick once its interval has passed (R135, R136). -/
def msixSignal (s : State) (f v : Nat) : State :=
  let gap := max 1 (s.get (fglbR f) GLB_IRQ_MOD_TICKS)
  if !s.host.vecs.contains (f, v) then s
  else if s.host.sigs.any (fun e => e.1 == f && e.2.1 == v && s.prism.tick < e.2.2 + gap) then s
  else
    (s.setHost (fun h => { h with
      vecs := h.vecs.filter (· != (f, v)),
      sigs := (f, v, s.prism.tick) :: h.sigs.filter (fun e => !(e.1 == f && e.2.1 == v)) })).msixSend f v

/-- Every vector that is due. -/
def msixAll (s : State) : State := s.host.vecs.foldl (fun s x => s.msixSignal x.1 x.2) s

/-- Ring traffic has ended after entry to M13 (R112). -/
def ringsHalted (s : State) : Bool := match s.host.haltAt with | some t => t < s.prism.tick | none => false

/-- The entry boundary of M13 has come (R615). -/
def safeDue (s : State) : Bool := Option.any (fun (b : Nat) => b ≤ s.prism.tick) s.wd.safeAt

/-- Capture, statistics and packet RX rings receive nothing after the entry boundary (R112). -/
def dataHalted (s : State) : Bool := s.mode = 13 || s.safeDue || s.ringsHalted

/-! ## Completions -/

/-- A completion (R121) in the completion ring `k` of function `f`; a slot was reserved for it (R110). -/
def complete (s : State) (f cls k tag opc status idx applied : Nat) : State :=
  let b := fringR f (4 + k)
  let s := s.setRing b (fun r => { r with reserved := r.reserved - 1 })
  let s := if status ≤ 1 then s.bump rveR RVE_CMDCNT_APPLIED else s.bump rveR RVE_CMDCNT_REJECTED
  let s := if status = 1 then s.bump glbR GLB_OVR_RVE_LATE else s
  if !s.ringLive b || s.ringsHalted then s.bump b GLB_RING_DROP_COUNT else
  if s.ringSize b ≤ s.ringFill b then s.bump b GLB_RING_DROP_COUNT else
  let v := tag % 2 ^ 16 + opc % 256 * 2 ^ 16 + status * 2 ^ 24 + idx % 2 ^ 24 * 2 ^ 32 + k * 2 ^ 56 + cls * 2 ^ 58 +
    s.ringPhase b (s.ringIdx b) * 2 ^ 63 + applied % 2 ^ 64 * 2 ^ 64
  let s := (s.ringPut b 16 (leBytes 16 v)).charge f (if cls = 2 then 4 else 0) k 16
  if s.on b GLB_RING_CFG_IRQ_EN then s.vecDue f (s.get b GLB_RING_CFG_VEC) else s

/-- The end of a descriptor: its completion is written and its FENCE hold ends (R117, R121). -/
def finish (s : State) (d : Desc) (st : Status) (applied : Nat) : State :=
  let s := s.complete d.func d.cls d.ring d.tag d.opc st.code d.idx applied
  let rb := fringR d.func (d.ring + (match d.cls with | 0 => 0 | 1 => 9 | _ => 13))
  s.setRing rb (fun r => if r.fence = some d.idx then { r with fence := none, resume := s.prism.tick + 1 } else r)

/-- A descriptor discarded without a completion: its reserved slot is freed and its FENCE hold ends (R117). -/
def discard (s : State) (d : Desc) : State :=
  let s := s.setRing (fringR d.func (4 + d.ring)) (fun r => { r with reserved := r.reserved - 1 })
  s.setRing (fringR d.func (d.ring + (match d.cls with | 0 => 0 | 1 => 9 | _ => 13)))
    (fun r => if r.fence = some d.idx then { r with fence := none } else r)

/-- Staged commands, and LTC steps still due (R75), are discarded without completions (R57, R99, R112, R608). -/
def discardStaged (s : State) (which : Staged → Bool) : State :=
  let gone := s.host.staged.filter which
  let steps := s.ltc.due.filter which
  let s := (gone ++ steps).foldl (fun s x => s.discard x.d) s
  let s := { s with ltc := { s.ltc with due := s.ltc.due.filter (fun x => !which x) } }
  let s := s.setHost (fun h => { h with staged := h.staged.filter (fun x => !which x) })
  s.put rveR RVE_STAGE_COUNT s.host.staged.length

/-! ## Events -/

/-- Routing of a source in a function (R134). -/
def evRoute (s : State) (f ev : Nat) : Bool × Nat :=
  let g := fun (x : Fld) => (x.at (ev / 4)).up (8 * (ev % 4))
  (s.on (fglbR f) (g GLB_EV_ROUTE_EN), s.get (fglbR f) (g GLB_EV_ROUTE_VEC))

/-- One entry in the event ring of a function, or its loss (R111, R131). -/
def writeEvent (s : State) (f : Nat) (e : EvOcc) : State :=
  let b := fringR f 8
  let (en, vec) := s.evRoute f e.ev
  if !en then s else
  if !s.ringLive b then s else
  if s.ringSize b ≤ s.ringFill b then
    (s.bump b GLB_RING_DROP_COUNT).setRing b (fun r => { r with dropped := r.dropped + 1 })
  else
    let v := e.ev % 128 + e.count % 256 * 2 ^ 8 + e.inst % 2 ^ 16 * 2 ^ 16 + e.data % 2 ^ 31 * 2 ^ 32 +
      s.ringPhase b (s.ringIdx b) * 2 ^ 63 + e.tn % 2 ^ 64 * 2 ^ 64
    ((s.ringPut b 16 (leBytes 16 v)).charge f 0 4 16).vecDue f vec

/-- EV123 at the first free slot after drops, where it is enabled (R111). -/
def writeEv123 (s : State) (f : Nat) : State :=
  let b := fringR f 8
  let n := (s.ringSt b).dropped
  if n = 0 || !(s.evRoute f 123).1 || !s.ringLive b || s.ringSize b ≤ s.ringFill b then s else
  (s.writeEvent f ⟨123, 0, min n (2 ^ 31 - 1), 1, s.tn⟩).setRing b (fun r => { r with dropped := 0 })

/-- No entry waits any more. -/
def eventsDone (s : State) : State := s.setHost (fun h => { h with events := [], evLost := [] })

/-- The entries that wait for the event ring of a function: those its ring has not lost. -/
def eventsFor (s : State) (f : Nat) : List EvOcc := s.host.events.drop (assocD 0 s.host.evLost f)

/-- The entries of the tick are written to the event ring of every function that enables them (R132); nothing is
written while Reeve is held (R608), but in the tick that the entry boundary of M13 starts (R112; log entry 66). -/
def flushEvents (s : State) : State :=
  if s.ringsHalted || s.mode < 6 then s.eventsDone else
  if s.wd.reeveHold.isSome && s.mode != 13 then s else
  ((List.range 16).foldl (fun s f => (s.eventsFor f).foldl (fun s e => s.writeEvent f e) (s.writeEv123 f)) s).eventsDone

/-! ## Write-backs, thresholds, vectors -/

/-- Every ring block: function-relative ones of every function, then capture and statistics rings. -/
def allRings : List Nat :=
  ((List.range 16).map (fun f => (List.range 17).map (fringR f))).flatten ++ (List.range 24).map dringR

/-- The class and the ring number that a ring's writes are charged to (R137); a write-back goes where the entries of its
ring go, one of a command or packet TX ring with the completions (log entry 60). -/
def ringClass (b : Nat) : Nat × Nat :=
  let i := b % 2 ^ 20
  if i < 0x120 then (0, (i - 0x100) / 8)
  else if i < 0x140 then (0, (i - 0x120) / 8)
  else if i < 0x148 then (0, 4)
  else if i < 0x168 then (0, (i - 0x148) / 8)
  else if i < 0x188 then (4, (i - 0x168) / 8)
  else if i < 0x280 then (3, (i - 0x200) / 8)
  else (2, (i - 0x280) / 8)

/-- Index write-backs of the rings written in the tick (R109). The rule names command rings among the host-filled ones; the
model writes back the consumer index of a packet ring as well (log entry 59). -/
def writeBacks (s : State) : State :=
  allRings.foldl (fun s b =>
    if !(s.ringSt b).wrote then s else
    let s := if s.on b GLB_RING_CFG_WB_EN && s.ringLive b then
        let u := s.ringUse b
        (s.hostWrite u.owner u.wb (leBytes 8 (s.ringIdx b))).charge u.owner (ringClass b).1 (ringClass b).2 8 else s
    s.setRing b (fun r => { r with wrote := false })) s

/-- The threshold condition of a capture or statistics ring (R104, R135): EV118 or EV120 and the vector, once each time
unconsumed entries rise to THRESH, or the vector in every tick with entries when THRESH is 0. With THRESH = 0 there is no
threshold to reach, so EV118 and EV120 are not raised (log entry 59). -/
def thresholds (s : State) : State :=
  (List.range 24).foldl (fun s k =>
    let b := dringR k
    let r := s.ringSt b
    if !s.ringLive b then s else
    let th := s.get b GLB_RING_THRESH_THRESH
    let s := s.setRing b (fun r => { r with rose := 0 })
    let s := (List.range r.rose).foldl (fun s _ => s.raise (if k < 16 then 118 else 120) (if k < 16 then k else k - 16) 0) s
    if (0 < r.rose || (th = 0 && r.wrote)) && s.on b GLB_RING_CFG_IRQ_EN then
      s.vecDue (s.ringUse b).owner (s.get b GLB_RING_CFG_VEC) else s) s

/-! ## Doorbells -/

/-- The ring block a doorbell slot names, and whether the host fills it (R113). -/
def slotRing (f slot : Nat) : Option (Nat × Bool) :=
  if slot < 4 then some (fringR f slot, true)
  else if slot = 4 then some (fringR f 8, false)
  else if slot < 9 then some (fringR f (slot - 1), false)
  else if slot < 17 then if f = 0 then some (fringR f slot, true) else none
  else if 32 ≤ slot && slot < 48 then some (dringR (slot - 32), false)
  else if 48 ≤ slot && slot < 56 then some (dringR (16 + (slot - 48)), false)
  else none

/-- A rejected doorbell (R114, R118). SLOT has six bits: of a slot past 63 it shows the low six, and EV122 names the slot whole
(log entry 66). -/
def doorbellReject (s : State) (f slot cause : Nat) (ring : Option Nat) : State :=
  let s := (s.bump (fglbR f) GLB_DB_ERR_COUNT).put (fglbR f) GLB_DB_ERR_SLOT slot
  let s := s.put (fglbR f) GLB_DB_ERR_CAUSE cause
  let s := match ring with | some b => s.bump b GLB_RING_DROP_COUNT | none => s
  s.raise 122 slot 0

/-- A doorbell write of `size` bytes at `offset` of page `page` by function `f` (R113, R114, R116). Where several cases of
R114 hold at once the spec gives no order for CAUSE: a narrow write gives 3, then a foreign, unused or misaligned slot 2,
then a disabled ring 0, then the index 1 (log entry 59). -/
def doorbell (s : State) (f page offset size v : Nat) : State :=
  let slot := offset / 8 % 512
  let own : Option (Nat × Bool) := match slotRing f slot with
    | some (b, h) => if s.ringOwner b = f then some (b, h) else none
    | none => none
  let ring := if page = f then own.map (·.1) else none
  if size < 4 then s.doorbellReject f slot 3 ring
  else if page != f then s.doorbellReject f slot 2 none
  else if (size = 4 && offset % 8 != 0) || (size = 8 && offset % 8 != 0) || 8 < size then s.doorbellReject f slot 2 ring
  else match own with
  | none => s.doorbellReject f slot 2 none
  | some (b, hostFilled) =>
    if !s.ringOn b then s.doorbellReject f slot 0 (some b) else
    let v := v % 2 ^ 32
    let h := (s.ringSt b).host
    if hostFilled then
      if s.ringSize b < (v + 2 ^ 32 - s.ringIdx b) % 2 ^ 32 then s.doorbellReject f slot 1 (some b)
      else if v = h then s
      else s.setRing b (fun r => { r with host := v, bells := r.bells ++ [(v, s.tn)] })
    else if (s.ringIdx b + 2 ^ 32 - h) % 2 ^ 32 < (v + 2 ^ 32 - h) % 2 ^ 32 then s.doorbellReject f slot 1 (some b)
    else
      let s := s.setRing b (fun r => { r with host := v })
      let low := s.ringFill b < s.get b GLB_RING_THRESH_THRESH
      s.setRing b (fun r => { r with above := r.above && !low })

/-- The doorbell tick of the descriptor with index `i` (R116): the first accepted doorbell that covers it. -/
def bellTick (r : RingSt) (consumer i : Nat) : Nat :=
  match r.bells.find? (fun e => (i + 2 ^ 32 - consumer) % 2 ^ 32 < (e.1 + 2 ^ 32 - consumer) % 2 ^ 32) with
  | some e => e.2
  | none => 0

/-! ## Enabling and disabling -/

/-- Entries that an event ring had yet to receive when its use ends are lost (R107). -/
def eventsLost (s : State) (f : Nat) : State :=
  let b := fringR f 8
  if (s.ringSt b).closing.isNone then s else
  let n := ((s.eventsFor f).filter (fun e => (s.evRoute f e.ev).1)).length
  ((s.bump b GLB_RING_DROP_COUNT n).setRing b (fun r => { r with dropped := r.dropped + n })).setHost
    (fun h => { h with evLost := assocPut 0 h.evLost f h.events.length })

/-- Capture records that wait in the burst buffer for a ring can no longer leave: they stand as of ring 16 + k until the next
boundary discards them (R107, R424). -/
def recordsLost (s : State) (k : Nat) : State :=
  let n := (s.lens.buf.filter (fun e => e.1 == k)).length
  { s with lens := { s.lens with buf := s.lens.buf.map (fun (e : Nat × Nat) => if e.1 == k then (k + 16, e.2) else e) } }.setRing (dringR k)
    (fun r => { r with reserved := r.reserved - n })

/-- A ring that is enabled again in the tick in which it was disabled has lost what it had yet to receive (R107). -/
def reused (s : State) (b : Nat) : State :=
  if (s.ringSt b).closing.isNone then s else
  let s := (List.range 16).foldl (fun s f => if b = fringR f 8 then s.eventsLost f else s) s
  (List.range 16).foldl (fun s k => if b = dringR k then s.recordsLost k else s) s

/-- A ring is enabled: both indices start at 0 (R107). Slots reserved for commands under way stay reserved (R110), a FENCE
holds on (R117), and entries lost before are still to be reported (R111). -/
def ringEnabled (s : State) (b : Nat) : State :=
  ((s.reused b).put b GLB_RING_IDX_IDX 0).setRing b (fun r =>
    { fence := r.fence, resume := r.resume, reserved := r.reserved, dropped := r.dropped })

/-- A ring is disabled: its use, as its registers gave it, ends at the next boundary (R107). `log` is the size it had. -/
def ringDisabled (s : State) (b log : Nat) : State :=
  let u := { s.ringRegs b with log := log }
  s.setRing b (fun r => { r with closing := some u })


/-- Rings whose use ends at this boundary. -/
def closeRings (s : State) : State :=
  let s := (List.range 16).foldl eventsLost s
  s.setHost (fun h => { h with rings := h.rings.map (fun e =>
    if e.2.closing.isSome then (e.1, { e.2 with closing := none, wrote := false, above := false, rose := 0 }) else e) })

end State

end Sys2Proof.Machine
end

