-- ==== Sys2Proof/Machine/Prism.lean ====
section
/-! DEFINITION. Prism's inputs: samples, monitors, verdicts, tracked frequency, selection and pre-lock (R168–R208, R679,
R680). Phases are in 2 ps units; the time of a tick on the timebase is in the same units. -/

namespace Sys2Proof.Machine

/-- Least squares over points: slope, and value at x = 0. -/
def lsq (pts : List (Rat × Rat)) : Rat × Rat :=
  let n : Rat := pts.length
  let sx := (pts.map (·.1)).foldl (· + ·) 0
  let sy := (pts.map (·.2)).foldl (· + ·) 0
  let sxx := (pts.map (fun p => p.1 * p.1)).foldl (· + ·) 0
  let sxy := (pts.map (fun p => p.1 * p.2)).foldl (· + ·) 0
  let den := n * sxx - sx * sx
  if n = 0 then (0, 0) else if den = 0 then (0, sy / n) else
  let a := (n * sxy - sx * sy) / den
  (a, (sy - a * sx) / n)

/-- `x` moved by whole periods into (c − P/2, c + P/2] (R176, R205). -/
def wrapNear (p c x : Rat) : Rat := if p ≤ 0 then x else x - p * (((x - c) / p - 1 / 2).ceil : Int)

/-- 2 ps units in a nanosecond. -/
def nsU : Rat := 500

/-- A `PRS_MON`, `PRS_LIM0`, `PRS_LIM1` or `PRS_PW` field in a latched word. -/
def lw (w : Nat) (f : Fld) : Nat := bitsOf w f.lo f.width

def RefSt.cd (r : RefSt) : Nat := lw r.mon PRS_MON_CD
def RefSt.hys (r : RefSt) : Rat := (lw r.mon PRS_MON_HYS : Rat) / 8
def RefSt.fgate (r : RefSt) : Nat := 2 ^ lw r.mon PRS_MON_FGATE
/-- The factor on limits while soaking (R188). -/
def RefSt.soakF (r : RefSt) : Rat := if r.v = 2 && r.soak.isSome then r.hys else 1

/-- One tick of the verdict machine (R184, R185, R187, R188, R190): results of the enabled monitors, TN and tick count
of the tick that ends. -/
def RefSt.verdict (r : RefSt) (res : List (Nat × Bool)) (tn tick : Nat) : RefSt :=
  let failed := (res.filter (·.2)).map (·.1)
  let failMask := failed.foldl (fun a m => a ||| 2 ^ m) 0
  match r.forced with
  | some v => { r with v := v, cause := failMask, win := none, pend := [], soak := none }
  | none =>
    if r.v = 2 then
      match r.soak with
      | none => r
      | some k =>
        if !failed.isEmpty then { r with soak := some tick }
        else if lw r.lim1 PRS_LIM1_SOAK * 32000 ≤ tick - k then { r with v := 0, cause := 0, soak := none }
        else r
    else
      let win := match r.win with | some n => some n | none => if failed.isEmpty then none else some tn
      let pend := r.pend.map (fun p => if failed.contains p.mon then { p with again := true } else p)
      let pend := pend ++ (failed.filter (fun m => !(r.pend.any (·.mon == m)))).eraseDups.map
        (fun m => { mon := m, due := tn + r.cd, raised := tn })
      let pend := pend.map (fun p => if p.raised < tn && res.any (·.1 == p.mon) then { p with results := p.results + 1 } else p)
      let cleared := fun (p : Pend) => p.due ≤ tn && !p.again && 0 < p.results
      let left := pend.filter (fun p => !cleared p)
      let confirm := left.any (fun p => p.due ≤ tn) ||
        (match win with | some n => n + 8 ≤ tn && !left.isEmpty | none => false)
      let mask := left.foldl (fun a p => a ||| 2 ^ p.mon) 0
      if confirm then { r with v := 2, cause := mask, win := none, pend := [], soak := some tick }
      else if left.isEmpty then { r with v := 0, cause := 0, win := none, pend := [] }
      else { r with v := 1, cause := mask, win := win, pend := left }

/-- A BAD reference that nothing keeps from its soak any more starts it, index 48 after `PRS_TC_CFG` (R188, R192). -/
def RefSt.soaks (r : RefSt) (tick : Nat) : RefSt :=
  if r.en && r.forced.isNone && r.v = 2 && r.soak.isNone then { r with soak := some tick } else r

namespace State

def setPrism (s : State) (f : PrismSt → PrismSt) : State := { s with prism := f s.prism }

/-- Prism works in the modes in which the core domain is configured or running (log entry 12). -/
def prismRuns (s : State) : Bool := 6 ≤ s.mode

def refKind (s : State) (i : Nat) : Nat := if i < 32 then s.get (priR i) PRS_IN_CFG_KIND else 0

/-- Divided nominal rate in hertz, for index 48 that of its on-time input; none for another virtual reference (R171, R172,
R192, R480). -/
def refHz (s : State) (i : Nat) : Option Nat :=
  let phys := fun (j : Nat) => if 2 ≤ s.refKind j then 1 else s.get (priR j) PRS_NOM_HZ
  if i < 32 then some (phys i)
  else if i < 36 then some 31250000
  else if i = 48 then some (phys (s.get prsR PRS_TC_CFG_IN))
  else none

/-- KIND 0 and SyncE errors are taken modulo the divided period, in 2 ps units (R176). -/
def refMod (s : State) (i : Nat) : Rat :=
  if (i < 32 && s.refKind i = 0) || (32 ≤ i && i < 36) then
    match s.refHz i with | some h => if h = 0 then 0 else 500000000000 / (h : Rat) | none => 0
  else 0

/-- The indices that are time-bearing (R679). -/
def ensTimeBearing (s : State) (e : Nat) : Bool :=
  (List.range 8).any (fun m => s.get (emsR e m) GLB_EM_STAT_STATE = 2 && 0 < s.get (emsR e m) GLB_EM_CFG_W &&
    (let i := s.get (emsR e m) GLB_EM_CFG_IDX; 36 ≤ i && i ≤ 48))
def timeBearing (s : State) (i : Nat) : Bool := (36 ≤ i && i ≤ 48) || (56 ≤ i && i < 64 && s.ensTimeBearing (i - 56))

/-- A result of a monitor in this tick. -/
def addRes (s : State) (i m : Nat) (failed : Bool) : State := s.setRef i (fun r => { r with res := r.res ++ [(m, failed)] })

/-- The edges of an input of the slope or polarity INV selects, and the times of the others (R173); none of an input that
FMT switches off (R170). -/
def leadEdges (s : State) (x : RefIn) : List EdgeIn :=
  if x.idx < 32 && s.get (priR x.idx) PRS_IN_CFG_FMT = 3 then []
  else if x.idx < 32 && s.on (priR x.idx) PRS_IN_CFG_INV then x.fall else x.rise
def trailEdges (s : State) (x : RefIn) : List Nat :=
  (if s.get (priR x.idx) PRS_IN_CFG_FMT = 3 then []
   else if s.on (priR x.idx) PRS_IN_CFG_INV then x.rise else x.fall).map (fun e => e.before)

/-- The divided edges of a physical input (R172): every DIV-th counted edge from the enable on. -/
def divideEdges (s : State) (i : Nat) (es : List EdgeIn) : List EdgeIn × Nat :=
  let div := if 2 ≤ s.refKind i || 32 ≤ i then 1 else max 1 (s.get (priR i) PRS_IN_CFG_DIV)
  es.foldl (fun (a : List EdgeIn × Nat) e => (if a.2 = 0 then a.1 ++ [e] else a.1, (a.2 + 1) % div)) ([], (s.ref i).divc)

/-- The sample of a tick (R175): the fit over its edges, or its one edge extrapolated at the tracked frequency. -/
def edgeSample (r : RefSt) : List EdgeIn → Option Rat
  | [] => none
  | [e] => some (Config.quant (e.ph + r.freq * (e.before : Nat)))
  | es => some (Config.quant (lsq (es.map (fun e => (-(e.before : Rat), (e.ph : Rat))))).2)

/-- The period the next edge is predicted at (R178): nominal, corrected by the tracked frequency. -/
def edgePeriod (s : State) (i : Nat) : Int :=
  match s.refHz i with
  | some h => if h = 0 then 0 else
    let y := (s.ref i).freq
    Config.quant (500000000000 / (h : Rat) / (if 1 + y ≤ 0 then 1 else 1 + y))
  | none => 0

/-- The missing expected edge of the low-rate activity monitor (R178): the prediction plus ACTWIN passed without an
edge. -/
def missEdge (s : State) (i : Nat) : State :=
  match (s.ref i).pred with
  | none => s
  | some p => (s.addRes i 0 true).setRef i (fun r => { r with pred := some (p + s.edgePeriod i) })

/-- The instant at which the low-rate activity monitor of an index fails, if it waits for an edge. Before the first edge
stamped since the enable there is no prediction, and so no failure (log entry 62). -/
def missDeadline (s : State) (i : Nat) : Option Int :=
  match (s.ref i).pred, s.refHz i with
  | some p, some h => if h < 32000 then some (p + lw (s.ref i).lim1 PRS_LIM1_ACTWIN * 500000) else none
  | _, _ => none

/-- The activity monitor over a tick's divided edges; `now` is the boundary (R178). A divided rate above 50 MHz, more than
1,563 edges in a tick, fails at either rate (R172). -/
def monAct (s : State) (i : Nat) (es : List EdgeIn) (now : Int) : State :=
  match s.refHz i with
  | none => s
  | some h =>
    if 32000 ≤ h then
      let x : Rat := (h : Rat) / 32000
      let n : Rat := es.length
      s.addRes i 0 (n < x - (x / 8 + 1) || x + (x / 8 + 1) < n || 1563 < n)
    else
      let first := es.head?.map (fun e => now - (e.before : Int))
      let s := match s.missDeadline i with
        | some t => if t < (first.getD now) || (first.isNone && t ≤ now) then s.missEdge i else s
        | none => s
      match es.getLast? with
      | none => s
      | some e => (s.addRes i 0 (1563 < es.length)).setRef i (fun r => { r with pred := some (now - (e.before : Int) + s.edgePeriod i) })

/-- A monitor's enable applies to the index (R177, R181). -/
def monEnabled (s : State) (i m : Nat) : Bool :=
  let on := fun k => bitsOf (s.ref i).mon (k + 1) 1 = 1
  match m with
  | 0 => on 0 && i < 56
  | 1 => on 1
  | 2 => on 2
  | 3 => on 3 && i < 32 && s.refKind i = 1
  | 4 => on 4 && i = 48
  | 5 => on 5 && i < 49
  | _ => true

/-- The frequency monitor (R177, R179): mean period over the gate against nominal; FOFF in 0.01 ppm, saturating at 327.67
ppm either way (R210). For a virtual reference without stamped edges the samples take the place of edges, and the offset
judged is the tracked frequency of R680 (log entry 62). -/
def monFrq (s : State) (i : Nat) (es : List EdgeIn) (now : Int) : State :=
  let r := s.ref i
  let k := s.prism.tick
  let gate := r.gate.filter (fun g => k < g.1 + r.fgate)
  let gate := match es.head?, es.getLast? with
    | some a, some b => gate ++ [(k, now - (a.before : Int), now - (b.before : Int), es.length)]
    | _, _ => gate
  let s := s.setRef i (fun r => { r with gate := gate })
  if es.isEmpty || !s.monEnabled i 1 then s else
  let n := (gate.map (fun g => g.2.2.2)).foldl (· + ·) 0
  if n < 2 then s else
  match gate.head?, gate.getLast? with
  | some a, some b =>
    let span := b.2.2.1 - a.2.1
    let y : Rat := match s.refHz i with
      | some h => if span ≤ 0 || h = 0 then 0 else 500000000000 / (h : Rat) * (n - 1 : Nat) / span - 1
      | none => r.freq
    let s := s.putI (priR i) PRS_VERDICT_FOFF (clampI (-32767) 32767 (Config.quant (y * 100000000)))
    s.addRes i 1 (lw r.lim0 PRS_LIM0_FLIM * r.soakF < (if y < 0 then -y else y) * 10000000)
  | _, _ => s

/-- How far a sample departs from the prediction (R180). -/
def pjDeparture (s : State) (i : Nat) (x : Rat) (now : Int) : Option Rat :=
  let r := s.ref i
  r.last.map (fun l =>
    let dep := x - (l.2 + r.freq * (now - l.1 : Int))
    let p := s.refMod i
    if p = 0 then dep else wrapNear p 0 dep)

/-- The phase-jump monitor (R177, R180). The first sample, with nothing to predict it from, gives a passing result (log entry
67). -/
def monPj (s : State) (i : Nat) (x : Rat) (now : Int) : State :=
  let r := s.ref i
  match s.pjDeparture i x now with
  | none => s.addRes i 2 false
  | some dep => s.addRes i 2 (lw r.lim0 PRS_LIM0_PJLIM * nsU * r.soakF < (if dep < 0 then -dep else dep))

/-- The pulse-width monitor (R177, R188) over leading and trailing edges of the tick. -/
def monPw (s : State) (i : Nat) (lead : List EdgeIn) (trail : List Nat) (now : Int) : State :=
  let r := s.ref i
  let lo : Rat := lw r.pw PRS_PW_PWMIN
  let hi : Rat := lw r.pw PRS_PW_PWMAX
  let cut := (1 - r.soakF) * (hi - lo)
  let lo := (lo + cut) * 5000000
  let hi := (hi - cut) * 5000000
  let evs := (lead.map (fun e => (e.before, true)) ++ trail.map (fun b => (b, false))).mergeSort (fun a b => b.1 ≤ a.1)
  let s := evs.foldl (fun s ev =>
    let t := now - (ev.1 : Int)
    if ev.2 then s.setRef i (fun r => { r with lead := some t }) else
    match (s.ref i).lead with
    | none => s
    | some t0 =>
      let w : Rat := (t - t0 : Int)
      (s.addRes i 3 (w < lo || hi < w)).setRef i (fun r => { r with lead := none })) s
  match (s.ref i).lead with
  | some t0 => if hi < ((now - t0 : Int) : Rat) then (s.addRes i 3 true).setRef i (fun r => { r with lead := none }) else s
  | none => s

/-- A reference is judged: its unit is present, its EN is 1 and, for an ensemble, its phase is defined. -/
def refLive (s : State) (i : Nat) : Bool :=
  s.indexPresent i && (s.ref i).en && (i < 56 || (s.ens.getD (i - 56) {}).x.isSome) &&
  (i != 48 || s.on prsR PRS_TC_CFG_EN)

def setTc (s : State) (f : TcSt → TcSt) : State := s.setPrism (fun p => { p with tc := f p.tc })

/-- The LTC second nearest to an on-time edge (R196). -/
def tcNear (e : Nat × Nat × Int × Bool) : Int := if 250000000000 ≤ e.2.1 then (e.1 : Int) + 1 else e.1

/-- What the TAI second decoded for the last on-time edge adds to its phase sample (R192, R679): whole seconds, in 2 ps
units, between the time it names and the second of the LTC it lies nearest to. -/
def tcSecond (s : State) : Rat :=
  match s.prism.tc.edge, s.prism.tc.prev with
  | some e, some (p, n) => ((p + (n : Nat) - tcNear e : Int) : Rat) * 500000000000
  | _, _ => 0

/-- Samples and local monitors of one index for the tick that ends (R174–R181). -/
def runMonitors (s : State) (inp : RefIn) : State :=
  let i := inp.idx
  let now := s.prism.now
  let (es, cnt) := if s.refLive i || (s.ref i).en then s.divideEdges i (s.leadEdges inp) else ([], (s.ref i).divc)
  let s := s.setRef i (fun r => { r with divc := cnt, es := es })
  let x : Option Rat :=
    if i = 48 then (s.ref (s.get prsR PRS_TC_CFG_IN)).samp.map (fun x => x + s.tcSecond)
    else if i < 36 then edgeSample (s.ref i) es else (s.ref i).vs
  let s := s.setRef i (fun r => { r with samp := x })
  if !s.refLive i then s else
  let s := if i = 48 then
      match (s.ref (s.get prsR PRS_TC_CFG_IN)).res.find? (·.1 == 0) with
      | some e => s.addRes i 0 e.2
      | none => s
    else if i < 32 then s.monAct i es now
    else if i < 36 then s.addRes i 0 (!(s.on (hrpR (i - 32)) HRD_PORT_STATUS_LINK && s.on (hrpR (i - 32)) HRD_PORT_STATUS_RXLOCK))
    else s
  let es := if i < 36 then es else if i = 48 then (s.ref (s.get prsR PRS_TC_CFG_IN)).es else if x.isSome then [⟨0, 0⟩] else []
  let s := s.monFrq i es now
  let s := match x with | some v => if s.monEnabled i 2 then s.monPj i v now else s | none => s
  let s := if i < 32 && s.refKind i = 1 then s.monPw i es (s.trailEdges inp) now else s
  if inp.ext && 32 ≤ i && i != 48 then s.addRes i 6 true else s

/-- The results that count for the verdict. -/
def countedRes (s : State) (i : Nat) : List (Nat × Bool) := (s.ref i).res.filter (fun e => s.monEnabled i e.1)

/-- The verdict machine of one index over the results of the tick that ends (R183–R190, R192). -/
def formVerdict (s : State) (i tn : Nat) : RefSt :=
  let r := s.ref i
  let tcBad := i = 48 && s.on prsR PRS_TC_CFG_EN && s.on prsR PRS_TC_CFG_SRC && s.refKind (s.get prsR PRS_TC_CFG_IN) < 2
  if i = 48 && tcBad && r.forced.isNone then { r with v := 2, cause := 2 ^ 4, win := none, pend := [], soak := none }
  else if !s.refLive i && r.forced.isNone then { r with v := 2, cause := 0, win := none, pend := [], soak := none }
  else if !s.refLive i && !s.indexPresent i then { r with v := 2, cause := 0 }
  else (r.soaks s.prism.tick).verdict (s.countedRes i) tn s.prism.tick

/-- The verdict of the tick that ends, formed or about to be: by this the members of ensembles change state (log entry
13). -/
def verdictNow (s : State) (i tn : Nat) : Nat := if (s.ref i).judged = some tn then (s.ref i).v else (s.formVerdict i tn).v

/-- The accepted sample and the tracked frequency (R180, R680). -/
def acceptSample (s : State) (i : Nat) : State :=
  let r := s.ref i
  let now := s.prism.now
  match r.samp with
  | none => s
  | some x =>
    if r.v = 1 then s else
    let p := s.refMod i
    let x := match r.last with
      | some l => if p = 0 then x else wrapNear p (l.2 + r.freq * (now - l.1 : Int)) x
      | none => x
    let k := s.prism.tick
    if r.v = 2 && r.res.any (fun e => e.1 == 2 && e.2) then
      s.setRef i (fun r => { r with last := some (now, x), fit := [(k, now, x)] })
    else
      let fit := r.fit.filter (fun e => k < e.1 + r.fgate) ++ [(k, now, x)]
      let f := if 2 ≤ fit.length then (lsq (fit.map (fun e => ((e.2.1 - now : Int), e.2.2)))).1 else r.freq
      s.setRef i (fun r => { r with last := some (now, x), fit := fit, freq := f })

/-- Bits of the verdict summaries (R191). -/
def summaryBit (lo hi : Fld) (i : Nat) : Fld := if i < 32 then lo.bit i else hi.bit (i - 32)

/-- The verdict of one index is formed and published for the tick that ends (R183–R191). `tn` is that tick. The clear bit of
EV016+i is set too where a forced verdict makes a SUSPECT reference GOOD (log entry 67). -/
def judge (s : State) (i tn : Nat) : State :=
  let r := s.ref i
  if r.judged = some tn then s else
  let old := s.get (priR i) PRS_VERDICT_V
  let r' := { s.formVerdict i tn with judged := some tn }
  let s := s.setRef i (fun _ => r')
  let s := ((s.put (priR i) PRS_VERDICT_V r'.v).putB (priR i) PRS_VERDICT_SOAK r'.soak.isSome).putB
    (priR i) PRS_VERDICT_FORCED r'.forced.isSome
  let s := s.put (priR i) PRS_VERDICT_CAUSE r'.cause
  let s := s.putB prsR (summaryBit PRS_GOOD_LO_GOOD PRS_GOOD_HI_GOOD i) (r'.v = 0)
  let s := s.putB prsR (summaryBit PRS_SUSP_LO_SUSP PRS_SUSP_HI_SUSP i) (r'.v = 1)
  let s := s.acceptSample i
  if i < 32 && old != r'.v then
    s.raiseAt tn (16 + i) 0 (r'.v + r'.cause * 4 + (if old = 1 && r'.v = 0 then 2 ^ 9 else 0))
  else s

/-- The published verdict. -/
def verdictOf (s : State) (i : Nat) : Nat := s.get (priR i) PRS_VERDICT_V

/-- Settings that take effect at the boundary (R182, R186, R189): enables, limits, and what an enable starts. -/
def latchRef (s : State) (i : Nat) : State :=
  let r := s.ref i
  let en := s.on (priR i) PRS_MON_EN
  let s := s.setRef i (fun r => { r with
    mon := (s.reg (priR i + PRS_MON_EN.idx)).toNat
    lim0 := (s.reg (priR i + PRS_LIM0_FLIM.idx)).toNat
    lim1 := (s.reg (priR i + PRS_LIM1_ACTWIN.idx)).toNat
    pw := if i < 32 then (s.reg (priR i + PRS_PW_PWMIN.idx)).toNat else r.pw
    res := [], vs := none })
  if en = r.en then s
  else if en then
    s.setRef i (fun r => { r with en := true, divc := 0, gate := [], pred := none, lead := none, last := none, fit := [],
                                  freq := 0, v := 2, cause := 0, win := none, pend := [],
                                  soak := if r.forced.isSome then none else some (s.prism.tick + 1) })
  else s.setRef i (fun r => { r with en := false, v := 2, cause := 0, win := none, pend := [], soak := none })

/-- The references whose PLAUS or other settings change hands at a boundary. -/
def latchRefs (s : State) : State := (List.range 64).foldl latchRef s

/-! ## REF_OVERRIDE (R190) -/

def refOverride (s : State) (i act : Nat) : State :=
  let r := s.ref i
  let s := s.putB (priR i) PRS_VERDICT_FORCED (act != 0)
  match act with
  | 0 =>
    match r.forced with
    | none => s
    | some v =>
      if !s.on (priR i) PRS_MON_EN then s.setRef i (fun r => { r with forced := none, v := 2, cause := 0, soak := none, win := none, pend := [] })
      else if v = 0 then s.setRef i (fun r => { r with forced := none, v := 0, cause := 0, soak := none, win := none, pend := [] })
      else s.setRef i (fun r => { r with forced := none, v := 2, cause := 0, soak := some (s.prism.tick + 1), win := none, pend := [] })
  | 1 => s.setRef i (fun r => { r with forced := some 0, v := 0, cause := 0, win := none, pend := [], soak := none })
  | _ => s.setRef i (fun r => { r with forced := some 2, v := 2, cause := 0, win := none, pend := [], soak := none })

/-! ## Quality (R197, R198) -/

/-- Rank and clockClass in use of an index that is not an ensemble. -/
def setQuality (s : State) (i ql cc : Nat) : State := (s.put (priR i) PRS_QUAL_EQL ql).put (priR i) PRS_QUAL_ECC cc

def assignedQl (s : State) (i : Nat) : Nat := s.get (priR i) PRS_QUAL_QL
def assignedCc (s : State) (i : Nat) : Nat := s.get (priR i) PRS_QUAL_CC

/-! ## Selection (R199–R201) -/

/-- Entry `p` of a channel's table: index, enabled. -/
def prioEntry (s : State) (c p : Nat) : Nat × Bool :=
  let g := fun (f : Fld) => (f.at (p / 4)).up (8 * (p % 4))
  (s.get (prcR c) (g PRS_PRIO_IDX), s.on (prcR c) (g PRS_PRIO_EN))

/-- First enabled entry of an index in the table (R199). -/
def prioPos (s : State) (c i : Nat) : Option Nat :=
  (List.range 16).find? (fun p => (s.prioEntry c p).2 && (s.prioEntry c p).1 = i)

def selRank (s : State) (c i : Nat) : Nat :=
  match s.get (prcR c) PRS_SEL_CFG_MODE with
  | 0 => 0
  | 1 => s.get (priR i) PRS_QUAL_EQL
  | _ => s.get (priR i) PRS_QUAL_ECC

def selUsable (s : State) (c i : Nat) : Bool :=
  match s.get (prcR c) PRS_SEL_CFG_MODE with
  | 0 => true
  | 1 => s.selRank c i != 15
  | _ => s.selRank c i != 255

/-- The least key among the table entries that qualify. -/
def selBest (s : State) (c : Nat) (ok : Nat → Bool) : Option Nat :=
  (List.range 16).foldl (fun best p =>
    let (i, en) := s.prioEntry c p
    if !en || s.prioPos c i != some p || s.verdictOf i != 0 || !s.selUsable c i || !ok i then best else
    match best with
    | none => some i
    | some b => if s.selRank c i < s.selRank c b then some i else best) none

/-- The pre-lock entry of an index against a channel. -/
def preLock (s : State) (c i : Nat) : PreLock :=
  (s.prism.pl.find? (fun p => p.chan == c && p.idx == i)).getD { chan := c, idx := i }

/-- A valid pre-lock offset (R206): 2^PLTC samples were taken, by the PLTC of each sample. -/
def plValid (s : State) (c i : Nat) : Bool := (s.preLock c i).valid

/-- The current reference a channel shows. -/
def selCur (s : State) (c : Nat) : Option Nat :=
  if s.on (prcR c) PRS_SEL_STATUS_CUR_V then some (s.get (prcR c) PRS_SEL_STATUS_CUR) else none

/-- The selection rule of R200 and R201. -/
def selRule (s : State) (c : Nat) : Option Nat :=
  let best := s.selBest c (fun _ => true)
  if s.on (prcR c) PRS_SEL_CFG_FORCE_EN then
    let i := s.get (prcR c) PRS_SEL_CFG_FORCE_IDX
    if s.verdictOf i != 2 then some i else none
  else
  match s.selCur c with
  | none => best
  | some cur =>
    match s.prioPos c cur with
    | none => best
    | some pos =>
      if s.verdictOf cur = 2 || !s.selUsable c cur then best else
      match best with
      | none => some cur
      | some b =>
        let rb := s.selRank c b
        let rc := s.selRank c cur
        if rb < rc || (rb = rc && (s.prioPos c b).getD 16 < pos && s.on (prcR c) PRS_SEL_CFG_REV) then some b else some cur

/-- `PRS_SEL_STATUS` of a channel whose current reference is `cur`: CUR, CUR_V and CUR_POS, and the standby of R200. -/
def showSel (s : State) (c : Nat) (cur : Option Nat) : State :=
  let s := match cur with
    | some i => ((s.put (prcR c) PRS_SEL_STATUS_CUR i).putB (prcR c) PRS_SEL_STATUS_CUR_V true).put
        (prcR c) PRS_SEL_STATUS_CUR_POS ((s.prioPos c i).getD 0)
    | none => ((s.put (prcR c) PRS_SEL_STATUS_CUR 0).putB (prcR c) PRS_SEL_STATUS_CUR_V false).put (prcR c) PRS_SEL_STATUS_CUR_POS 0
  match s.selBest c (fun i => some i != cur && s.plValid c i) with
  | some i => (s.put (prcR c) PRS_SEL_STATUS_STBY i).putB (prcR c) PRS_SEL_STATUS_STBY_V true
  | none => (s.put (prcR c) PRS_SEL_STATUS_STBY 0).putB (prcR c) PRS_SEL_STATUS_STBY_V false

/-- Selection of one channel at a boundary (R200, R207): current, standby, and the offset latched on a move. -/
def select (s : State) (c : Nat) : State :=
  let old := s.selCur c
  let cur := s.selRule c
  let s := s.showSel c cur
  if old = cur then s.setPrism (fun p => { p with moved := p.moved.filter (· != c) }) else
  match cur with
  | none => s.setPrism (fun p => { p with moved := p.moved.filter (· != c) ++ [c] })
  | some i =>
    let off : Rat := if s.plValid c i then ((s.preLock c i).off : Rat) / 65536 else 0
    s.setPrism (fun p => { p with moved := p.moved.filter (· != c) ++ [c], oc := p.oc.set c off, ocV := p.ocV.set c (s.plValid c i) })

/-! ## Pre-lock (R205, R206, R208) -/

def setPreLock (s : State) (x : PreLock) : State :=
  s.setPrism (fun p => { p with pl := p.pl.filter (fun y => !(y.chan == x.chan && y.idx == x.idx)) ++ [x] })

/-- The feedback phase of a channel in 2 ps units, rounded (R243): committed phase alone. -/
def fb (s : State) (c : Nat) : Rat := Config.quant ((s.chan c).ph * 500000000000)

/-- One index of one channel at a boundary; `held` is the index whose offset a speculation holds (R285). -/
def preLockStep (s : State) (c i : Nat) : State :=
  let held := (s.chan c).specN.isSome && (s.chan c).sidx = some i
  match s.verdictOf i with
  | 2 =>
    if s.prism.pl.any (fun y => y.chan == c && y.idx == i) then
      s.setPrism (fun p => { p with pl := p.pl.filter (fun y => !(y.chan == c && y.idx == i)) })
    else s
  | 1 => s
  | _ =>
    match (s.ref i).samp with
    | none => s
    | some x =>
      let now := s.prism.now
      let k := s.prism.tick
      let p := s.preLock c i
      let per := s.refMod i
      let x := x - s.fb c
      let x1 := if per = 0 || p.n = 0 then x else wrapNear per ((p.off : Rat) / 65536) x
      let off := if p.n = 0 then Config.quant (x1 * 65536)
        else p.off + Config.quant ((x1 * 65536 - p.off) / (2 ^ s.get (prcR c) PRS_SEL_CFG_PLTC : Nat))
      let r := s.ref i
      let pred := match p.last with | some l => l.2 + p.freq * (now - l.1 : Int) | none => x
      let x2 := if per = 0 then x else wrapNear per pred x
      let jump := r.res.any (fun e => e.1 == 2 && e.2)
      let fit := if jump then [(k, now, x2)] else p.fit.filter (fun e => k < e.1 + r.fgate) ++ [(k, now, x2)]
      let freq := if !jump && 2 ≤ fit.length then (lsq (fit.map (fun e => ((e.2.1 - now : Int), e.2.2)))).1 else p.freq
      let valid := p.valid || Decidable.decide (2 ^ s.get (prcR c) PRS_SEL_CFG_PLTC ≤ p.n + 1)
      s.setPreLock { p with off := if held then p.off else off, n := p.n + 1, valid := valid, fit := fit, freq := freq, last := some (now, x2) }

def preLockAll (s : State) : State :=
  (List.range s.nMil).foldl (fun s c => (List.range 64).foldl (fun s i => s.preLockStep c i) s) s

/-- Rounding to the nearest integer, ties away from zero. -/
def roundAway (r : Rat) : Int := if r < 0 then -((-r + 1 / 2).floor) else (r + 1 / 2).floor

/-- The latch that a `PRS_PL_IDX` write asks for (R208). -/
def latchPreLock (s : State) : State :=
  let s := s.prism.plReq.foldl (fun s c =>
    let i := s.get (prcR c) PRS_PL_IDX_IDX
    let v := unsigned (roundAway (((s.preLock c i).off : Rat) / 65536)) 48
    let s := (s.put (prcR c) PRS_PL_OFF_LO_OFF (v % 2 ^ 32)).put (prcR c) PRS_PL_OFF_HI_OFF (v / 2 ^ 32)
    (s.putB (prcR c) PRS_PL_OFF_HI_VALID (s.plValid c i)).putB (prcR c) PRS_PL_OFF_HI_FROZEN (s.verdictOf i = 1)) s
  s.setPrism (fun p => { p with plReq := [] })

end State

end Sys2Proof.Machine
end

