-- ==== Sys2Proof/Machine/Ensemble.lean ====
section
/-! DEFINITION. Prism's ensembles: residuals, gates, member states, weights, boot, asymmetry windows (R212–R237). Phases
are in 2 ps units held to 2⁻¹⁶. -/

namespace Sys2Proof.Machine

/-- A phase held to 16 fractional bits of 2 ps (R214). -/
def q16 (r : Rat) : Rat := (Config.quant (r * 65536) : Rat) / 65536

def ratAbs (r : Rat) : Rat := if r < 0 then -r else r
def ratMax (a b : Rat) : Rat := if a < b then b else a
def ratMin (a b : Rat) : Rat := if a < b then a else b

/-- The square root of a natural number, rounded down, found bit by bit. -/
def natSqrtFrom : Nat → Nat → Nat → Nat
  | 0, r, _ => r
  | k + 1, r, n => natSqrtFrom k (if (r + 2 ^ k) * (r + 2 ^ k) ≤ n then r + 2 ^ k else r) n
def natSqrt (n : Nat) : Nat := natSqrtFrom (n.log2 / 2 + 1) 0 n

/-- A square root brought to an integer; the rounding is open (log entry 8). -/
def quantSqrt (x : Rat) : Int :=
  let f := natSqrt x.floor.toNat
  if ((f * f : Nat) : Rat) = x then f else if Config.roundsUp x then f + 1 else f

/-- Shares after capping (R219): slot and share in, slot and share out. -/
def capShares (cap : Rat) (l : List (Nat × Rat)) : List (Nat × Rat) :=
  let n : Rat := l.length
  if n * cap < 1 then l.map (fun e => (e.1, 1 / n)) else
  let round := fun (a : List Nat × List (Nat × Rat)) =>
    let past := (a.2.filter (fun e => cap < e.2)).map (·.1)
    if past.isEmpty then a else
    let capped := a.1 ++ past
    let free := (a.2.filter (fun e => !capped.contains e.1)).map (·.2) |>.foldl (· + ·) 0
    let left := 1 - (capped.length : Rat) * cap
    (capped, a.2.map (fun e => (e.1, if capped.contains e.1 then cap else if free = 0 then e.2 else e.2 / free * left)))
  ((List.range 8).foldl (fun a _ => round a) ([], l)).2

namespace State

def ensOf (s : State) (e : Nat) : EnsSt := s.ens.getD e {}
def setEns (s : State) (e : Nat) (f : EnsSt → EnsSt) : State := { s with ens := s.ens.modify e f }
def slot (s : State) (e m : Nat) : Slot := (s.ensOf e).slots.getD m {}
def setSlot (s : State) (e m : Nat) (f : Slot → Slot) : State :=
  s.setEns e (fun x => { x with slots := x.slots.modify m f })

/-- The member state of a slot, coded as in R213. -/
def mState (s : State) (e m : Nat) : Nat := s.get (emsR e m) GLB_EM_STAT_STATE
def mIdx (s : State) (e m : Nat) : Nat := s.get (emsR e m) GLB_EM_CFG_IDX
def mW (s : State) (e m : Nat) : Nat := s.get (emsR e m) GLB_EM_CFG_W

/-- A slot counts (R212): enabled, and the lowest enabled slot of its index in the ensemble. -/
def slotLive (s : State) (e m : Nat) : Bool :=
  s.on (emsR e m) GLB_EM_CFG_EN &&
    (List.range m).all (fun k => !(s.on (emsR e k) GLB_EM_CFG_EN && s.mIdx e k = s.mIdx e m))

/-- The indices a slot may judge (R212): not a KIND 0 input. -/
def admissible (s : State) (i : Nat) : Bool := (i < 32 && s.refKind i != 0) || (36 ≤ i && i ≤ 48)

/-- A change of member state, with its event (R220, R224). Cause: 1 gate, 2 Hearth gate, 3 DMAX, 4 AMAX, 5 command. -/
def setMState (s : State) (e m new cause tn : Nat) : State :=
  let old := s.mState e m
  if old = new then s else
  let s := (s.put (emsR e m) GLB_EM_STAT_STATE new).put (emsR e m) GLB_EM_STAT_CAUSE cause
  let s := if new = 2 then s else s.putB (emsR e m) GLB_EM_STAT_HELD false
  let s := s.setPrism (fun p => { p with chg := (e, m) :: p.chg })
  let s := if old = 3 then
      (s.putB (ensR e) GLB_ENS_STATUS_ASYM false).setEns e (fun x => { x with asymEnd := none })
    else s
  s.raiseAt tn (48 + e) m (new + old * 8 + cause * 64 + s.mIdx e m * 512)

/-- The offset a slot starts from: OFF in OMODE 1, 0 in OMODE 0 (R217, R220). -/
def startOff (s : State) (e m : Nat) : Rat :=
  if s.on (ensR e) GLB_ENS_CFG_OMODE then (s.getI (emsR e m) GLB_EM_CFG_OFF : Rat) * 125 else 0

/-- A member goes OUT: what it learned goes with it, its estimate leaves x (R215, R220, R235). -/
def memberOut (s : State) (e m cause tn : Nat) : State :=
  let s := s.setMState e m 0 cause tn
  ((s.put (emsR e m) GLB_EM_STAT_FAILS 0).put (emsR e m) GLB_EM_STAT_WUSE 0).setSlot e m (fun _ => {})

/-- INCNT and the weighted members. -/
def weighted (s : State) (e : Nat) : List Nat :=
  (List.range 8).filter (fun m => s.mState e m = 2 && 0 < s.mW e m)

def syncIncnt (s : State) (e : Nat) : State := s.put (ensR e) GLB_ENS_STATUS_INCNT (s.weighted e).length

/-! ## Start, stop, restart -/

/-- Entry to BOOT (R217): x and the anchor go. -/
def ensBoot (s : State) (e : Nat) : State :=
  ((s.putB (ensR e) GLB_ENS_STATUS_BOOT true).putB (ensR e) GLB_ENS_STATUS_HANCH false).setEns e (fun x =>
    { x with x := none, fe := 0, pilot := none, anchor := none })

/-- BOOT again once every slot is OUT (R217). -/
def bootIfOut (s : State) (e : Nat) : State :=
  if (s.ensOf e).on && (s.ensOf e).x.isSome && (List.range 8).all (fun m => s.mState e m = 0) then (s.ensBoot e).syncIncnt e else s

/-- An ensemble stops (R218): its weighted and learning members go OUT, condemned ones keep all they have. -/
def ensStop (s : State) (e tn : Nat) : State :=
  let open_ := (s.ensOf e).asymEnd.isSome
  let k := s.mIdx e (s.get (ensR e) GLB_ENS_STATUS_ASLOT) - 36
  let s := (List.range 8).foldl (fun s m =>
    if 1 ≤ s.mState e m && s.mState e m ≤ 3 then s.memberOut e m 0 tn else s) s
  let s := if open_ then s.setPrism (fun p => { p with asymOut := p.asymOut ++ [(k, 2)] }) else s
  let s := ((s.putB (ensR e) GLB_ENS_STATUS_BOOT false).putB (ensR e) GLB_ENS_STATUS_HANCH false).setEns e (fun x =>
    { x with on := false, x := none, fe := 0, pilot := none, anchor := none, asymEnd := none })
  (s.syncIncnt e).setRef (56 + e) (fun r => { r with v := 2, cause := 0, win := none, pend := [], soak := none })

/-- A write of EN 0 → 1 (R217). -/
def ensEnabled (s : State) (e : Nat) : State :=
  let s := if (s.ensOf e).on then s.ensStop e s.tn else s
  (s.setEns e (fun x => { x with on := true, atick := s.prism.tick })).ensBoot e

/-! ## Gates (R225–R227) -/

/-- The ensemble gate fails; the comparison is made between squares, σ being held as its square. -/
def gateFails (s : State) (e m : Nat) (r : Rat) : Bool :=
  let b := ensR e
  let f := (s.ref (s.mIdx e m)).soakF
  let k : Rat := s.get b GLB_ENS_GATE_K
  let g : Rat := (s.get b GLB_ENS_GATE_GMIN : Rat) * nsU
  let lim := ratMax (k * k * (s.slot e m).ms) (g * g)
  f * f * lim < r * r

/-- The Hearth residual against the anchor's prediction, while one is valid (R226). -/
def hearthRes (s : State) (e m : Nat) (samp : Rat) : Option Rat :=
  let x := s.ensOf e
  if !s.on (ensR e) GLB_ENS_CFG_HEN then none else
  x.anchor.map (fun a => q16 (samp - (s.slot e m).d - (a.1 + a.2.1 * (s.prism.now - a.2.2.2 : Int) + x.dH)))

def hearthFails (s : State) (e m : Nat) (h : Rat) : Bool :=
  (s.ref (s.mIdx e m)).soakF * ((s.get (ensR e) GLB_ENS_HCFG_HGATE : Rat) * nsU) < ratAbs h

/-- A mean, and a mean square. -/
def meanOf (l : List Rat) : Rat := if l.isEmpty then 0 else l.foldl (· + ·) 0 / (l.length : Rat)

/-! ## LEARN_END (R220, R221) -/

/-- LEARN_END of a slot is due. -/
def learnDue (s : State) (e m : Nat) : Bool :=
  (s.ensOf e).on && s.mState e m = 1 && 2 ^ s.get (ensR e) GLB_ENS_CFG_OTC ≤ (s.slot e m).acc.length

/-- A LEARN member with 2^OTC samples sets σ and d and goes IN. Beyond DMAX it goes TSUSP instead: its samples give the gate
its σ (R225), and nothing of them is learned. Its estimate enters x from its next judged sample (R214). -/
def learnEnd (s : State) (e m tn : Nat) : State :=
  if !s.learnDue e m then s else
  let l := (s.slot e m).acc.take (2 ^ s.get (ensR e) GLB_ENS_CFG_OTC)
  let mean := meanOf l
  let ms := meanOf (l.map (fun r => r * r))
  let dmax : Rat := (s.get (ensR e) GLB_ENS_ACFG_DMAX : Rat) * 10 * nsU
  let bad := dmax != 0 && dmax < ratAbs mean
  let relearn := !bad && !s.on (ensR e) GLB_ENS_CFG_OMODE && !(s.slot e m).pil
  let s := s.setSlot e m (fun x => { x with
    ms := ms, learned := !bad, acc := [], passes := 0, p := none, d := if relearn then q16 (x.d + mean) else x.d })
  let s := if bad then s.setMState e m 4 3 tn else s.setMState e m 2 0 tn
  let s := if !bad && 0 < s.mW e m then s.setEns e (fun x => { x with pilot := none }) else s
  s.syncIncnt e

/-! ## TAMPER_REJOIN (R220) -/

def rejoinDue (s : State) (e m : Nat) : Bool :=
  (s.ensOf e).on && s.mState e m = 5 && s.on (ensR e) GLB_ENS_CFG_AUTO && (s.slot e m).tpass.2 &&
    s.get (ensR e) GLB_ENS_TCFG_REJOIN * 32000 ≤ (s.slot e m).tpass.1

def tamperRejoin (s : State) (e m tn : Nat) : State :=
  if s.rejoinDue e m then (s.memberOut e m 0 tn).bootIfOut e else s

/-! ## Allan weights (R219) -/

def allanDue (s : State) (e : Nat) : Bool :=
  (s.ensOf e).on && s.on (ensR e) GLB_ENS_CFG_WMODE &&
    (s.ensOf e).atick + 32000 * 2 ^ s.get (ensR e) GLB_ENS_CFG_ATAU ≤ s.prism.tick

/-- One member's step: D from three values of z, v moved by a sixteenth, and the raw weight. A raw weight with v = 0 is a
value the spec leaves open (log entry 9). -/
def allanStep (s : State) (e m : Nat) : State :=
  let x := s.slot e m
  match x.z with
  | none => s
  | some z =>
    let tau : Rat := (2 ^ s.get (ensR e) GLB_ENS_CFG_ATAU : Nat)
    let (v, nd) := match x.zs with
      | z1 :: z2 :: _ => let d := z - 2 * z1 + z2; (x.v + (d * d / (2 * tau * tau) - x.v) / 16, min 16 (x.nd + 1))
      | _ => (x.v, x.nd)
    let (w, s) := if v = 0 && nd = 16 then s.fresh 16 else (0, s)
    s.setSlot e m (fun x => { x with v := v, nd := nd, zs := z :: x.zs.take 1, rw := if v = 0 then (w : Rat) + 1 else 1 / v })

def allanUpdate (s : State) (e : Nat) : State :=
  if !s.allanDue e then s else
  let s := (List.range 8).foldl (fun s m => if s.mState e m = 2 then s.allanStep e m else s) s
  s.setEns e (fun x => { x with atick := x.atick + 32000 * 2 ^ s.get (ensR e) GLB_ENS_CFG_ATAU })

/-- Raw weights of the IN members with W > 0. -/
def rawWeights (s : State) (e : Nat) : List (Nat × Rat) :=
  let w := s.weighted e
  if !s.on (ensR e) GLB_ENS_CFG_WMODE then w.map (fun m => (m, (s.mW e m : Rat)))
  else
    let usable := w.filter (fun m => (s.slot e m).nd = 16)
    if usable.isEmpty then w.map (fun m => (m, 1))
    else w.map (fun m => (m, if usable.contains m then (s.slot e m).rw else 0))

/-- Shares in use, put into `GLB_EM_STAT.WUSE`. -/
def setShares (s : State) (e : Nat) : State :=
  let raw := s.rawWeights e
  let sum := (raw.map (·.2)).foldl (· + ·) 0
  let shares := if sum = 0 then raw else capShares ((s.get (ensR e) GLB_ENS_CFG_WCAP : Rat) / 100) (raw.map (fun r => (r.1, r.2 / sum)))
  (List.range 8).foldl (fun s m =>
    let u := assocD 0 shares m
    (s.setSlot e m (fun x => { x with u := u })).putSat (emsR e m) GLB_EM_STAT_WUSE (Config.quant (u * 32768)).toNat) s

/-! ## Hearth anchor (R226) -/

def reanchorDue (s : State) (e : Nat) : Bool :=
  let x := s.ensOf e
  x.on && x.x.isSome && s.on (ensR e) GLB_ENS_CFG_HEN && s.on glb1R GLB_HRT_STATUS_VALID &&
    (match x.anchor with
     | some a => a.2.2.1 + s.get (ensR e) GLB_ENS_HCFG_HWIN * 32000 ≤ s.prism.tick
     | none => true) &&
    s.verdictOf (56 + e) = 0 &&
    (List.range 8).all (fun m => s.mState e m < 3 && (s.mState e m != 2 || (s.slot e m).hok))

/-- The anchor is taken. -/
def reanchor (s : State) (e : Nat) : State :=
  if !s.reanchorDue e then s else
  (s.setEns e (fun x => { x with anchor := x.x.map (fun v => (v, x.fe, s.prism.tick, s.prism.now)), dH := 0, aSec := (s.ltc.sec : Rat) + (s.ltc.ns : Rat) / 1000000000, aTemp := s.hearth.temp })).putB
    (ensR e) GLB_ENS_STATUS_HANCH true

/-- The anchor is invalid while HEN = 0 or the model is not valid. -/
def checkAnchor (s : State) (e : Nat) : State :=
  if s.on (ensR e) GLB_ENS_CFG_HEN && s.on glb1R GLB_HRT_STATUS_VALID then s
  else (s.setEns e (fun x => { x with anchor := none })).putB (ensR e) GLB_ENS_STATUS_HANCH false

/-! ## Asymmetry estimation (R233) -/

/-- The ensemble that opens a window for PTP instance `k`: the one whose window for it is already open, or the lowest
that qualifies. -/
def asymChoice (s : State) (k : Nat) : Option Nat :=
  let has := fun (e m : Nat) => s.slotLive e m && s.mIdx e m = 36 + k
  match (List.range 8).find? (fun e => (s.ensOf e).on && (List.range 8).any (fun m => has e m && s.mState e m = 3)) with
  | some e => some e
  | none =>
    (List.range 8).find? (fun e => (s.ensOf e).on && !s.on (ensR e) GLB_ENS_STATUS_ASYM &&
      (List.range 8).any (fun m => has e m && s.mState e m = 2 && (s.weighted e).any (· != m)))

/-- Prism's answer to the path faults of the tick that ends. -/
def pathSuspects (s : State) (tn : Nat) : State :=
  let s := s.prism.psus.foldl (fun s k =>
    match s.asymChoice k with
    | none => s.setPrism (fun p => { p with asymOut := p.asymOut ++ [(k, 1)] })
    | some e0 =>
      let s := (List.range 8).foldl (fun s e => (List.range 8).foldl (fun s m =>
        if !(s.slotLive e m && s.mIdx e m = 36 + k) then s
        else if e = e0 then
          let s := (s.setMState e m 3 0 tn).setSlot e m (fun x => { x with acc := [], p := none })
          let s := s.setEns e (fun x => { x with asymEnd := some (s.prism.tick + s.get (ensR e) GLB_ENS_ACFG_AWIN * 32000) })
          ((s.putB (ensR e) GLB_ENS_STATUS_ASYM true).put (ensR e) GLB_ENS_STATUS_ASLOT m)
        else if 1 ≤ s.mState e m && s.mState e m ≤ 3 then s.memberOut e m 0 tn
        else s) s) s
      s.setPrism (fun p => { p with asymOut := p.asymOut ++ [(k, 0)] })) s
  s.setPrism (fun p => { p with psus := [] })

def asymDue (s : State) (e : Nat) : Bool :=
  match (s.ensOf e).asymEnd with | some t => t ≤ s.prism.tick | none => false

/-- The end of an estimation window: correction, condemnation or OUT. -/
def asymWindowEnd (s : State) (e tn : Nat) : State :=
  if !s.asymDue e then s else
  let m := s.get (ensR e) GLB_ENS_STATUS_ASLOT
  let k := s.mIdx e m - 36
  let l := (s.slot e m).acc
  let eps := meanOf l
  let amax : Rat := (s.get (ensR e) GLB_ENS_ACFG_AMAX : Rat) * 10 * nsU
  let s := s.setEns e (fun x => { x with asymEnd := none })
  let out := fun (s : State) (c : Nat) => s.setPrism (fun p => { p with asymOut := p.asymOut ++ [(k, c)] })
  let s := if l.length < 16 then out (s.memberOut e m 0 tn) 2
    else if amax < ratAbs eps then
      out ((s.setMState e m 4 4 tn).setSlot e m (fun x => { x with acc := [], passes := 0 })) 4
    else
      let s := (s.setMState e m 2 0 tn).setSlot e m (fun x => { x with acc := [] })
      let s := s.putSatI (pjR k) HRD_PI_PCOR_PCOR (s.getI (pjR k) HRD_PI_PCOR_PCOR - Config.quant (eps / nsU * 256))
      out s 3
  (s.syncIncnt e).bootIfOut e

/-! ## One boundary (R214) -/

/-- Boot: the pilot's first sample defines x (R217). -/
def ensPilot (s : State) (e tn : Nat) : State :=
  let pilot := (List.range 8).find? (fun m =>
    s.slotLive e m && s.mState e m = 0 && s.verdictNow (s.mIdx e m) tn = 0 && s.admissible (s.mIdx e m) && 0 < s.mW e m)
  match pilot with
  | none => s
  | some m =>
    let s := s.put (ensR e) GLB_ENS_STATUS_PILOT m
    match (s.ref (s.mIdx e m)).samp with
    | none => s
    | some samp =>
      let d := s.startOff e m
      let s := (s.setSlot e m (fun _ => { d := d, p := some (q16 (samp - d), s.prism.now), pil := true })).setMState e m 1 0 tn
      let s := s.setEns e (fun x => { x with
        x := some (q16 (samp - d)), fe := (s.ref (s.mIdx e m)).freq, tx := s.prism.now, pilot := some m, anchor := none })
      let s := s.putB (ensR e) GLB_ENS_STATUS_BOOT false
      s.setRef (56 + e) (fun r => { r with
        v := 2, cause := 0, win := none, pend := [], last := none, fit := [], freq := 0
        soak := if r.forced.isSome then none else some s.prism.tick })

/-- The residual of a slot's sample against the prediction `xp`, and whether the ensemble and the Hearth gate fail it (R214,
R225, R226). -/
def gates (s : State) (e m : Nat) (x xp : Rat) : Rat × Bool × Bool :=
  let r := q16 (x - (s.slot e m).d - xp)
  (r, s.gateFails e m r, match s.hearthRes e m x with | some h => s.hearthFails e m h | none => false)

/-- The prediction for this boundary (R214), while x is defined. -/
def ensPredict (s : State) (e : Nat) : Option Rat :=
  (s.ensOf e).x.map (fun x => q16 (x + (s.ensOf e).fe * (s.prism.now - (s.ensOf e).tx : Int)))

/-- A slot whose sample the gates judge in this tick (R213, R220). -/
def judged (s : State) (e m : Nat) : Bool :=
  [2, 4, 5].contains (s.mState e m) && s.slotLive e m && s.admissible (s.mIdx e m) && !s.prism.chg.contains (e, m)

/-- The gates of an ensemble judge the samples of the tick (R214), before any member changes its state. -/
def ensJudge (s : State) (e : Nat) : State :=
  match s.ensPredict e with
  | none => s
  | some xp =>
    if !(s.ensOf e).on then s else
    (List.range 8).foldl (fun s m =>
      let i := s.mIdx e m
      match s.judged e m, (s.ref i).samp with
      | true, some x =>
        let (_, g, h) := s.gates e m x xp
        s.setPrism (fun p => { p with gjud := i :: p.gjud, gfail := if g || h then i :: p.gfail else p.gfail })
      | _, _ => s) s

/-- One slot against the prediction `xp`: residuals collected or judged, and its change of state. -/
def ensMember (s : State) (e m tn : Nat) (xp : Rat) : State :=
  let i := s.mIdx e m
  let st := s.mState e m
  let samp := (s.ref i).samp
  let v := s.verdictNow i tn
  if s.prism.chg.contains (e, m) then s
  else if st != 0 && (!s.slotLive e m || !s.admissible i) then s.memberOut e m 0 tn
  else if !s.slotLive e m || !s.admissible i then s
  else
  match st, samp with
  | 0, some _ =>
    if v = 0 then (s.setSlot e m (fun _ => { d := s.startOff e m })).setMState e m 1 0 tn else s
  | 0, none => s
  | 1, _ =>
    let s := match samp with
      | some x => s.setSlot e m (fun y => { y with acc := y.acc ++ [q16 (x - y.d - xp)] })
      | none => s
    if v = 2 then s.memberOut e m 0 tn else s
  | 3, _ =>
    match samp with
    | some x => s.setSlot e m (fun y => { y with acc := y.acc ++ [q16 (x - y.d - xp)] })
    | none => s
  | _, none =>
    let s := if st = 5 then s.setSlot e m (fun y => { y with tpass := (y.tpass.1 + 1, y.tpass.2) }) else s
    if st = 2 && v = 2 then s.memberOut e m 0 tn
    else if st = 2 then
      let s := s.putB (emsR e m) GLB_EM_STAT_HELD (v = 1)
      if v = 1 then s.setSlot e m (fun y => { y with p := none }) else s
    else s
  | _, some x =>
    let d := (s.slot e m).d
    let (r, g, h) := s.gates e m x xp
    let bad := g || h
    let cause := if g then 1 else 2
    let s := s.setSlot e m (fun y => { y with z := some r, hok := !h })
    if st = 2 then
      if bad then
        ((s.setMState e m 4 cause tn).put (emsR e m) GLB_EM_STAT_FAILS 1).setSlot e m
          (fun y => { y with passes := 0, p := none })
      else if v = 2 then s.memberOut e m 0 tn
      else
        let s := s.putB (emsR e m) GLB_EM_STAT_HELD (v = 1)
        s.setSlot e m (fun y => { y with p := if v = 0 then some (q16 (x - d), s.prism.now) else none })
    else if st = 4 then
      if bad then
        let n := s.get (emsR e m) GLB_EM_STAT_FAILS + 1
        let s := (s.putSat (emsR e m) GLB_EM_STAT_FAILS n).setSlot e m (fun y => { y with passes := 0 })
        if s.get (ensR e) GLB_ENS_TCFG_TFAIL ≤ n then
          (s.setMState e m 5 cause tn).setSlot e m (fun y => { y with tpass := (0, false) })
        else s
      else
        let n := (s.slot e m).passes + 1
        let s := s.setSlot e m (fun y => { y with passes := n })
        if s.get (ensR e) GLB_ENS_TCFG_TPASS ≤ n && v = 0 then
          ((s.setMState e m 2 0 tn).put (emsR e m) GLB_EM_STAT_FAILS 0).setSlot e m
            (fun y => { y with p := none, passes := 0, learned := true })
        else s
    else if bad then s.setSlot e m (fun y => { y with tpass := (0, false) })
    else s.setSlot e m (fun y => { y with tpass := (y.tpass.1 + 1, true) })

/-- x and fe from the members' estimates, from the pilot alone, or carried on (R214, R215, R217, R231). -/
def ensCombine (s : State) (e : Nat) (xp : Rat) : State :=
  let now := s.prism.now
  let held := fun m => s.on (emsR e m) GLB_EM_STAT_HELD
  let parts := (s.weighted e).filterMap (fun m =>
    match (s.slot e m).p with
    | some (p, t) => if held m then none else
        let f := (s.ref (s.mIdx e m)).freq
        some ((s.slot e m).u, p + f * (now - t : Int), f)
    | none => none)
  let su := (parts.map (·.1)).foldl (· + ·) 0
  let (x, fe) :=
    if su != 0 then
      ((parts.map (fun a => a.1 * a.2.1)).foldl (· + ·) 0 / su, (parts.map (fun a => a.1 * a.2.2)).foldl (· + ·) 0 / su)
    else match (s.ensOf e).pilot with
      | some m =>
        let i := s.mIdx e m
        let f := (s.ref i).freq
        match (s.ref i).samp, (s.slot e m).p with
        | some v, _ => (v - (s.slot e m).d, f)
        | none, some (p, t) => (p + f * (now - t : Int), f)
        | none, none => (xp, (s.ensOf e).fe)
      | none => (xp, (s.ensOf e).fe)
  let s := match (s.ensOf e).pilot with
    | some m => match (s.ref (s.mIdx e m)).samp with
      | some v => s.setSlot e m (fun y => { y with p := some (q16 (v - y.d), now) })
      | none => s
    | none => s
  s.setEns e (fun y => { y with x := some (q16 x), fe := fe, tx := now })

/-- Rank and clockClass of index 56 + e (R232). -/
def ensQuality (s : State) (e : Nat) : State :=
  let w := s.weighted e
  if w.length < s.get (ensR e) GLB_ENS_CFG_QMIN then s.setQuality (56 + e) 15 255 else
  let best := w.foldl (fun b m => match b with
    | none => some m
    | some k => if (s.slot e k).u < (s.slot e m).u then some m else b) none
  match best with
  | some m => s.setQuality (56 + e) (s.get (priR (s.mIdx e m)) PRS_QUAL_EQL) (s.get (priR (s.mIdx e m)) PRS_QUAL_ECC)
  | none => s.setQuality (56 + e) 15 255

/-- The sample of index 56 + e and its external result, at a boundary at which x is defined (R216, R231). -/
def ensPublish (s : State) (e : Nat) : State :=
  if (s.ensOf e).x.isNone then s else
  let s := s.addRes (56 + e) 6 (s.get (ensR e) GLB_ENS_STATUS_INCNT < s.get (ensR e) GLB_ENS_CFG_QMIN)
  s.setRef (56 + e) (fun r => { r with vs := (s.ensOf e).x })

/-- One slot while x is undefined: the rows of R220 that need no gate. -/
def ensIdle (s : State) (e m tn : Nat) : State :=
  let i := s.mIdx e m
  let st := s.mState e m
  if st != 0 && (!s.slotLive e m || !s.admissible i) then s.memberOut e m 0 tn
  else if (st = 1 || st = 2) && s.verdictNow i tn = 2 then s.memberOut e m 0 tn
  else if st = 5 then s.setSlot e m (fun y => { y with tpass := (y.tpass.1 + 1, y.tpass.2) })
  else s

/-- The pilot's part ends when a member with W > 0 is IN; BOOT starts again when the pilot goes OUT before (R217). -/
def pilotCheck (s : State) (e : Nat) : State :=
  match (s.ensOf e).pilot with
  | none => s
  | some m =>
    if !(s.weighted e).isEmpty then s.setEns e (fun y => { y with pilot := none })
    else if s.mState e m = 0 then (s.ensBoot e).syncIncnt e
    else s

/-- An ensemble stops or starts before its samples are judged. -/
def ensStart (s : State) (e tn : Nat) : State :=
  let s := if (s.ensOf e).on && !s.on (ensR e) GLB_ENS_CFG_EN then s.ensStop e tn else s
  if !(s.ensOf e).on then s else (s.checkAnchor e).bootIfOut e

/-- One ensemble at a boundary; `tn` is the tick that ended. -/
def ensTick (s : State) (e tn : Nat) : State :=
  if !(s.ensOf e).on then s else
  match s.ensPredict e with
  | none =>
    let s := (List.range 8).foldl (fun s m => s.ensIdle e m tn) s
    ((s.syncIncnt e).ensPilot e tn).ensPublish e
  | some xp =>
    let s := (List.range 8).foldl (fun s m => s.ensMember e m tn xp) s
    let s := ((s.asymWindowEnd e tn).pilotCheck e).bootIfOut e
    if (s.ensOf e).x.isNone then s else
    let s := (s.setShares e).syncIncnt e
    (s.ensCombine e xp).ensPublish e

/-- Steps of their own that are due and were not commanded in the tick (log entry 14). -/
def ensDue (s : State) : State :=
  (List.range 8).foldl (fun s e =>
    let s := (List.range 8).foldl (fun s m => (s.learnEnd e m (s.tn - 1)).tamperRejoin e m (s.tn - 1)) s
    ((s.asymWindowEnd e (s.tn - 1)).allanUpdate e).reanchor e) s

/-- PLAUS results of the indices that were judged, or that stand in IN, TSUSP or TAMPER of an enabled ensemble or TAMPER of
any (R228). -/
def plausResults (s : State) : State :=
  let tamper := fun i => (List.range 8).any (fun e => (List.range 8).any (fun m => s.mState e m = 5 && s.mIdx e m = i))
  let member := fun i => (List.range 8).any (fun e => (List.range 8).any (fun m => s.mIdx e m = i &&
    (s.mState e m = 5 || ((s.ensOf e).on && (s.mState e m = 2 || s.mState e m = 4)))))
  (List.range 49).foldl (fun s i =>
    if (s.ref i).samp.isSome && (s.prism.gjud.contains i || member i) then
      s.addRes i 5 (s.prism.gfail.contains i || tamper i)
    else s) s

/-- All ensembles at a boundary: every gate judges before any verdict is formed, and members change state by the verdicts
(R214, R220, R228; log entry 13). -/
def ensAll (s : State) (tn : Nat) : State :=
  let s := s.setPrism (fun p => { p with gjud := [], gfail := [], chg := [] })
  let s := s.pathSuspects tn
  let s := (List.range 8).foldl (fun s e => s.ensStart e tn) s
  let s := ((List.range 8).foldl ensJudge s).plausResults
  (List.range 8).foldl (fun s e => s.ensTick e tn) s

/-! ## ENSEMBLE_SET and TAMPER_CLEAR -/

/-- The configuration of a payload takes over and the ensemble restarts (R234). -/
def ensembleSet (s : State) (e : Nat) (pl : List Byte) (tn : Nat) : State :=
  let kept := (List.range 8).filterMap (fun m =>
    if 4 ≤ s.mState e m then some (m, s.mIdx e m, s.mState e m, s.get (emsR e m) GLB_EM_STAT_FAILS, s.slot e m) else none)
  let wasOpen := (s.ensOf e).asymEnd.isSome
  let k := s.mIdx e (s.get (ensR e) GLB_ENS_STATUS_ASLOT) - 36
  let target := fun (s : State) (i : Nat) => (List.range 8).find? (fun m => s.slotLive e m && s.mIdx e m = i)
  let en := fun m => leAt pl (20 + 4 * m) 4 / 64 % 2 = 1
  let idx := fun m => leAt pl (20 + 4 * m) 4 % 64
  let place := fun i => (List.range 8).find? (fun m => en m && idx m = i)
  -- every slot goes OUT under the old configuration, except a condemned one whose index stays in it
  let s := (List.range 8).foldl (fun s m =>
    if 4 ≤ s.mState e m && place (s.mIdx e m) = some m then s.put (emsR e m) GLB_EM_STAT_STATE 0 else s.memberOut e m 0 tn) s
  let s := if wasOpen then s.setPrism (fun p => { p with asymOut := p.asymOut ++ [(k, 2)] }) else s
  let s := (List.range 5).foldl (fun s w => s.putWord (ensR e + w) (leAt pl (4 * w) 4)) s
  let s := (List.range 8).foldl (fun s m => s.putWord (emsR e m) (leAt pl (20 + 4 * m) 4)) s
  let s := kept.foldl (fun s k =>
    match target s k.2.1 with
    | some m =>
      if s.mState e m != 0 then s else
      let s := if m = k.1 then s.put (emsR e m) GLB_EM_STAT_STATE k.2.2.1 else s.setMState e m k.2.2.1 0 tn
      (s.put (emsR e m) GLB_EM_STAT_FAILS k.2.2.2.1).setSlot e m (fun _ => k.2.2.2.2)
    | none => s) s
  let s := s.setRef (56 + e) (fun r => { r with v := 2, cause := 0, win := none, pend := [], soak := none })
  let s := (s.putB (ensR e) GLB_ENS_STATUS_ASYM false).setEns e (fun x => { x with asymEnd := none })
  if s.on (ensR e) GLB_ENS_CFG_EN then
    (s.setEns e (fun x => { x with on := true, atick := s.prism.tick })).ensBoot e |>.syncIncnt e
  else s.ensStop e tn

/-- Named slots in TSUSP or TAMPER go OUT (R235). -/
def tamperClear (s : State) (e slots tn : Nat) : State :=
  ((List.range 8).foldl (fun s m =>
    if slots / 2 ^ m % 2 = 1 && 4 ≤ s.mState e m then s.memberOut e m 5 tn else s) s).syncIncnt e |>.bootIfOut e

/-- The latch a `GLB_ENS_LATCH` write asks for (R236). -/
def latchEns (s : State) : State :=
  (List.range 8).foldl (fun s e =>
    if !(s.ensOf e).latch then s else
    let m := s.get (ensR e) GLB_ENS_LATCH_SLOT
    let x := s.slot e m
    let s := (s.putB (ensR e) GLB_ENS_LATCH_VALID x.learned).putSat (ensR e) GLB_ENS_LATCH_SIGMA (quantSqrt x.ms).toNat
    (s.putSatI (ensR e) GLB_ENS_LOFF_D (Config.quant x.d)).setEns e (fun x => { x with latch := false })) s

end State

end Sys2Proof.Machine
end

