-- ==== Sys2Proof/Machine/Timecode.lean ====
section
/-! DEFINITION. The time-of-day decoder of index 48 (R192–R196). -/

namespace Sys2Proof.Machine

/-- Days from 1970-01-01 to the first of January of a year of the Gregorian calendar. -/
def daysToYear (y : Nat) : Int :=
  let p := y - 1
  (y - 1970 : Int) * 365 + ((p / 4 : Nat) : Int) - (p / 100 : Nat) + (p / 400 : Nat) - 477

def isLeapYear (y : Nat) : Bool := (y % 4 = 0 && y % 100 != 0) || y % 400 = 0

/-- Day of the year, from 0. -/
def dayOfYear (y m d : Nat) : Nat :=
  ([31, if isLeapYear y then 29 else 28, 31, 30, 31, 30, 31, 31, 30, 31, 30, 31].take (m - 1)).foldl (· + ·) 0 + (d - 1)

/-- Seconds of a clock reading since 1970-01-01 of its own scale; 23:59:60 counts as the second after 23:59:59. -/
def clockSeconds (y doy h mi sec : Nat) : Int :=
  (daysToYear y + (doy : Nat)) * 86400 + ((h * 3600 + mi * 60 + sec : Nat) : Int)

/-- Calendar date of a day count since 1970-01-01: year and day of the year from 1, by whole years from 1970. -/
def yearOfDays (days : Nat) : Nat × Nat :=
  -- 400-year cycles of 146,097 days from 1601-01-01, 134,774 days before 1970-01-01
  let d := days + 134774
  let q400 := d / 146097
  let r := d % 146097
  let q100 := min 3 (r / 36524)
  let r := r - q100 * 36524
  let q4 := r / 1461
  let r := r % 1461
  let q1 := min 3 (r / 365)
  (1601 + q400 * 400 + q100 * 100 + q4 * 4 + q1, r - q1 * 365 + 1)

/-- The fields an IRIG-B code carries by its last digit (R386): control functions, the year and straight binary seconds. -/
def codeCtl (code : Nat) : Bool := code = 0 || code = 1 || code = 4 || code = 5
def codeYear (code : Nat) : Bool := 4 ≤ code && code ≤ 7
def codeSbs (code : Nat) : Bool := code = 0 || code = 3 || code = 4 || code = 7

namespace State

/-- LTC time of the boundary or command at which the decoder looks, in 2 ps units. -/
def tcNow (s : State) : Int := (s.ltc.sec : Int) * 500000000000 + (s.ltc.ns : Int) * 500

/-- LTC time of an on-time edge in 2 ps units. -/
def tcAt (e : Nat × Nat × Int × Bool) : Int := (e.1 : Int) * 500000000000 + (e.2.1 : Int)

/-- The result of the last on-time edge (R196). `t` is the TAI second assigned; `utc` says that the scale needs the UTC
offset. -/
def tcResult (s : State) (t : Option Int) (utc : Bool) : State :=
  let tc := s.prism.tc
  match tc.edge with
  | none => s
  | some e =>
    let fail := match t with
      | none => true
      | some t =>
        (match tc.prev with | some (p, n) => t != p + (n : Nat) | none => false) ||
        (s.on ltcR LTC_STATUS_SET && s.qualState = 3 && tcNear e != t) ||
        (utc && !s.on ltcR LTC_UTCOFF_VALID)
    let s := if t.isNone then s.bump prsR PRS_TC_ERR_MISSING else s
    let s := if fail then s.bump prsR PRS_TC_ERR_TODFAIL else s
    let s := s.putB prsR PRS_TC_STATUS_LOCK (!fail)
    let s := s.addRes 48 4 fail
    s.setTc (fun c => { c with done := true, prev := match t with | some t => some (t, 0) | none => c.prev })

/-- An error of the decoder that leaves the edge without a time, where one waits (R196). -/
def tcFail (s : State) (f : Fld) : State :=
  let s := s.bump prsR f
  if s.prism.tc.done then s else s.tcResult none false

/-- TAI second of a decoded time (R195); none for a 23:59:60 outside a second with LEAP_INS 1. -/
def tcTai (edge : Nat × Nat × Int × Bool) (utc : Bool) (t : Int) (is60 : Bool) : Option Int :=
  if is60 && !edge.2.2.2 then none else some (if utc then t + edge.2.2.1 else t)

/-- Sentences that name the edge (ALIGN = 1, R193): those that end less than 100 ms before it count as FORMAT, and the
newest of the others is its time. One that ends after the edge names the edge after it. -/
def tcSentence (s : State) (e : Nat × Nat × Int × Bool) : State :=
  let after := fun (n : Int × Bool × Nat) => Decidable.decide (tcAt e < (n.2.2 : Int) * 500)
  let late := fun (n : Int × Bool × Nat) => Decidable.decide (tcAt e < (n.2.2 : Int) * 500 + 50000000000)
  let bad := s.prism.tc.next.filter (fun n => late n && !after n)
  let good := (s.prism.tc.next.filter (fun n => !late n)).head?
  let s := bad.foldl (fun s _ => s.bump prsR PRS_TC_ERR_FORMAT) s
  let s := s.setTc (fun c => { c with next := c.next.filter after })
  match good with
  | none => s.tcResult none true
  | some n =>
    match tcTai e true n.1 n.2.1 with
    | some v => s.tcResult (some v) true
    | none => s.tcFail PRS_TC_ERR_FORMAT

/-- An on-time edge at an LTC time in 2 ps units. OFFSET and LEAP_INS are those latched at the boundary that began its tick
(log entry 62). -/
def tcEdge (s : State) (t : Int) : State :=
  let s := if s.prism.tc.edge.isSome && !s.prism.tc.done then s.tcResult none false else s
  let at' := t.toNat
  let e := (at' / 500000000000, at' % 500000000000, signed (s.utcOf LTC_UTCOFF_OFFSET) 16, s.utcOn LTC_UTCOFF_LEAP_INS)
  let s := s.setTc (fun c => { c with edge := some e, done := false, prev := c.prev.map (fun p => (p.1, p.2 + 1)) })
  if s.on prsR PRS_TC_CFG_SRC || !s.on prsR PRS_TC_CFG_ALIGN then s else s.tcSentence e

/-- LTC time of the boundary that ends the running tick, 2 ps units. -/
def tcEnd (s : State) : Int := ((s.ltcRaw s.tickRest * 500 / 2 ^ 32 : Nat) : Int)

/-- On-time edges of the running tick that have not been taken yet, the first `n` of those in `befores`, times ahead of the
boundary that ends the tick. -/
def tcEarly (s : State) (befores : List Nat) : State :=
  let s := (befores.drop s.prism.tc.taken).foldl (fun s b => s.tcEdge (s.tcEnd - b)) s
  s.setTc (fun c => { c with taken := max c.taken befores.length })

/-- By the end of the running tick the limit of the last edge passes without a time (R196): the assignment limit of ALIGN = 0,
or, for IRIG-B, the second that its frame takes, when no frame has ended by the start of the tick (log entry 62). -/
def tcOverdue (s : State) (e : Nat × Nat × Int × Bool) : Bool :=
  if s.on prsR PRS_TC_CFG_SRC then tcAt e + 500000000000 < s.tcNow
  else !s.on prsR PRS_TC_CFG_ALIGN && tcAt e + 450000000000 < s.tcEnd

/-- The limit of the last on-time edge passed without a time (R196). -/
def tcDeadline (s : State) : State :=
  match s.prism.tc.edge with
  | none => s
  | some e => if !s.prism.tc.done && s.tcOverdue e then s.tcResult none true else s

/-- A sentence is received (R193, R195). A further sentence for an edge that has its time, within the limit, changes
nothing (log entry 62). An RMC whose status is not A counts as FORMAT (log entry 67). -/
def todSentence (s : State) (x : TodIn) : State :=
  let s := if s.on prsR PRS_TC_CFG_EN then s.tcEarly x.edges else s
  if !s.on prsR PRS_TC_CFG_EN || s.on prsR PRS_TC_CFG_SRC || !x.known then s
  else if !x.cksum then s.bump prsR PRS_TC_ERR_CKSUM
  else if !x.wellFormed || (x.rmc && !x.active) then s.bump prsR PRS_TC_ERR_FORMAT
  else
    let t := clockSeconds x.year (dayOfYear x.year x.month x.day) x.hour x.min x.sec
    let is60 := x.sec = 60
    let now := s.ltc.sec * 1000000000 + s.ltc.ns + x.ends
    if s.on prsR PRS_TC_CFG_ALIGN then s.setTc (fun c => { c with next := (t, is60, now) :: c.next })
    else
      match s.prism.tc.edge with
      | none => s.bump prsR PRS_TC_ERR_FORMAT
      | some e =>
        if tcAt e + 450000000000 < (now : Int) * 500 then s.bump prsR PRS_TC_ERR_FORMAT
        else if s.prism.tc.done then s
        else
          match tcTai e true t is60 with
          | some v => s.tcResult (some v) true
          | none => s.bump prsR PRS_TC_ERR_FORMAT

/-- The decoder takes a frame of this modulation: DC level shift from a KIND 2 input, Manchester from a KIND 3 one,
read with the input's INV (R173, R194). -/
def irigTaken (s : State) (x : IrigIn) : Bool :=
  let k := s.refKind (s.get prsR PRS_TC_CFG_IN)
  s.on prsR PRS_TC_CFG_EN && s.on prsR PRS_TC_CFG_SRC && (if x.manchester then k = 3 else k = 2) && x.code ≤ 7 &&
    s.get (priR (s.get prsR PRS_TC_CFG_IN)) PRS_IN_CFG_FMT != 3 && s.on (priR (s.get prsR PRS_TC_CFG_IN)) PRS_IN_CFG_INV = x.inv

/-- The year a frame is read with: its own, or, of a code without one, that of the LTC (log entry 62). -/
def irigYear (s : State) (x : IrigIn) : Nat :=
  if codeYear x.code || codeCtl x.code then x.year else (yearOfDays (s.ltc.sec / 86400)).1

/-- The readings a frame carries twice agree (log entry 62). -/
def irigAgrees (x : IrigIn) : Bool := !codeSbs x.code || x.sbs = x.hour * 3600 + x.min * 60 + x.sec

/-- LSP, LSS, TQ and what FOLLOW takes, from the control functions of a frame (R194, R195). -/
def irigControl (s : State) (x : IrigIn) : State :=
  if !codeCtl x.code then s.setTc (fun c => { c with carries := none }) else
  let s := ((s.putB prsR PRS_TC_STATUS_LSP x.leapPending).putB prsR PRS_TC_STATUS_LSS x.leapSign).put prsR PRS_TC_STATUS_TQ x.tq
  s.setTc (fun c => { c with dst := x.dst, carries := some (x.leapPending && !x.leapSign, x.leapPending && x.leapSign) })

/-- An IRIG-B frame ends (R194, R195, R196). With TS = 1 a code that carries no control functions, and so no time offset, is
read with an offset of 0 (log entry 67). -/
def irigFrame (s : State) (x : IrigIn) : State :=
  if !s.irigTaken x then s
  else if codeCtl x.code && !x.parity then s.tcFail PRS_TC_ERR_CKSUM
  else if !x.wellFormed || !irigAgrees x then s.tcFail PRS_TC_ERR_FORMAT
  else
    let s := s.irigControl x
    match s.prism.tc.edge with
    | none => s.bump prsR PRS_TC_ERR_FORMAT
    | some e =>
      if s.prism.tc.done then s.bump prsR PRS_TC_ERR_FORMAT else
      let ts := s.get prsR PRS_TC_CFG_TS
      let t := clockSeconds (s.irigYear x) (x.doy - 1) x.hour x.min x.sec
        - (if ts = 1 && codeCtl x.code then x.offset * 1800 else 0)
      match tcTai e (ts != 2) t (x.sec = 60) with
      | some v => s.tcResult (some v) (ts != 2)
      | none => s.tcFail PRS_TC_ERR_FORMAT

end State

end Sys2Proof.Machine
end

