-- ==== Sys2Proof/Machine/Model.lean ====
section
/-! DEFINITION. Evaluating the Hearth model and the holdover word of a channel (R312–R317). -/

namespace Sys2Proof.Machine

/-- m(t, T) of R313, t in TAI seconds. -/
def Model.eval (md : Model) (t tmp : Rat) : Rat :=
  let a := t - md.tf
  let b := tmp - md.tref
  md.c0 + md.c1 * a + md.k1 * b + md.k2 * b * b

namespace State

def setHearth (s : State) (f : HearthSt → HearthSt) : State := { s with hearth := f s.hearth }

/-- The temperature held within the range of R317 while the temperature terms are fitted. -/
def clampTemp (s : State) (md : Model) (t : Rat) : Rat :=
  let g : Rat := (s.get glb1R GLB_HRT_CFG1_TMARG : Rat) / 4
  if md.tfit then ratMin (ratMax t (md.tmin - g)) (md.tmax + g) else t

/-- The LTC as TAI seconds. -/
def ltcSeconds (s : State) : Rat := (s.ltc.sec : Rat) + (s.ltc.ns : Rat) / 1000000000

/-- The model's value now, with the reading in effect. -/
def modelNow (s : State) : Option Rat :=
  if !s.on glb1R GLB_HRT_STATUS_VALID then none
  else s.hearth.model.map (fun md => md.eval s.ltcSeconds (s.clampTemp md s.hearth.temp))

/-- The newest valid mean of a channel whose interval ended GUARD intervals before the anchor tick (R315). -/
def eligibleMean (s : State) (c anchor : Nat) : Option (Nat × Rat × Rat) :=
  let guardT := s.get glb1R GLB_HRT_CFG_GUARD * s.get glb1R GLB_HRT_CFG_INTV * 32000
  ((s.chan c).means.find? (fun m => m.2.2.2 && m.1 * 32000 + guardT ≤ anchor)).map (fun m => (m.1, m.2.1, m.2.2.1))

/-- A channel's Hearth model is valid (R314). -/
def chanModelValid (s : State) (c anchor : Nat) : Bool :=
  s.on glb1R GLB_HRT_STATUS_VALID && (s.eligibleMean c anchor).isSome

/-- What a holdover that is anchored at a tick steers from. -/
def holdFrom (s : State) (c anchor : Nat) : Option Hold :=
  (s.eligibleMean c anchor).map (fun m => { ybar := m.2.1, tm := m.1, tbar := m.2.2 })

/-- The Hearth word y_hold of a channel (R315, R316); `i` is the integral held for want of a mean. -/
def holdWord (s : State) (h : Option Hold) (i : Rat) : Rat :=
  match h with
  | none => i
  | some h =>
    match h.frozen with
    | some y => y
    | none =>
      match s.hearth.model, s.on glb1R GLB_HRT_STATUS_VALID with
      | some md, true =>
        h.ybar + md.eval s.ltcSeconds (s.clampTemp md s.hearth.temp) - md.eval h.tm h.tbar
      | _, _ => h.ybar

end State

end Sys2Proof.Machine
end

