-- ==== Sys2Proof/Machine/Miller.lean ====
section
/-! DEFINITION. Miller: gains, the loop filter, channel states, speculation, and what a boundary applies (R242–R306).
Times and offsets are in seconds, frequencies are fractions. -/

namespace Sys2Proof.Machine

/-- The tick in seconds. -/
def tickS : Rat := 1 / 32000

/-- A 2 ps unit in seconds. -/
def unit2ps : Rat := 1 / 500000000000

/-- π to forty decimals: the spec names the number, the model uses this fraction of it (log entry 15). -/
def piQ : Rat := 31415926535897932384626433832795028841972 / 10000000000000000000000000000000000000000

def clampQ (lo hi x : Rat) : Rat := if x < lo then lo else if hi < x then hi else x

/-- A value held to 2⁻⁸⁰ (R253). -/
def q80 (r : Rat) : Rat := (Config.quant (r * 2 ^ 80) : Rat) / 2 ^ 80

/-- An excursion held to 2⁻¹⁶ ps (R287). -/
def qX (r : Rat) : Rat := (Config.quant (r * 1000000000000 * 65536) : Rat) / 65536 / 1000000000000

/-- A phase held to 2⁻³² ns (R243). -/
def qPh (r : Rat) : Rat := (Config.quant (r * 1000000000 * 2 ^ 32) : Rat) / 2 ^ 32 / 1000000000

/-- The NCO word of a frequency (R250, R253), and back (R242). -/
def toWord (y : Rat) : Int := State.roundAway (y * 2 ^ 64)
def ofWord (w : Int) : Rat := (w : Rat) / 2 ^ 64

/-- Settings a filter step reads: gains, limits, sample rate. -/
structure LoopSet where
  kp : Rat
  ki : Rat
  pslope : Rat
  fmax : Rat
  fs : Rat
deriving DecidableEq, Repr

/-- The slew of R250: delta and the feed-forward, which keep d moving towards dt. -/
def Bank.slew (b : Bank) (g : LoopSet) : Rat := clampQ (-(g.pslope * tickS)) (g.pslope * tickS) (b.dt - b.d)

/-- The word from i (or another base), feed-forward and proportional term, limited as R254 and R255 say: what FMAX removes
comes from the proportional term, then from the feed-forward, as far as these hold it. -/
def Bank.word (b : Bank) (g : LoopSet) (base ff pc : Rat) (iClamped : Bool) (d0 : Rat) : Bank :=
  let y := base + ff + pc
  let y' := clampQ (-g.fmax) g.fmax y
  let ex := y - y'
  let take := if 0 < ex then ratMin ex (ratMax pc 0) else ratMax ex (ratMin pc 0)
  let rest := ex - take
  let ff' := ff - (if 0 < ex then ratMin rest (ratMax ff 0) else ratMax rest (ratMin ff 0))
  { b with ff := ff', pc := pc - take, y := y', d := q80 (d0 - ff' * tickS), fcl := iClamped || ex != 0 }

/-- One tick of R250. `smp` is the error of a sample that enters, in seconds. -/
def Bank.step (b : Bank) (g : LoopSet) (smp : Option Rat) : Bank :=
  let delta := b.slew g
  let ff := -delta / tickS
  let room := g.pslope - ratAbs ff
  let d0 := b.d
  let b := { b with since := b.since.map (· + 1) }
  let (b, icl) := match smp with
    | none => (b, false)
    | some e =>
      let ee := e - b.dp
      let p := g.kp * ee
      let t := match b.since with | none => 1 / g.fs | some n => ratMin ((n : Rat) * tickS) (4 / g.fs)
      let raw := b.i + g.ki * ee * t
      let inside := ratAbs p ≤ room
      let i := if inside then q80 (clampQ (-g.fmax) g.fmax raw) else b.i
      ({ b with i := i, pk := q80 p, ee := ee, since := some 0, pcl := !inside },
        inside && raw != clampQ (-g.fmax) g.fmax raw)
  { (b.word g b.i ff (clampQ (-room) room b.pk) icl d0) with dp := d0 }

/-- A tick in HOLDOVER or in an S bank of SPEC_HOLD: the Hearth word plus the feed-forward; i held, pk 0 (R284). -/
def Bank.hold (b : Bank) (g : LoopSet) (yh : Rat) : Bank :=
  let delta := b.slew g
  let d0 := b.d
  let b := { b with since := b.since.map (· + 1), pk := 0 }
  { (b.word g yh (-delta / tickS) 0 false d0) with dp := d0 }

/-- A tick in which d does not move: FREERUN (R256). -/
def Bank.free (b : Bank) (y : Rat) : Bank := { b with since := b.since.map (· + 1), ff := 0, pc := 0, y := y, dp := b.d, fcl := false }

/-- The word of a bank formed again on a base with a proportional term, the slew of the tick kept. -/
def Bank.rebase (b : Bank) (g : LoopSet) (base pk : Rat) : Bank :=
  let room := ratMax 0 (g.pslope - ratAbs b.ff)
  { (b.word g base b.ff (clampQ (-room) room pk) b.fcl (b.d + b.ff * tickS)) with dp := b.dp }

/-- The word of a bank formed again after i and pk were set (R257). -/
def Bank.reword (b : Bank) (g : LoopSet) : Bank := b.rebase g b.i b.pk

/-- The NCO takes a word, in effect and from here on. -/
def Chan.setWord (x : Chan) (w : Int) : Chan := { x with fw := w, out := w, fwNext := w, outNext := w }

/-- The excursion the outputs have at the last boundary: x is where the words of the tick lead (R287). -/
def Chan.exc (x : Chan) : Rat := x.x - ofWord (x.out - x.fw) * tickS

namespace State

/-! ## Settings -/

def milState (s : State) (c : Nat) : Nat := s.get (milR c) MIL_STATUS_STATE
def casc (s : State) (c : Nat) : Bool := s.on (milR c) MIL_CFG_CASC
def parent (s : State) (c : Nat) : Nat := s.get (milR c) MIL_CFG_CSRC
def isTimeChan (s : State) (c : Nat) : Bool := s.timeChan = some c
def milForce (s : State) (c : Nat) : Nat := s.get (milR c) MIL_STATUS_FORCE
def pslope (s : State) (c : Nat) : Rat := ((s.chan c).lim.pslope : Rat) / 1000000000
def fmax (s : State) (c : Nat) : Rat := ((s.chan c).lim.fmax : Rat) / 100000000

/-- 2^−l per second, of a log interval. -/
def logRate (l : Int) : Rat := if l < 0 then ((2 ^ l.natAbs : Nat) : Rat) else 1 / ((2 ^ l.natAbs : Nat) : Rat)

/-- The sample rate of a source (R248). -/
def srcRate (s : State) (j : Nat) : Rat :=
  if j < 32 then
    if 2 ≤ s.refKind j then 1 else ratMin (ratMax (s.get (priR j) PRS_NOM_HZ) 1) 32000
  else if 36 ≤ j && j < 44 then
    logRate ((s.prism.piLog.getD (j - 36) none).getD (s.getI (piR (j - 36)) HRD_PI_IVL_LSYNC))
  else if j = 48 then 1
  else 32000

/-- The bandwidth setting in use: ABW in ACQUIRE where it is not zero, BW otherwise (R247). -/
def bwSetting (s : State) (c st : Nat) : Nat :=
  let l := (s.chan c).lim
  if st = 1 && l.abw != 0 then l.abw else l.bw

/-- Gains and limits of a channel in a state on a source (R247); none is the cascade. -/
def loopSet (s : State) (c st : Nat) (j : Option Nat) : LoopSet :=
  let fs := match j with | some j => s.srcRate j | none => 32000
  let b := ratMin ((s.bwSetting c st : Rat) / 1000000) (fs / 20)
  let z : Rat := ((s.chan c).lim.damp : Rat) / 8
  let w := piQ * b / (if z = 0 then 1 else z)
  { kp := 2 * piQ * b, ki := w * w, pslope := s.pslope c, fmax := s.fmax c, fs := fs }

/-- The cap of R247 acts. -/
def bwCapped (s : State) (c st : Nat) (j : Option Nat) : Bool :=
  let fs := match j with | some j => s.srcRate j | none => 32000
  fs / 20 < (s.bwSetting c st : Rat) / 1000000

/-- The free-run word as a fraction, clamped to ±FMAX (R246). -/
def freeRun (s : State) (c : Nat) : Rat := clampQ (-(s.fmax c)) (s.fmax c) (ofWord (s.chan c).frw)

/-- A channel has a source (R259): the selection, or the cascade parent while enabled. -/
def hasSource (s : State) (c : Nat) : Bool :=
  if s.casc c then s.on (milR (s.parent c)) MIL_CFG_EN else (s.selCur c).isSome

/-- The index a channel would run on. -/
def srcIdx (s : State) (c : Nat) : Option Nat := if s.casc c then none else s.selCur c

/-! ## Errors (R176, R266, R285) -/

/-- The error of an index against a phase and an offset, 2 ps units, reduced where R176 says. -/
def errAgainst (s : State) (j : Nat) (fbk off : Rat) : Option Rat :=
  (s.ref j).samp.map (fun v =>
    let e := v - fbk - off
    let p := s.refMod j
    if p = 0 then e else wrapNear p 0 e)

/-- Errors published at a boundary, after selection and with the committed phase of the boundary. -/
def publishErr (s : State) (c : Nat) : State :=
  let e := if s.casc c then some (s.fb (s.parent c) - s.fb c)
    else match s.selCur c with
      | some j => s.errAgainst j (s.fb c) (s.prism.oc.getD c 0)
      | none => none
  s.setChan c (fun x => { x with err := e })

/-! ## Deciding (R259, R279, R290) -/

/-- Entry to ACQUIRE: i from the word in effect and the tracked frequency Prism holds (R261); none is held, and the field is 0,
until a fit has had two samples (R680). -/
def presetAcquire (s : State) (c : Nat) : Bank → Bank := fun b =>
  let y := ofWord (s.chan c).fw
  let f : Rat := match s.srcIdx c with
    | some j => (s.preLock c j).freq
    | none => 0
  { b with i := q80 (y + f), pk := 0, lockN := 0, unlockN := 0, since := none }

def decide (s : State) (c st cause : Nat) (idx : Option Nat) : State :=
  s.setChan c (fun x => { x with changes := x.changes ++ [⟨st, cause, idx⟩] })

/-- The state that holds from the next boundary. -/
def nextState (s : State) (c : Nat) : Nat :=
  match (s.chan c).changes.getLast? with | some x => x.st | none => s.milState c

/-- The rows of R259 that follow a source, for a channel that is in `st` on `ref` (R265: cascade children included). -/
def sourceRows (s : State) (c st cause : Nat) : State :=
  let cur := s.srcIdx c
  let x := s.chan c
  if !s.hasSource c then
    if st = 1 || st = 2 then
      let s := s.setChan c (fun x => { x with ref := none })
      if s.on (milR c) MIL_STATUS_LSEEN || st = 2 then
        let anchor := match x.winN with | some n => n | none => s.tn + 1
        (s.decide c 5 cause none).setChan c (fun x => { x with hold := s.holdFrom c anchor, holdTn := s.prism.tick + 1, winN := none })
      else s.decide c 0 cause none
    else s
  else if st = 0 || st = 5 then
    let bank := s.presetAcquire c
    let s := if s.on (swoR c) GLB_SWO_CFG_HXREM && !s.casc c && s.prism.ocV.getD c false then
        s.setChan c (fun x => { x with rem := true }) else s
    (s.decide c 1 cause cur).setChan c (fun x => { x with c := bank x.c, ref := cur, winN := none, hold := none })
  else if st = 2 && !s.casc c && x.ref != cur && !s.prism.ocV.getD c false then
    let bank := s.presetAcquire c
    (s.decide c 1 cause cur).setChan c (fun x => { x with c := bank x.c, ref := cur, winN := none })
  else if x.ref != cur then s.setChan c (fun x => { x with ref := cur, winN := none })
  else s

/-- What a SUSPECT verdict opens (R279–R281); `true` when a bank S exists from now on. -/
def openSpec (s : State) (c : Nat) : State :=
  match (s.chan c).ref with
  | none => s
  | some j =>
    match (s.ref j).win with
    | none => s
    | some n =>
      if (s.chan c).specSeen.contains (j, n) then s else
      let s := s.setChan c (fun x => { x with specSeen := (j, n) :: x.specSeen.filter (fun e => e.1 != j) })
      let b := prcR c
      if s.on (milR c) MIL_SPEC_SW_EN && !s.on b PRS_SEL_CFG_FORCE_EN && s.on b PRS_SEL_STATUS_STBY_V then
        let i := s.get b PRS_SEL_STATUS_STBY
        (s.decide c 3 3 (some i)).setChan c (fun x => { x with
          specN := some n, sidx := some i, oS := ((s.preLock c i).off : Rat) / 65536, s := x.c, xs := x.x, xsErr := x.x })
      else if s.on (milR c) MIL_SPEC_HOLD_EN && s.chanModelValid c n then
        (s.decide c 4 3 (some j)).setChan c (fun x => { x with
          specN := some n, sidx := none, s := x.c, xs := x.x, xsErr := x.x, hold := s.holdFrom c n, holdTn := s.prism.tick + 1 })
      else s

/-- The end of a speculation, and the state it leads to (R290, R294). -/
def endSpec (s : State) (c : Nat) (commit : Bool) : State :=
  let x := s.chan c
  let n := x.specN.getD 0
  let s := s.setChan c (fun x => { x with ending := some commit })
  if commit then
    match x.sidx with
    | some j =>
      let s := (s.decide c 2 3 (some j)).setChan c (fun x => { x with ref := some j })
      -- the selection may stand elsewhere: its own rows follow at the same boundary
      if s.selCur c = some j then s else s.sourceRows c 2 0
    | none =>
      match s.selCur c with
      | some j =>
        if s.plValid c j then (s.decide c 2 3 (some j)).setChan c (fun x => { x with ref := some j })
        else
          let bank := s.presetAcquire c
          (s.decide c 1 3 (some j)).setChan c (fun x => { x with ref := some j, s := bank x.s })
      | none => (s.decide c 5 3 none).setChan c (fun x => { x with ref := none, hold := s.holdFrom c n, holdTn := s.prism.tick + 1 })
  else
    let s := s.decide c 2 3 x.ref
    if s.selCur c = x.ref then s else s.sourceRows c 2 0

/-- The table of R290 for the verdict of tick `m`, the row of the tick limit apart. -/
def specOutcome (s : State) (c : Nat) : State :=
  let x := s.chan c
  let v := match x.ref with | some j => s.verdictOf j | none => 2
  let cur := s.selCur c
  let sv := match x.sidx with | some j => s.verdictOf j | none => 0
  if x.sidx.isSome && cur = x.sidx then s.endSpec c true
  else if cur != x.ref && v != 2 then s.endSpec c false
  else if v = 2 then s.endSpec c true
  else if v = 0 then s.endSpec c false
  else if x.sidx.isSome && sv = 2 && !((x.specN.getD 0) + 8 ≤ s.tn - 1) then
    let n := x.specN.getD 0
    if s.on (milR c) MIL_SPEC_HOLD_EN && s.chanModelValid c n then
      (s.decide c 4 3 x.ref).setChan c (fun x => { x with sidx := none, hold := s.holdFrom c n, holdTn := s.prism.tick + 1 })
    else s.endSpec c false
  else s

/-! ## SPECULATION_LIMIT, CHANNEL_LOCK, CHANNEL_UNLOCK -/

/-- The last row but two of R290: tick m ≥ n + 8 was read and the verdict is not GOOD. -/
def limitDue (s : State) (c : Nat) : Bool :=
  let x := s.chan c
  s.millerRuns && x.on && x.frozen.isNone && x.ending.isNone &&
    (match x.specN with | some n => n + 8 ≤ s.tn - 1 | none => false) &&
    (match x.ref with | some j => s.verdictOf j != 0 | none => true)

/-- An ACQUIRE channel has CNT samples within THR in a row (R259). -/
def lockDue (s : State) (c : Nat) : Bool :=
  let x := s.chan c
  s.millerRuns && x.on && x.frozen.isNone && x.changes.isEmpty && s.milForce c = 0 && s.milState c = 1 && s.hasSource c &&
    s.get (milR c) MIL_LOCK_CNT ≤ x.c.lockN

def unlockDue (s : State) (c : Nat) : Bool :=
  let x := s.chan c
  s.millerRuns && x.on && x.frozen.isNone && x.changes.isEmpty && s.milForce c = 0 && s.milState c = 2 && s.hasSource c &&
    s.get (milR c) MIL_LOCK_ULCNT ≤ x.c.unlockN

/-! ## Words -/

/-- Lock counts after a sample with |ee| in a state (R259). -/
def countLock (s : State) (c st : Nat) (b : Bank) : Bank :=
  let thr : Rat := (s.get (milR c) MIL_LOCK_THR : Rat) / 1000000000
  let a := ratAbs b.ee
  if st = 1 then { b with lockN := if a ≤ thr then b.lockN + 1 else 0 }
  else if st = 2 || st = 3 || st = 4 then { b with unlockN := if 4 * thr < a then b.unlockN + 1 else 0 }
  else b

/-- The combined word of R287 from the banks' words: next excursion, S lead and words. The clamp of the combined word shows in
FCLAMP as those of R255 do. -/
def specWord (s : State) (c : Nat) (specOpen : Bool) : State :=
  s.setChan c (fun x =>
    let b := if s.isTimeChan c then 0 else x.bud
    let (xn, xs) :=
      if specOpen then
        let g := qX (x.xs + (x.s.y - x.c.y) * tickS)
        (clampQ (-b) b g, g)
      else if x.x = 0 then (0, 0)
      else if 0 < x.x then (x.x - ratMin x.x x.unw, 0) else (x.x + ratMin (-x.x) x.unw, 0)
    let y0 := x.c.y + (xn - x.x) / tickS
    let y := clampQ (-(s.fmax c)) (s.fmax c) y0
    { x with c := { x.c with fcl := x.c.fcl || y != y0 }, xsNext := xs, xNext := qX (x.x + (y - x.c.y) * tickS), fwNext := toWord x.c.y, outNext := toWord y })

/-- The bank C for the state of the next tick. -/
def bankC (s : State) (c st nst : Nat) (smp : Option Rat) : State :=
  let x := s.chan c
  if st != 0 && st != 5 && nst != 0 && nst != 5 then
    let g := s.loopSet c st x.ref
    -- entry to ACQUIRE in this tick: the sample belongs to the state before
    let smp := if nst = 1 && st != 1 then none else smp
    let b := x.c.step g smp
    s.setChan c (fun x => if smp.isSome then { x with c := s.countLock c st b, clamped := b.pcl } else { x with c := b })
  else if nst = 0 then s.setChan c (fun x => { x with c := x.c.free (s.freeRun c) })
  else if nst = 5 then
    s.setChan c (fun x => { x with c := x.c.hold (s.loopSet c 2 none) (s.holdWord x.hold x.c.i) })
  else s.setChan c (fun x => { x with c := x.c.step (s.loopSet c 1 x.ref) none })

/-- The bank S while a speculation is open (R283, R284). -/
def bankS (s : State) (c : Nat) : State :=
  let x := s.chan c
  match x.sidx with
  | some j =>
    let e := if s.verdictOf j = 0 then s.errAgainst j (s.fb c + x.xsErr * 500000000000) x.oS else none
    let b := x.s.step (s.loopSet c 2 (some j)) (e.map (· * unit2ps))
    s.setChan c (fun x => { x with
      s := if e.isSome then s.countLock c 2 b else b
      clamped := x.clamped || (e.isSome && b.pcl && x.ending = some true) })
  | none =>
    let b := if s.nextState c = 1 then x.s.step (s.loopSet c 1 x.ref) none
      else x.s.hold (s.loopSet c 2 none) (s.holdWord x.hold x.s.i)
    s.setChan c (fun x => { x with s := b })

/-- A committed SPEC_SWITCH whose selection has moved on: the S state, which C takes, enters the state decided (R261,
R294). -/
def settle (s : State) (c : Nat) : State :=
  let x := s.chan c
  if x.ending != some true || x.sidx.isNone then s else
  match s.nextState c with
  | 1 =>
    let bank := s.presetAcquire c
    s.setChan c (fun x => { x with s := (bank x.s).reword (s.loopSet c 1 x.ref) })
  | 5 => s.setChan c (fun x => { x with s := { x.s with pk := 0 }.rebase (s.loopSet c 2 none) (s.holdWord x.hold x.s.i) 0 })
  | 0 => s.setChan c (fun x => { x with s := x.s.free (s.freeRun c) })
  | _ => s

/-- One channel's slice in a tick (R250–R296). -/
def millerTick (s : State) (c : Nat) : State :=
  let x := s.chan c
  if x.frozen.isSome then
    s.setChan c (fun x => { x with
      fwNext := x.fw, outNext := x.fw, xNext := x.x, xsNext := x.xs, changes := [], ending := none
      c := { x.c with since := x.c.since.map (· + 1), dp := x.c.d }
      s := { x.s with since := x.s.since.map (· + 1), dp := x.s.d } })
  else
  let s := s.setChan c (fun x => { x with changes := [], ending := none, clamped := false })
  if !x.on then
    let s := s.setChan c (fun x => { x with c := x.c.free (s.freeRun c) })
    s.specWord c false
  else
  let st := s.milState c
  let forced := s.milForce c != 0
  let v := if s.casc c then 0 else match x.ref with | some j => s.verdictOf j | none => 2
  -- decisions
  let s :=
    if forced then s
    else if x.specN.isSome then s.specOutcome c
    else if st = 2 && !s.casc c && v = 1 && s.selCur c = x.ref then s.openSpec c
    else s.sourceRows c st 0
  let wn := match (s.chan c).ref with | some j => (s.ref j).win | none => none
  let s := if v = 1 then s.setChan c (fun x => { x with winN := wn }) else if v = 0 then s.setChan c (fun x => { x with winN := none }) else s
  -- samples: the verdict is that of the index now in use
  let nst := s.nextState c
  let v' := if s.casc c then 0 else match (s.chan c).ref with | some j => s.verdictOf j | none => 2
  let open_ := (s.chan c).specN.isSome
  let onRef := s.casc c || s.selCur c = (s.chan c).ref
  let smp : Option Rat :=
    if v' != 0 || !onRef then none
    else if open_ && (s.chan c).ending != some false then none
    else (s.chan c).err.map (· * unit2ps)
  let s := s.bankC c st nst smp
  let s := if open_ then (s.bankS c).settle c else s
  s.specWord c (open_ && (s.chan c).ending != some false)

/-- The decisions that are steps of their own, where due (R259, R290). -/
def specLimit (s : State) (c : Nat) : State :=
  if !s.limitDue c then s else
  let s := (s.setChan c (fun x => { x with changes := [] })).endSpec c true
  if (s.chan c).sidx.isSome then s.settle c
  else if s.nextState c = 1 then s.setChan c (fun x => { x with s := x.s.reword (s.loopSet c 1 x.ref) })
  else s

def channelLock (s : State) (c : Nat) : State :=
  if s.lockDue c then s.decide c 2 1 (s.chan c).ref else s

def channelUnlock (s : State) (c : Nat) : State :=
  if !s.unlockDue c then s else
  let s := s.decide c 1 1 (s.chan c).ref
  let bank := s.presetAcquire c
  let s := s.setChan c (fun x =>
    { x with c := (bank x.c).reword (s.loopSet c 1 x.ref) })
  s.specWord c false

def millerDue (s : State) : State :=
  (List.range s.nMil).foldl (fun s c => ((s.specLimit c).channelLock c).channelUnlock c) s

/-! ## What a boundary applies (R44, R260, R292) -/

/-- What the LTC and the Hearth take from a change of the time channel's state (R92, R319, R679). -/
def timeChange (s : State) (c old st : Nat) : State :=
  if !s.isTimeChan c then s else
  let s := if st = 5 then s.setHearth (fun h => { h with estNew := true }) else s
  let s := if st = 1 && old != 1 then { s with ltc := { s.ltc with acqHold := old != 0 } } else s
  if st = 2 && (match (s.chan c).ref with | some j => s.timeBearing j | none => false) then s.putB ltcR LTC_STATUS_SET true else s

/-- A change of state takes effect, with its event (R258, R260, R274). -/
def applyChange (s : State) (c : Nat) (x : Change) (silent : Bool := false) : State :=
  let b := milR c
  let old := s.milState c
  let s := s.put b MIL_STATUS_STATE x.st
  let s := if x.st = 2 then s.putB b MIL_STATUS_LSEEN true else if old = 0 && x.st != 0 then s.putB b MIL_STATUS_LSEEN false else s
  let s := if x.st = 0 && old != 0 then s.setChan c (fun y => { y with means := [] }) else s
  let s := if 2 ≤ old && old ≤ 4 && !(2 ≤ x.st && x.st ≤ 4) then s.setChan c (fun y => { y with lastLock := s.prism.tick }) else s
  let s := if old = 2 && x.st = 1 && x.cause = 1 then s.bump b MIL_CNT_UNLOCKS else s
  -- pk is 0 on entry to ACQUIRE, whatever the bandwidth was (R261)
  let bw := s.bwSetting c 1
  let s := if x.st = 1 then s.setChan c (fun y => { y with bw := bw }) else s
  let s := (s.timeChange c old x.st).putB b MIL_STATUS_SPEC (x.st = 3 || x.st = 4)
  if silent || old = x.st then s
  else s.raise c 0 (x.st + old * 8 + (x.idx.getD 0) * 64 + x.idx.isSome.toNat * 4096 + x.cause * 8192)

/-- The removal of O_c into d (R304–R306): the error rises by O_c and so does the offset it is measured against. |d| stays
within 1,000 s (R256). -/
def removeOc (s : State) (c : Nat) : State :=
  let o := s.prism.oc.getD c 0 * unit2ps
  let s := s.setPrism (fun p => { p with oc := p.oc.set c 0 })
  s.setChan c (fun x =>
    let d := clampQ (-1000) 1000 (q80 (x.c.d + o))
    let dp := clampQ (-1000) 1000 (q80 (x.c.dp + o))
    { x with rem := false, took := d - x.c.d, tookP := dp - x.c.dp, c := { x.c with d := d, dp := dp } })

/-- The end of a speculation takes effect (R292, R293). -/
def applyEnding (s : State) (c : Nat) : State :=
  let x := s.chan c
  match x.ending with
  | none => s
  | some commit =>
    let s := s.setChan c (fun x =>
      if commit then { x with c := x.s, ph := x.ph + x.x, x := 0, xs := 0, specN := none, sidx := none, ending := none, s := {}, fw := toWord x.s.y, out := toWord x.s.y }
      else { x with xs := 0, specN := none, sidx := none, ending := none, s := {} })
    if commit && s.isTimeChan c then { s with ltc := { s.ltc with ph := (s.chan c).ph } } else s

/-- A recomputed proportional term, where the bandwidth in use changed (R257). -/
def regain (s : State) (c : Nat) : State :=
  let st := s.milState c
  let x := s.chan c
  if st < 1 || 4 < st || !s.millerRuns then s else
  let bw := s.bwSetting c st
  if bw = x.bw then s else
  let fix := fun (b : Bank) (j : Option Nat) =>
    let g := s.loopSet c st j
    { b with pk := q80 (g.kp * b.ee) }.reword g
  let first := x.bw = 0
  s.setChan c (fun x =>
    if first then { x with bw := bw } else
    let cb := fix x.c x.ref
    let sb := if x.specN.isSome && x.sidx.isSome then fix x.s x.sidx else x.s
    { x with bw := bw, c := cb, s := sb, fw := toWord cb.y, out := x.out + (toWord cb.y - x.fw) })

/-- The free-run pair takes effect: as the word itself while the channel is disabled, and where it stands in FREERUN
(R246, R263). -/
def freeRunPair (s : State) (c : Nat) : State :=
  let new := (s.chan c).frwNext.isSome
  let s := s.setChan c (fun x => match x.frwNext with | some w => { x with frw := w, frwNext := none } | none => x)
  let w := toWord (s.freeRun c)
  if !(s.chan c).on then s.setChan c (fun x => x.setWord w)
  else if new && s.millerRuns && s.milState c = 0 then s.setChan c (fun x => { x with fw := w, out := x.out + (w - x.fw) })
  else s

/-- The loop settings take effect (R257). -/
def latchLim (s : State) (c : Nat) : State :=
  let b := milR c
  s.setChan c (fun x => { x with lim := {
    bw := s.get b MIL_BW_BW, abw := s.get b MIL_ABW_ABW, damp := s.get b MIL_DAMP_DAMP
    pslope := s.get b MIL_LIM0_PSLOPE, fmax := s.get b MIL_LIM1_FMAX } })

/-- The loop settings (R257), the free-run pair (R246), and settings held back while an excursion stands (R297). -/
def latchChan (s : State) (c : Nat) : State :=
  let b := milR c
  ((s.latchLim c).freeRunPair c).setChan c (fun x =>
    if x.specN.isNone && x.x = 0 then
      { x with bud := (s.get b MIL_SPEC_SPEC_BUDGET : Rat) / 1000000000000, unw := (s.get b MIL_SPEC_UNWIND_RATE : Rat) / 2000000000000 }
    else x)

/-- Status fields that follow the channel (R278). -/
def milStatus (s : State) (c : Nat) : State :=
  let b := milR c
  let x := s.chan c
  let st := s.milState c
  let run := x.on && s.millerRuns
  if x.on && !s.millerRuns then (s.putB b MIL_STATUS_HALT true).putB b MIL_STATUS_SLEW (x.c.d != x.c.dt) else
  let j := if s.casc c then none else x.ref
  let s := (s.put b MIL_STATUS_REF (j.getD 0)).putB b MIL_STATUS_REF_V (run && j.isSome)
  let s := (s.putB b MIL_STATUS_CASC_ACT (run && s.casc c)).putB b MIL_STATUS_BWCAP (run && 1 ≤ st && st ≤ 4 && (s.casc c || j.isSome) && s.bwCapped c st j)
  let s := (s.putB b MIL_STATUS_FCLAMP (run && x.c.fcl)).putB b MIL_STATUS_PCLAMP (run && x.c.pcl)
  (s.putB b MIL_STATUS_SLEW (x.c.d != x.c.dt)).putB b MIL_STATUS_HALT (!s.millerRuns)

/-- The results of the tick that ended take effect in one channel. -/
def millerApply (s : State) (c : Nat) : State :=
  let x := s.chan c
  if x.ovr then
    -- the tick was lost: what stood before it stands again, FROZEN for one tick (R59, R60)
    let old := s.milBak.getD c {}
    let prev := match x.frozen with | some p => p | none => s.milState c
    let dx := if old.specN.isSome then qX ((old.s.y - old.c.y) * tickS) else 0
    let s := s.setChan c (fun x => { old with
      xsErr := old.xs, xs := old.xs + dx
      frozen := some prev, ovr := false, latch := x.latch, frwNext := x.frwNext, ph := x.ph, out := old.fw
      changes := [], ending := none, ivOk := x.ivOk, means := x.means, ivSum := x.ivSum, on := x.on
      c := { old.c with since := old.c.since.map (· + 1) }, s := { old.s with since := old.s.since.map (· + 1) } })
    let s := (s.bump glbR GLB_OVR_MIL_COUNT).put glbR GLB_OVR_MIL_CHAN (s.get glbR GLB_OVR_MIL_CHAN ||| 2 ^ c)
    s.put (milR c) MIL_STATUS_STATE 6
  else
  let s := match x.frozen with
    | some p => (s.put (milR c) MIL_STATUS_STATE p).setChan c (fun x => { x with frozen := none })
    | none => s
  -- a commit takes the excursion as it stands (R292)
  let s := s.setChan c (fun x => { x with
    fw := x.fwNext, out := x.outNext, x := if x.ending = some true then x.x else x.xNext, xsErr := x.xs, xs := x.xsNext })
  let s := s.applyEnding c
  let s := if (s.chan c).rem && (s.chan c).specN.isNone then s.removeOc c else s
  let s := (s.chan c).changes.foldl (fun s ch => s.applyChange c ch) s
  let clamped := (s.chan c).clamped
  let s := s.setChan c (fun x => { x with changes := [], clamped := false })
  if clamped then s.bump (milR c) MIL_CNT_CLAMPS else s

def millerApplyAll (s : State) : State := (List.range s.nMil).foldl (fun s c => s.millerApply c) s

/-- Phases move on over `dt` seconds of nominal time at the committed words (R243), excursion included in none. -/
def advancePhases (s : State) (dt : Rat) : State :=
  let inc := s.ltc.inc
  let s := { s with
    ltc := { s.ltc with ph := qPh (s.ltc.ph + dt * inc) }
    mil := s.mil.map (fun (x : Chan) => { x with ph := qPh (x.ph + dt * ofWord x.fw) }) }
  match s.timeChan with
  | some t => s.setChan t (fun x => { x with ph := s.ltc.ph })
  | none => s

/-! ## Removals at a selection move (R304, R305) -/

/-- A valid O_c latched at a move goes into d where SWREM or HXREM says so: at the boundary of the move, or, where an open
speculation is going to commit, with the commit (R306). While Miller is halted d does not move (R262). -/
def removal (s : State) (c : Nat) : State :=
  let x := s.chan c
  let st := x.frozen.getD (s.milState c)
  let commits := s.selCur c = x.sidx || (match x.ref with | some j => s.verdictOf j = 2 | none => true)
  if !s.millerRuns || !x.on || s.casc c || s.milForce c != 0 || !s.prism.ocV.getD c false || (s.selCur c).isNone then s
  else if x.specN.isSome then
    if !s.on (swoR c) GLB_SWO_CFG_SWREM then s
    else if commits then s.setChan c (fun x => { x with rem := true }) else s.removeOc c
  else if st = 2 && s.on (swoR c) GLB_SWO_CFG_SWREM && x.ref.isSome then s.removeOc c
  else if (st = 0 || st = 5) && s.on (swoR c) GLB_SWO_CFG_HXREM then s.removeOc c
  else s

/-- The removals of a boundary: of the channels whose selection moved. -/
def removals (s : State) : State := s.prism.moved.foldl removal s

/-- What the selection of a boundary starts from, should a command make it again. -/
def selSave (s : State) : State :=
  let s := s.setPrism (fun p => { p with
    was := (List.range s.nMil).map (fun c => (s.selCur c, p.oc.getD c 0, p.ocV.getD c false)) })
  (List.range s.nMil).foldl (fun s c => s.setChan c (fun x => { x with took := 0, tookP := 0 })) s

/-- A command makes the selection of its own boundary again, from what that boundary started from (R45): what the first one
latched and removed is undone. -/
def reselect (s : State) (c : Nat) : State :=
  let s := match s.prism.was[c]? with
    | none => s
    | some (cur, oc, ocV) =>
      let s := (s.showSel c cur).setPrism (fun p => { p with
        oc := p.oc.set c oc, ocV := p.ocV.set c ocV, moved := p.moved.filter (· != c) })
      s.setChan c (fun x => { x with rem := false, took := 0, tookP := 0, c := { x.c with d := x.c.d - x.took, dp := x.c.dp - x.tookP } })
  let s := s.select c
  let s := if s.mode = 11 || !s.prism.moved.contains c then s else s.removal c
  s.publishErr c

/-! ## Enabling, disabling, run modes, forces (R262–R264, R271) -/

/-- An open speculation is thrown away; `keepX` says whether the excursion, as far as the outputs have gone, unwinds (R295,
R296). -/
def dropSpec (s : State) (c : Nat) (keepX : Bool) : State :=
  s.setChan c (fun x => { x with
    specN := none, sidx := none, xs := 0, s := {}, ending := none, changes := [], rem := false
    x := if keepX then x.exc else 0, xNext := if keepX then x.exc else 0 })

/-- The enable bit takes effect at a boundary (R245, R263), without an event while Miller is halted (R262). -/
def milEnable (s : State) (c : Nat) : State :=
  let want := s.on (milR c) MIL_CFG_EN
  let x := s.chan c
  if want = x.on then s
  else if want then
    let s := s.applyChange c ⟨0, 2, none⟩ true
    let s := (s.putB (milR c) MIL_STATUS_LSEEN false).put (milR c) MIL_STATUS_FORCE 0
    s.setChan c (fun x => { x with on := true, jump := x.jump + (s.ltc.ph - x.ph), ph := s.ltc.ph, ref := none, c := { d := x.c.d, dt := x.c.dt, dp := x.c.d }, frozen := none, winN := none, specSeen := [], bw := 0 })
  else
    let s := (s.dropSpec c false).setChan c (fun y => { y with jump := y.jump - x.exc })
    let s := s.applyChange c ⟨0, 2, x.ref⟩ (!s.millerRuns)
    let s := (s.putB (milR c) MIL_STATUS_LSEEN false).put (milR c) MIL_STATUS_FORCE 0
    let w := toWord (s.freeRun c)
    s.setChan c (fun x => { x.setWord w with
      on := false, ref := none, frozen := none, means := [], hold := none, bw := 0
      c := { x.c with d := 0, dt := 0, dp := 0, lockN := 0, unlockN := 0, pk := 0 } })

/-- What register writes and commands set comes into force in Miller, in every mode in which its registers are written (R246,
R263, R297). -/
def milFollows (s : State) : State := (List.range s.nMil).foldl (fun s c => ((s.milEnable c).latchChan c).regain c) s

/-- Entry to a mode in which Miller runs (R262): i is the word in effect, which of a channel forced to HOLDOVER without a model
is its last i (R264). After M1 or a reset the anchor is the boundary that entered it (R324). -/
def millerStart (s : State) : State :=
  (List.range s.nMil).foldl (fun s c =>
    let s := s.putB (milR c) MIL_STATUS_HALT false
    if !(s.chan c).on then s else
    let f := s.milForce c
    let i0 := (s.chan c).c.i
    let y := ofWord (s.chan c).fw
    let s := s.setChan c (fun x => { x with c := { x.c with i := if f = 2 then i0 else y, pk := 0, lockN := 0, unlockN := 0, since := none }, ref := none, frozen := none })
    let anchor := if s.hearth.emberOn then s.hearth.emberTn else s.tn
    let hold := f = 2 || (f = 0 && s.chanModelValid c anchor)
    let s := s.setChan c (fun x => { x with hold := if hold then s.holdFrom c anchor else none, holdTn := s.prism.tick })
    let s := s.applyChange c ⟨if hold then 5 else 0, 4, none⟩
    let s := s.putB (milR c) MIL_STATUS_LSEEN false
    let w := if hold then s.holdWord (s.chan c).hold (s.chan c).c.i else s.freeRun c
    let w := clampQ (-(s.fmax c)) (s.fmax c) w
    s.setChan c (fun x => { x.setWord (toWord w) with c := { x.c with y := w } })) s

/-- Miller stops: words stay, an open speculation goes without unwinding (R262, R296). -/
def millerStop (s : State) : State :=
  (List.range s.nMil).foldl (fun s c =>
    let s := (s.putB (milR c) MIL_STATUS_HALT true).putB (milR c) MIL_STATUS_SPEC false
    let s := match (s.chan c).frozen with
      | some p => (s.put (milR c) MIL_STATUS_STATE p).setChan c (fun x => { x with frozen := none })
      | none => s
    let s := s.dropSpec c true
    s.setChan c (fun x => { x with fwNext := x.fw, outNext := x.fw, out := x.fw })) s

/-- CHAN_STATE (R264, R271); false when the channel is disabled. While Miller is halted only the force and what a reset
zeroes change (R262). A forced HOLDOVER steers from the eligible mean where there is one (R316). -/
def chanState (s : State) (c act : Nat) : State × Bool :=
  if !(s.chan c).on then (s, false) else
  let b := milR c
  let thaw := fun (s : State) => match (s.chan c).frozen with
    | some p => (s.put b MIL_STATUS_STATE p).setChan c (fun x => { x with frozen := none })
    | none => s
  let zero := fun (x : Bank) => { x with pk := 0, d := 0, dt := 0, dp := 0, lockN := 0, unlockN := 0, since := none }
  if !s.millerRuns then
    let s := s.put b MIL_STATUS_FORCE (if act = 1 || act = 2 then act else 0)
    if act < 3 then (s, true)
    else ((s.putB b MIL_STATUS_LSEEN false).setChan c (fun x => { x with c := { zero x.c with i := q80 (s.freeRun c) } }), true)
  else
  let s := if act = 0 then s else thaw s
  let setWord := fun (s : State) (w : Rat) =>
    let w := clampQ (-(s.fmax c)) (s.fmax c) w
    s.setChan c (fun x => { x with fw := toWord w, out := toWord w, c := { x.c with y := w, ff := 0, pc := 0 } })
  match act with
  | 0 =>
    let f := s.milForce c
    if f = 0 then (s, true) else
    let s := s.put b MIL_STATUS_FORCE 0
    if s.hasSource c then (s, true)
    else
      let st := if s.on b MIL_STATUS_LSEEN then 5 else 0
      if st = (s.chan c).frozen.getD (s.milState c) then (s, true) else
      let s := (thaw s).setChan c (fun x => { x with hold := if st = 5 then s.holdFrom c s.tn else none, holdTn := s.prism.tick })
      let s := s.applyChange c ⟨st, 2, none⟩
      (setWord s (if st = 5 then s.holdWord (s.chan c).hold (s.chan c).c.i else s.freeRun c), true)
  | 1 =>
    let idx := (s.chan c).ref
    let s := (s.dropSpec c true).put b MIL_STATUS_FORCE 1
    let s := s.applyChange c ⟨0, 2, idx⟩
    (setWord (s.setChan c (fun x => { x with ref := none, hold := none })) (s.freeRun c), true)
  | 2 =>
    -- a holdover that runs goes on as it was entered (R315, R316)
    if s.milState c = 5 then (s.put b MIL_STATUS_FORCE 2, true) else
    let idx := (s.chan c).ref
    let s := (s.dropSpec c true).put b MIL_STATUS_FORCE 2
    let anchor := (s.chan c).winN.getD s.tn
    let h := s.holdFrom c anchor
    let s := s.setChan c (fun x => { x with ref := none, hold := h, holdTn := s.prism.tick })
    let s := s.applyChange c ⟨5, 2, idx⟩
    (setWord s (s.holdWord h (s.chan c).c.i), true)
  | _ =>
    let x0 := (s.chan c).exc
    let s := (s.dropSpec c false).put b MIL_STATUS_FORCE 0
    let s := s.setChan c (fun x => { x with jump := x.jump - x0 })
    let w := s.freeRun c
    let s := s.setChan c (fun x => { x with
      c := { zero x.c with i := q80 w }
      ref := if s.hasSource c then s.srcIdx c else none, hold := none, winN := none })
    let idx := (s.chan c).ref
    let s := s.applyChange c ⟨if s.hasSource c then 1 else 0, 2, idx⟩
    let s := s.putB b MIL_STATUS_LSEEN false
    (setWord s w, true)

/-- CHAN_PHASE (R272, R297): both banks alike; false when an offset would pass 1,000 s. -/
def chanPhase (s : State) (c op : Nat) (amount : Int) : State × Bool :=
  let a : Rat := (amount : Rat) / 65536 / 1000000000
  let f := fun (b : Bank) => match op with
    | 0 => { b with dt := q80 (b.dt + a) }
    | 1 => { b with d := q80 (b.d + a), dp := q80 (b.dp + a) }
    | _ => { b with dt := b.d }
  let bad := fun (b : Bank) => 1000 < ratAbs b.d || 1000 < ratAbs b.dt
  let x := s.chan c
  if bad (f x.c) || (x.specN.isSome && bad (f x.s)) then (s, false)
  else (s.setChan c (fun x => { x with c := f x.c, s := if x.specN.isSome then f x.s else x.s }), true)

/-- CHAN_LOOP (R273). -/
def chanLoop (s : State) (c : Nat) (pl : List Byte) : State :=
  let mask := leAt pl 15 1
  let b := milR c
  let sel := fun k => mask / 2 ^ k % 2 = 1
  let s := if sel 0 then s.put b MIL_BW_BW (leAt pl 0 4) else s
  let s := if sel 1 then s.put b MIL_ABW_ABW (leAt pl 4 4) else s
  let s := if sel 2 then s.put b MIL_LIM0_PSLOPE (leAt pl 8 3) else s
  let s := if sel 3 then s.put b MIL_DAMP_DAMP (leAt pl 11 1) else s
  if sel 4 then s.put b MIL_LIM1_FMAX (leAt pl 12 3) else s

/-- The set a `MIL_LATCH.GO` asks for (R278, R301). -/
def latchMil (s : State) : State :=
  (List.range s.nMil).foldl (fun s c =>
    let x := s.chan c
    if !x.latch then s else
    let b := milR c
    let u := fun (r : Rat) => roundAway (r * 1000000000 * 65536)
    let s := s.put64 b MIL_L_FW_LO_FW MIL_L_FW_HI_FW x.fw
    let s := s.putSatI b MIL_L_ERR_EE (roundAway (x.c.ee / unit2ps))
    let s := (s.put64 b MIL_L_D_LO_D MIL_L_D_HI_D (u x.c.d)).put64 b MIL_L_DT_LO_DT MIL_L_DT_HI_DT (u x.c.dt)
    let s := s.put64 b MIL_L_TN_LO_TN_LO MIL_L_TN_HI_TN_HI s.tn
    let s := (s.putSatI b MIL_L_SPEC_EXC (roundAway (x.x * 1000000000000))).putB b MIL_L_SPEC_SPEC (x.specN.isSome || x.x != 0)
    s.setChan c (fun x => { x with latch := false })) s

/-- Miller's work of the new tick, every channel in its slice (R40, R42). -/
def millerTickAll (s : State) : State :=
  let s := { s with milBak := s.mil }
  (List.range s.nMil).foldl (fun s c => s.millerTick c) s

end State

end Sys2Proof.Machine
end

