-- ==== Sys2Proof/Machine/Hearth.lean ====
section
/-! DEFINITION. The Hearth: history, means, fit, the holdover estimate, its Granary pages and ember mode (R309–R327). -/

namespace Sys2Proof.Machine

/-! ## Least squares with several terms -/

/-- One elimination step on the rows after the pivot row. -/
def elimRow (piv row : List Rat) : List Rat :=
  match piv, row with
  | p :: ps, r :: rs => if p = 0 then rs else List.zipWith (fun a b => b - a * (r / p)) ps rs
  | _, _ => []

/-- Solution of a square system given as rows with the right side last; none where it is singular. -/
def solveRows : Nat → List (List Rat) → Option (List Rat)
  | 0, _ => some []
  | n + 1, rows =>
    match rows.find? (fun r => r.headD 0 != 0) with
    | none => none
    | some piv =>
      let rest := (rows.erase piv).map (elimRow piv)
      match solveRows n rest with
      | none => none
      | some xs =>
        let tail := piv.drop 1
        let dot := (List.zipWith (· * ·) tail xs).foldl (· + ·) 0
        some (((tail.getLastD 0) - dot) / piv.headD 1 :: xs)

/-- Normal equations of design rows and values. -/
def normalRows (k : Nat) (pts : List (List Rat × Rat)) : List (List Rat) :=
  (List.range k).map (fun a => (List.range k).map (fun b =>
      (pts.map (fun p => p.1.getD a 0 * p.1.getD b 0)).foldl (· + ·) 0) ++
    [(pts.map (fun p => p.1.getD a 0 * p.2)).foldl (· + ·) 0])

/-- The fit of R313 with the terms asked for; none where the entries cannot determine them. -/
def fitWith (ents : List HistEnt) (useA useT : Bool) : Option Model :=
  let n := ents.length
  let tf := (ents.getLast?.map (·.sec)).getD 0
  let tref := (ents.map (·.t)).foldl (· + ·) 0 / (n : Rat)
  let k := 1 + useA.toNat + 2 * useT.toNat
  if n < k + 8 && (useA || useT) then none else
  let row := fun (e : HistEnt) => [1] ++ (if useA then [((e.sec : Rat) - tf)] else []) ++
    (if useT then [e.t - tref, (e.t - tref) * (e.t - tref)] else [])
  let pts := ents.map (fun e => (row e, e.y))
  let rows := normalRows k pts
  match solveRows k rows with
  | none => none
  | some c =>
    let ss := (pts.map (fun p => let r := p.2 - (List.zipWith (· * ·) p.1 c).foldl (· + ·) 0; r * r)).foldl (· + ·) 0
    -- variance of c1: residual variance times the diagonal element of the inverse
    let unit := (List.range k).map (fun a => (rows.getD a []).take k ++ [if a = 1 then 1 else 0])
    let inv11 := match solveRows k unit with | some v => v.getD 1 0 | none => 0
    let t := c.drop (1 + useA.toNat)
    some { c0 := c.getD 0 0, c1 := if useA then c.getD 1 0 else 0
           k1 := if useT then t.getD 0 0 else 0, k2 := if useT then t.getD 1 0 else 0
           tf := tf, tref := tref
           tmin := (ents.map (·.t)).foldl ratMin tref, tmax := (ents.map (·.t)).foldl ratMax tref
           sy2 := ss / (n : Rat), sa2 := if useA && k < n then ss / ((n - k : Nat) : Rat) * inv11 else 0
           n := n, afit := useA, tfit := useT }

/-- The refit: the span conditions select the terms, and terms are dropped until the entries determine them (R313). -/
def fitHistory (hist : List HistEnt) (intv tspan : Nat) : Option Model :=
  let ents := hist.filter (·.flags = 0)
  match ents.head?, ents.getLast? with
  | some a, some b =>
    let useA := 256 * intv ≤ b.sec - a.sec
    let lo := (ents.map (·.t)).foldl ratMin a.t
    let hi := (ents.map (·.t)).foldl ratMax a.t
    let useT := (tspan : Rat) / 4 ≤ hi - lo
    match fitWith ents useA useT with
    | some m => some m
    | none => match fitWith ents useA false with
      | some m => some m
      | none => fitWith ents false false
  | _, _ => none

namespace State

/-- The learning channel (R309). -/
def learnChan (s : State) : Nat :=
  if s.on glb1R GLB_HRT_CFG_LFOL then s.get glbR GLB_TIMECHAN_CHAN else s.get glb1R GLB_HRT_CFG_LCHAN

def intv (s : State) : Nat := s.get glb1R GLB_HRT_CFG_INTV

def putCount (s : State) : State := s.put glb1R GLB_HRT_STATUS_COUNT (s.hearth.hist.filter (·.flags = 0)).length

/-- A refit is computed; its result takes effect at the next boundary (R313). -/
def refit (s : State) : State :=
  s.setHearth (fun h => { h with
    modelNext := some (fitHistory (h.hist.take h.hist.length) s.intv (s.get glb1R GLB_HRT_CFG1_TSPAN)) })

/-- A model is valid (R314, R321): its fit used MINN entries, and after a cold start an interval has been appended. -/
def modelOk (s : State) (m : Option Model) : Bool :=
  match m with | some m => s.get glb1R GLB_HRT_CFG1_MINN ≤ m.n && !s.hearth.loaded | none => false

/-- The model in effect, with its status (R313, R314, R321). -/
def applyModel (s : State) (m : Option Model) : State :=
  let s := (s.setHearth (fun h => { h with model := m })).putB glb1R GLB_HRT_STATUS_VALID (s.modelOk m)
  (s.putB glb1R GLB_HRT_STATUS_AFIT (match m with | some m => m.afit | none => false)).putB glb1R GLB_HRT_STATUS_TFIT
    (match m with | some m => m.tfit | none => false)

/-- A refit that waits takes effect; without one VALID follows MINN. -/
def refitTakes (s : State) : State :=
  match s.hearth.modelNext with
  | none => s.putB glb1R GLB_HRT_STATUS_VALID (s.modelOk s.hearth.model)
  | some m => (s.setHearth (fun h => { h with modelNext := none })).applyModel m

/-! ## Granary pages (R321) -/

/-- A location is set and lies in LOG. -/
def hrtLoc (s : State) : Option Nat :=
  let f := s.get glb1R GLB_HRT_LOC_FIRST
  if 320 ≤ f && f + 129 ≤ 768 then some f else none

/-- `n` bytes whose contents the spec does not lay out. -/
def freshBytes (s : State) : Nat → List Byte × State
  | 0 => ([], s)
  | n + 1 =>
    let (v, s) := s.fresh 8
    let (r, s) := freshBytes s n
    (BitVec.ofNat 8 v :: r, s)

/-- Bytes of a Hearth page written into the working SRAM (log entry 17). -/
def hrtWrite (s : State) (page off n : Nat) : State :=
  let (bs, s) := s.freshBytes n
  (s.sramWrite (page * 512 + off) bs).setDirty page

/-- The entry of a history slot. -/
def histSlot (s : State) (slot : Nat) : Option HistEnt :=
  let h := s.hearth
  -- the newest entry has slot (count − 1) mod 4,096
  let back := (h.count + 4095 - slot) % 4096
  if back < h.hist.length && 0 < h.count then h.hist[h.hist.length - 1 - back]? else none

/-- A Hearth page of the shadow committed: what it holds is what a cold start loads. -/
def hrtStored (s : State) (p : Nat) : State :=
  let put := fun (s : State) (v : Saved) => s.setHearth (fun h => { h with saved := (p, v) :: h.saved.filter (fun e => e.1 != p) })
  let gone := fun (s : State) => s.setHearth (fun h => { h with saved := h.saved.filter (fun e => e.1 != p) })
  match s.hrtLoc with
  | none => gone s
  | some f =>
    if p < f || f + 128 < p then gone s
    else if p = f + 128 then
      let td := match s.timeChan with | some t => ((s.chan t).c.d, (s.chan t).c.dt) | none => (s.hearth.kD, s.hearth.kDt)
      put s { model := s.hearth.model, means := s.mil.map (·.means), d := td.1, dt := td.2 }
    else
      put s { hist := (List.range 32).filterMap (fun k => (s.histSlot ((p - f) * 32 + k)).map (fun e => (k, e))) }

/-- What the stored pages of a location hold: none of pages that recovery has lost, or that were stored as something else
(R321, R588). -/
def hrtShadow (s : State) (f : Nat) : Saved :=
  let page := fun (k : Nat) =>
    if s.gran.lost.contains (f + k) then ({} : Saved) else ((s.hearth.saved.find? (fun e => e.1 == f + k)).map (·.2)).getD {}
  { page 128 with hist := ((List.range 128).map (fun k => (page k).hist.map (fun e => (k * 32 + e.1, e.2)))).flatten }

/-- Marks of the Hearth pages (R321, R585). -/
def hrtMarks (s : State) : State :=
  match s.hrtLoc with
  | none => s
  | some f =>
    let s := (s.pfMark (f + 128) 1 true).1
    if s.on glb1R GLB_HRT_LOC_PFH then (s.pfMark f 128 true).1 else (s.pfMark f 128 false).1

/-- The location took a value within LOG: everything is written there. -/
def hrtLocCheck (s : State) : State :=
  let w := (s.reg (glb1R + GLB_HRT_LOC_FIRST.idx)).toNat
  if w = s.hearth.loc then s else
  let moved := w % 1024 != s.hearth.loc % 1024
  let s := s.setHearth (fun h => { h with loc := w })
  match s.hrtLoc with
  | none => s
  | some f =>
    let s := if moved then (List.range 129).foldl (fun s k => s.hrtWrite (f + k) 0 512) s else s
    s.hrtMarks

/-! ## Intervals (R309–R312) -/

/-- A new interval starts at second `t`; one that a step made the LTC enter in its course is not whole (R310). -/
def startInterval (s : State) (t : Nat) : State :=
  let part : Bool := s.ltc.sec != t || s.ltc.ns != 0
  let s := s.setHearth (fun h => { h with
    ivStart := t, ticks := 0, tsum := 0, flags := (if h.stopped then 8 else 0) ||| 4 * part.toNat, ivRef := none })
  { s with mil := s.mil.map (fun (c : Chan) => { c with ivOk := true, ivSum := 0 }) }

/-- A channel's state as the Hearth takes it: a standby's learning channel is LOCKED while SLOCK stands (R563). -/
def learnState (s : State) (c : Nat) : Nat :=
  if s.mode = 11 && c = s.learnChan then (if s.on mirR MIR_STATUS_SLOCK then 2 else 1) else s.milState c

/-- The interval of the grid that a second lies in, as its first second. -/
def ivOf (s : State) (sec : Nat) : Nat :=
  let g : Int := s.hearth.grid.getD 0
  let n : Int := max 1 s.intv
  (g + ((sec : Int) - g).fdiv n * n).toNat

/-- The running interval has ended at this boundary: the LTC stands in another one of the grid (R309). -/
def closeInterval (s : State) : State :=
  if s.ivOf s.ltc.sec = s.hearth.ivStart then s else
  let c : ClosedIv := { sec := s.hearth.ivStart + s.intv, ticks := s.hearth.ticks, tsum := s.hearth.tsum, flags := s.hearth.flags
                        sums := s.mil.map (fun (c : Chan) => (c.ivSum, c.ivOk)) }
  (s.setHearth (fun h => { h with closed := some c })).startInterval (s.ivOf s.ltc.sec)

/-- What the tick that ends at a boundary says of the interval it belongs to: what was in force in it, commands included; then
the interval ends, where it does (R310, R312). -/
def hearthTick (s : State) : State :=
  if s.hearth.grid.isNone then s else
  let lc := s.learnChan
  let j := s.srcIdx lc
  let bad := (if s.learnState lc = 2 then 0 else 1) ||| (if Option.any (fun (i : Option Nat) => i != j) s.hearth.ivRef then 2 else 0) |||
    (if s.hearth.stopped then 8 else 0) ||| (if s.get glb1R GLB_HRT_CFG_TSRC = 1 && s.hearth.thermBad then 16 else 0)
  let s := s.setHearth (fun h => { h with flags := h.flags ||| bad, ivRef := some (h.ivRef.getD j) })
  let states := (List.range 16).map s.learnState
  let s := { s with mil := s.mil.zipWith (fun (c : Chan) st => { c with ivOk := c.ivOk && st = 2 }) states }
  s.closeInterval

/-- What a boundary adds to the interval its tick belongs to, from the committed state latched there (R44, R309). -/
def hearthLatch (s : State) : State :=
  let lc := s.learnChan
  let s :=
    if s.hearth.grid.isNone && s.millerRuns && s.learnState lc = 2 && s.ltc.ns = 0 then
      ((s.setHearth (fun h => { h with grid := some s.ltc.sec })).putB glb1R GLB_HRT_STATUS_LEARN (!s.hearth.stopped)).startInterval s.ltc.sec
    else s
  if s.hearth.grid.isNone then s else
  let s := s.setHearth (fun h => { h with ticks := h.ticks + 1, tsum := h.tsum + h.temp })
  { s with mil := s.mil.map (fun (c : Chan) => { c with ivSum := c.ivSum + c.c.i + c.c.pc }) }

/-- An LTC step was applied in the running interval (R310). -/
def hearthStepped (s : State) : State := s.setHearth (fun h => { h with flags := h.flags ||| 4 })

/-- An ended interval waits for its entry. -/
def intervalDue (s : State) : Bool := s.hearth.closed.isSome

/-- Entries are discarded that lie after the LTC's first set value, once after a cold start (R321). -/
def dropFuture (s : State) : State :=
  if s.hearth.loaded && s.on ltcR LTC_STATUS_SET && s.hearth.setSec.isNone then
    (s.setHearth (fun h => { h with setSec := some s.ltc.sec, hist := h.hist.filter (fun e => e.sec ≤ s.ltc.sec) })).putCount
  else s

/-- The end of an interval: an entry, the channels' means, a refit (R309–R313). -/
def intervalEnd (s : State) : State :=
  match s.hearth.closed with
  | none => s
  | some h =>
  let lc := s.learnChan
  let n : Rat := if h.ticks = 0 then 1 else h.ticks
  let t := h.tsum / n
  let ent : HistEnt := { sec := h.sec, y := (h.sums.getD lc (0, false)).1 / n, t := t, flags := if h.ticks = 0 then h.flags ||| 1 else h.flags }
  let slot := s.hearth.count % 4096
  let s := s.setHearth (fun h => { h with closed := none, hist := (h.hist ++ [ent]).drop ((h.hist.length + 1) - 4096), count := h.count + 1 })
  let live := (List.range 16).map (fun c => (s.chan c).on && s.milState c != 0)
  let got := h.sums.zip (live ++ List.replicate 16 false)
  let s := { s with mil := s.mil.zipWith (fun (c : Chan) (g : (Rat × Bool) × Bool) =>
    if g.2 then { c with means := ((h.sec, g.1.1 / n, t, g.1.2) :: c.means).take 16 } else c) (got ++ List.replicate 16 ((0, false), false)) }
  let s := match s.hrtLoc with
    | some f => (s.hrtWrite (f + slot / 32) (slot % 32 * 16) 16).hrtWrite (f + 128) 0 512
    | none => s
  let s := if s.on ltcR LTC_STATUS_SET then s.setHearth (fun h => { h with loaded := false }) else s
  s.putCount.refit

/-- Status of each channel's means and holdover age (R327). -/
def hearthStatus (s : State) : State :=
  (List.range s.nMil).foldl (fun s c =>
    let n := ((s.chan c).means.filter (·.2.2.2)).length
    let s := (s.putB (swoR c) GLB_HRT_CSTAT_YV (0 < n)).put (swoR c) GLB_HRT_CSTAT_NMEAN (min n 15)
    s.putSat (swoR c) GLB_HRT_CSTAT_HAGE (if s.milState c = 5 then (s.prism.tick - (s.chan c).holdTn) / 32000 else 0)) s

/-! ## Temperature (R311, R317) -/

def tempDue (s : State) : Bool := match s.hearth.tempTick with | some t => t + 1024 ≤ s.prism.tick | none => true

/-- EV079 for the bounds a reading crosses, `was` and `is` being the bound it lay beyond before and lies beyond now, `true`
the upper one (R317). A reading that passes from beyond one bound to beyond the other crosses both (log entry 63). -/
def tempBounds (s : State) (was is : Option Bool) : State :=
  if was = is then s else
  let s := match was with | some hi => s.raise 79 0 (is.isSome.toNat + 2 * hi.toNat) | none => s
  match is with | some hi => s.raise 79 0 (1 + 2 * hi.toNat) | none => s

/-- A reading of 1/256 °C is taken, and held to the bounds that the model was fitted in (R317). -/
def tempTaken (s : State) (v : Int) : State :=
  let t : Rat := (v : Rat) / 256
  let s := (s.putI glb1R GLB_HRT_TEMP_TEMP v).setHearth (fun h => { h with temp := t })
  match s.hearth.model with
  | none => s.putB glb1R GLB_HRT_STATUS_TOUT false
  | some md =>
    if !md.tfit then s.putB glb1R GLB_HRT_STATUS_TOUT false else
    let g : Rat := (s.get glb1R GLB_HRT_CFG1_TMARG : Rat) / 4
    let hi : Bool := md.tmax + g < t
    let lo : Bool := t < md.tmin - g
    let was := if s.on glb1R GLB_HRT_STATUS_TOUT then some s.hearth.outHigh else none
    let s := s.tempBounds was (if hi || lo then some hi else none)
    (s.setHearth (fun h => { h with outHigh := if hi || lo then hi else h.outHigh })).putB glb1R GLB_HRT_STATUS_TOUT (hi || lo)

/-- A reading: the mean of the on-die sensors and the thermistor input, none while open or shorted; both in 1/256 °C. None
is taken without the core (R322). -/
def tempReading (s : State) (die : Int) (therm : Option Int) : State :=
  if !s.tempDue || s.mode < 3 then s else
  let ext := s.get glb1R GLB_HRT_CFG_TSRC = 1
  let s := s.setHearth (fun h => { h with tempTick := some s.prism.tick, thermBad := therm.isNone })
  let s := if ext && therm.isNone then s.heldStart 15 else s.heldEnd 15
  let v : Option Int := if ext then therm else some die
  match v with
  | none => s
  | some v => s.tempTaken v

/-! ## Δ_H of the ensembles (R226) -/

def advanceAnchors (s : State) (dt : Int) : State :=
  match s.modelNow, s.hearth.model with
  | some m, some md =>
    { s with ens := s.ens.map (fun (e : EnsSt) =>
        if e.anchor.isSome then { e with dH := e.dH + (m - md.eval e.aSec (s.clampTemp md e.aTemp)) * dt } else e) }
  | _, _ => s

/-! ## Quality of the LTC (R92, R319) -/

/-- The least e with x ≤ 2^e ns, 31 beyond 30. -/
def errExp (x : Rat) : Nat :=
  ((List.range 31).find? (fun e => x ≤ ((2 ^ e : Nat) : Rat))).getD 31

/-- The estimate in use: of the holdover, or, in an ACQUIRE and while resuming after ember mode, of the time since the channel
last left LOCKED (R319). -/
def estNow (s : State) : Option Estimate :=
  let acq : Bool := (s.hearth.resuming && !s.hearth.emberOn) || (match s.timeChan with | some c => s.milState c = 1 | none => false)
  match if acq then s.hearth.estAcq else none with
  | some e => some e
  | none => s.hearth.est

/-- The estimate of R319 in nanoseconds at the current boundary, none when unknown; square roots are rounded in 10⁻¹⁵ ns and 10⁻²⁴. -/
def holdEstimate (s : State) : Option Rat :=
  match s.estNow with
  | none => s.ltc.acc.map (fun (a : Nat) => (a : Rat))
  | some x =>
    let t : Rat := ((s.prism.tick - x.from_ : Nat) : Rat) / 32000
    let sy : Rat := (quantSqrt (x.sy2 * 1000000000000000000000000000000000000000000) : Rat) / 1000000000000000000000
    let sa : Rat := (quantSqrt (x.sa2 * 10 ^ 60) : Rat) / 10 ^ 30
    x.e0.map (fun (a : Rat) => a + (sy * t + sa * t * t / 2) * 1000000000 +
      (if x.valid then (s.hearth.kEmby : Rat) / 1000 * x.ember else 0))

/-- A holdover estimate begins (R319), where none runs or HOLDOVER was entered anew: σ_y and s_a of the model, or EMBY and 0
without a valid one, from the estimate at entry. The model is valid as the holdover's anchor found it (R314, R315). `t0` is a
tick count. -/
def startEstimate (s : State) (t0 : Nat) : State :=
  if s.hearth.est.isSome && !s.hearth.estNew then s else
  let valid := match s.timeChan with
    | some c => if s.milState c = 5 then s.on glb1R GLB_HRT_STATUS_VALID && (s.chan c).hold.isSome else s.chanModelValid c s.tn
    | none => false
  let e0 := s.holdEstimate
  let e : Rat := (s.hearth.kEmby : Rat) / 1000000000000
  let (a, b) := match s.hearth.model, valid with | some m, true => (m.sy2, m.sa2) | _, _ => (e * e, 0)
  let new : Estimate := { from_ := t0, e0 := e0, sy2 := a, sa2 := b, valid := valid }
  s.setHearth (fun h => { h with est := some new, estNew := false, estAcq := some (h.estAcq.getD new) })

/-- State and exponent of the LTC at a boundary (R92). The stated accuracy of a reference is a value the spec does not
state (log entry 16). -/
def syncQuality (s : State) : State :=
  let s := if s.qualState = 3 && !s.hearth.emberOn then s.setHearth (fun h => { h with resuming := false }) else s
  let q := if (s.hearth.resuming || s.hearth.emberOn) && s.on ltcR LTC_STATUS_SET then 2 else s.qualState
  let s := s.put ltcR LTC_STATUS_STATE q
  let s :=
    if q = 3 then
      let r := match s.timeChan with | some c => (s.chan c).ref | none => none
      let s := s.setHearth (fun h => { h with est := none, estAcq := none, estNew := false })
      if r = s.ltc.accRef then s else
      let (a, s) := s.fresh 32
      { s with ltc := { s.ltc with acc := some a, accRef := r } }
    else if q = 2 then
      s.startEstimate (match s.timeChan with | some c => (if s.milState c = 1 then (s.chan c).lastLock else s.prism.tick) | none => s.prism.tick)
    else { (s.setHearth (fun h => { h with est := none, estAcq := none, estNew := false })) with ltc := { s.ltc with acc := none, accRef := none } }
  let e := match s.holdEstimate with
    | some x => if q = 3 || q = 2 then errExp x else 31
    | none => 31
  let s := s.put ltcR LTC_STATUS_ERR e
  match s.timeChan with
  | some c => s.putB ltcR LTC_STATUS_SLEW ((s.chan c).c.d != (s.chan c).c.dt)
  | none => s.putB ltcR LTC_STATUS_SLEW false

/-! ## HEARTH_CTL (R325) -/

/-- A clear: history, means and model go, and every holding channel keeps the word of this boundary (R316). -/
def hearthClear (s : State) : State :=
  let s := (List.range s.nMil).foldl (fun s c =>
    let x := s.chan c
    match x.hold with
    | some h => s.setChan c (fun x => { x with hold := some { h with frozen := some (s.holdWord (some h) x.c.i) } })
    | none => s) s
  let s := { s with mil := s.mil.map (fun (c : Chan) => { c with means := [] }) }
  let s := s.setHearth (fun h => { h with hist := [], count := 0, modelNext := none, grid := none, closed := none, loaded := false })
  ((s.applyModel none).putCount).putB glb1R GLB_HRT_STATUS_TOUT false

def hearthStop (s : State) : State :=
  (s.setHearth (fun h => { h with stopped := true, flags := h.flags ||| 8 })).putB glb1R GLB_HRT_STATUS_LEARN false

def hearthResume (s : State) : State := s.setHearth (fun h => { h with stopped := false, grid := none })

/-- Miller stops: learning ends with it (R309). -/
def hearthHalt (s : State) : State :=
  (s.setHearth (fun h => { h with grid := none })).putB glb1R GLB_HRT_STATUS_LEARN false

/-- The store of the 129 pages (R325); false where nothing can be stored. -/
def hearthStore (s : State) : State × Bool :=
  match s.hrtLoc with
  | none => (s, false)
  | some f => s.storeRequest f 129 false false

/-- The set a `GLB_HRT_LATCH.GO` asks for (R326). -/
def latchHearth (s : State) : State :=
  if !s.hearth.latch then s else
  let s := s.setHearth (fun h => { h with latch := false })
  let m : Model := s.hearth.model.getD ⟨0, 0, 0, 0, 0, 0, 0, 0, 0, 0, 0, false, false⟩
  let b := glb1R
  let q := fun (x : Rat) (k : Nat) => Config.quant (x * ((2 ^ k : Nat) : Rat))
  let s := s.put64 b GLB_HRT_C0_LO_C0 GLB_HRT_C0_HI_C0 (q m.c0 64)
  let s := s.put64 b GLB_HRT_C1_LO_C1 GLB_HRT_C1_HI_C1 (q m.c1 96)
  let s := s.put64 b GLB_HRT_K1_LO_K1 GLB_HRT_K1_HI_K1 (q m.k1 64)
  let s := s.put64 b GLB_HRT_K2_LO_K2 GLB_HRT_K2_HI_K2 (q m.k2 64)
  let s := s.putSat b GLB_HRT_SIGY_SIGY (quantSqrt (m.sy2 * 10 ^ 30)).toNat
  let s := s.putSat b GLB_HRT_SA_SA (quantSqrt (m.sa2 * 10 ^ 40)).toNat
  let s := s.putSatI b GLB_HRT_TEMP_TREF (q m.tref 8)
  let s := (s.putSatI b GLB_HRT_TRANGE_TMIN (q m.tmin 8)).putSatI b GLB_HRT_TRANGE_TMAX (q m.tmax 8)
  (List.range s.nMil).foldl (fun s c =>
    match (s.chan c).means.find? (·.2.2.2) with
    | some e => s.put64 (swoR c) GLB_HRT_YBAR_LO_YBAR GLB_HRT_YBAR_HI_YBAR (q e.2.1 64)
    | none => s.put64 (swoR c) GLB_HRT_YBAR_LO_YBAR GLB_HRT_YBAR_HI_YBAR 0) s

/-! ## Ember mode (R322–R324) -/

/-- The word the Hearth NCO takes over with; the feed-forward taken out is that of the word in effect, which stood before
the tick's work. -/
def emberWord (s : State) : Rat :=
  match s.timeChan with
  | none => s.ltc.inc
  | some c =>
    let x := s.chan c
    let st := s.milState c
    if st = 0 || st = 6 then ofWord x.fw
    else if s.chanModelValid c s.tn then s.holdWord (s.holdFrom c s.tn) x.c.i
    else ofWord x.fw - (s.milBak.getD c {}).c.ff

/-- The time channel's offsets and the ember clock at the boundary that enters M1. -/
def emberEnter (s : State) : State :=
  let w := clampQ (-(1 / 1000)) (1 / 1000) s.emberWord
  -- the words that the ended tick computed take no effect: d is that of the word in effect (R322)
  let td := match s.timeChan with | some t => let c := (s.milBak.getD t {}).c; (c.d, c.dt) | none => (0, 0)
  let s := if s.on ltcR LTC_STATUS_SET then s.startEstimate s.prism.tick else s
  { (s.setHearth (fun h => { h with
      ember := w, emberOn := true, emberDue := false, emberStart := s.ltc.sec, emberTn := s.tn, emberSec := s.ltc.sec, kD := td.1, kDt := td.2
      kC1 := if s.on glb1R GLB_HRT_STATUS_VALID then h.model.map (·.c1) else none
      grid := none, closed := none, ticks := 0 })) with
    ltc := { s.ltc with inc := w } }

/-- Once per LTC second the ageing term is added (R322). -/
def emberSecondStep (s : State) : State :=
  if !s.hearth.emberOn || s.ltc.sec ≤ s.hearth.emberSec then s else
  let n := s.ltc.sec - s.hearth.emberSec
  let more := fun (e : Estimate) => { e with ember := e.ember + (if s.mode = 1 then n else 0) }
  let s := s.setHearth (fun h => { h with emberSec := s.ltc.sec, est := h.est.map more, estAcq := h.estAcq.map more })
  match s.hearth.kC1 with
  | some c1 =>
    let w := clampQ (-(1 / 1000)) (1 / 1000) (s.hearth.ember + c1 * n)
    { (s.setHearth (fun h => { h with ember := w })) with ltc := { s.ltc with inc := w } }
  | none => s

/-- What a reset or M1 EMBER leaves of the Hearth: the keeper's part, and the pages the SRAM holds (R321, R636). -/
def hearthKeep (s : State) : HearthSt :=
  let h := s.hearth
  let pages : Saved := { hist := (List.range 4096).filterMap (fun k => (s.histSlot k).map (fun e => (k, e)))
                         model := h.model, means := s.mil.map (·.means), d := h.kD, dt := h.kDt }
  { ({} : HearthSt) with
    ember := h.ember, emberOn := h.emberOn, emberStart := h.emberStart, emberTn := h.emberTn, emberSec := h.emberSec, kC1 := h.kC1, kPps := h.kPps
    kEmby := h.kEmby, kD := h.kD, kDt := h.kDt, est := h.est, estAcq := h.estAcq, saved := h.saved
    kept := match s.hrtLoc with | some f => some (f, pages) | none => h.kept }

/-- Firmware loads the Hearth's pages at start-up (R321): those the SRAM kept, or after a cold start the stored ones. -/
def hearthLoad (s : State) (cold : Bool) : State :=
  match s.hrtLoc with
  | none => s
  | some f =>
    let src : Option Saved := if cold then some (s.hrtShadow f) else match s.hearth.kept with
      | some (g, p) => if g = f then some p else none
      | none => none
    match src with
    | none => s.setHearth (fun h => { h with kept := none })
    | some p =>
      let hist := (p.hist.map (·.2)).mergeSort (fun a b => a.sec ≤ b.sec)
      let last := p.hist.foldl (fun (b : Nat × Nat) e => if b.2 ≤ e.2.sec then (e.1 + 1, e.2.sec) else b) (0, 0)
      let s := s.setHearth (fun h => { h with hist := hist, count := if hist.isEmpty then 0 else 4096 + last.1, loaded := cold, keptMeans := p.means, kept := none })
      s.putCount.applyModel p.model

/-- The return to a run mode after M1 or a reset (R324): means are handed back, and the channels start from the ember
clock. `before` is what has to stand when Miller starts. -/
def resumeMeans (s : State) : State :=
  if s.hearth.keptMeans.isEmpty then s else
  let m := s.hearth.keptMeans
  { (s.setHearth (fun h => { h with keptMeans := [] })) with
    mil := s.mil.zipWith (fun (x : Chan) l => { x with means := if x.on then l else x.means }) (m ++ List.replicate 16 []) }

def emberResume (s : State) : State :=
  if !s.hearth.emberOn then s else
  let a := s.hearth.emberTn
  let w := s.hearth.ember
  let s := (List.range s.nMil).foldl (fun s c =>
    if !(s.chan c).on then s else
    let h := if s.milState c = 5 then s.holdFrom c a else none
    let s := s.setChan c (fun x => { x with hold := h })
    if s.timeChan = some c then
      s.setChan c (fun x => { x with
        fw := toWord w, out := toWord w, c := { x.c with y := w, d := s.hearth.kD, dt := s.hearth.kDt, dp := s.hearth.kD } })
    else s) s
  s.setHearth (fun h => { h with emberOn := false, resuming := true, estNew := h.estNew && h.est.isNone })

end State

end Sys2Proof.Machine
end

