-- ==== Sys2Proof/Machine/Outputs.lean ====
section
/-! DEFINITION. Loom clock phase, outputs, loss-of-lock policy, bridges and sync groups (R331, R348–R380). -/

namespace Sys2Proof.Machine

/-- The comb slew rate: 1 × 10⁻⁴, which is 3.125 ns per tick (R333). -/
def combSlew : Rat := 3125 / 1000000000000

namespace State

def loomSt (s : State) (n : Nat) : LoomSt := s.loom.getD n {}
def setLoom (s : State) (n : Nat) (f : LoomSt → LoomSt) : State := { s with loom := s.loom.modify n f }
def outSt (s : State) (o : Nat) : OutSt := s.out.getD o {}
def setOut (s : State) (o : Nat) (f : OutSt → OutSt) : State := { s with out := s.out.modify o f }
def bridgeSt (s : State) (g : Nat) : BridgeSt := s.bridge.getD g {}
def setBridge (s : State) (g : Nat) (f : BridgeSt → BridgeSt) : State := { s with bridge := s.bridge.modify g f }
def setTcd (s : State) (f : TcdSt → TcdSt) : State := { s with tcd := f s.tcd }

/-! ## Loom clock -/

def loomState (s : State) (n : Nat) : Nat := s.get (lomR n) LOM_STATUS_STATE
/-- The Loom delivers a usable clock (R349, R375). -/
def loomUsable (s : State) (n : Nat) : Bool := s.loomState n == 2 || s.loomState n == 3

/-- Oscillator time in seconds, `after` 2 ps units past the last boundary. -/
def oscS (s : State) (after : Nat) : Rat := ((s.prism.now : Rat) + after) * unit2ps

/-- The comb slew still to go `after` seconds past the last boundary, in seconds (R333). -/
def slewLeftAt (s : State) (n : Nat) (after : Rat) : Rat :=
  match (s.loomSt n).slew with
  | none => 0
  | some (r, t) =>
    let g := combSlew * ((s.prism.tick - t : Nat) : Rat) + ratMax 0 after / 10000
    if r < 0 then ratMin 0 (r + g) else ratMax 0 (r - g)
def slewLeft (s : State) (n : Nat) : Rat := s.slewLeftAt n 0

/-- Nominal Loom-clock frequency of the settings in effect, hertz (R328). -/
def loomNom (s : State) (n : Nat) : Rat :=
  let l := s.loomSt n
  (l.n : Rat) * l.fc / 65536 / l.pdiv

/-- Loom-clock frequency with the word in effect (R328). -/
def loomHz (s : State) (n : Nat) : Rat := s.loomNom n * (1 + ofWord (s.chan (s.loomSt n).chan).out)

/-- The phase of a Loom's driving channel as its outputs have it at the last boundary, seconds. -/
def outPhase (s : State) (n : Nat) : Rat := let c := s.chan (s.loomSt n).chan; c.ph + c.exc

/-- The half-cycle index at an oscillator time: half-cycles of the Loom clock since channel phase zero (R331), the comb's
dropped periods and slew taken off. -/
def loomHalfAt (s : State) (n : Nat) (t : Rat) : Rat :=
  let l := s.loomSt n
  let dt := t - s.oscS 0
  2 * s.loomNom n * (t + ofWord (s.chan l.chan).out * dt + s.outPhase n - l.ofs - s.slewLeftAt n dt)

/-- The same `after` 2 ps units past the last boundary. -/
def loomHalf (s : State) (n after : Nat) : Rat := s.loomHalfAt n (s.oscS after)

/-- The oscillator time of a half-cycle index: over the comb slew the clock runs faster or slower by 1 × 10⁻⁴ (R333). -/
def loomTimeAt (s : State) (n : Nat) (h : Rat) : Rat :=
  if s.loomHz n = 0 then s.oscS 0 else
  let h0 := s.loomHalf n 0
  let r := s.slewLeft n
  let rate := 2 * s.loomNom n * (1 + ofWord (s.chan (s.loomSt n).chan).out + (if 0 < r then 1 / 10000 else if r < 0 then -1 / 10000 else 0))
  let tEnd := ratAbs r * 10000
  let hEnd := h0 + rate * tEnd
  if h < h0 || (hEnd < h) then s.oscS 0 + (if h < h0 then (h - h0) / (2 * s.loomHz n) else tEnd + (h - hEnd) / (2 * s.loomHz n))
  else s.oscS 0 + (h - h0) / rate

/-! ## Outputs -/

/-- The source in effect, and the one that the register names for the next enable. -/
def outSrc (s : State) (o : Nat) : Nat := (s.outSt o).src
def outReg (s : State) (o : Nat) : Nat := s.get (outR o) OUT_CFG_SRC
def outState (s : State) (o : Nat) : Nat := s.get (outR o) OUT_STATUS_STATE
def outFromLoom (s : State) (o : Nat) : Bool := s.outSrc o < 8

/-- Outputs in use on Loom `n`: enabled, with that source, or completing the last high pulse of a disable (R335). -/
def outsOf (s : State) (n : Nat) : List Nat :=
  (List.range s.nOut).filter (fun o => ((s.outSt o).en || s.oscS 0 < (s.outSt o).low) && s.outSrc o == n)

/-- Period and high part of an output in source half-cycles (R362, R363). -/
def outPeriod (x : OutSt) : Nat := 2 * x.div + x.half.toNat
def outHigh (x : OutSt) : Nat := x.div + x.half.toNat

/-- The limit of R373, hertz. -/
def outLimit (fmt : Nat) : Rat := if fmt = 4 then 250000000 else 2700000000

/-- The FC that the settings come to: a pair taken for the next boundary, a glide's last FC, or the FC in effect (R329, R330,
R347). -/
def fcReg (s : State) (n : Nat) : Nat :=
  (s.loomSt n).fcNext.getD (match (s.loomSt n).glide with | some (_, t, _, _, _) => t | none => (s.loomSt n).fc)

/-- Nominal frequency of a source, with a Loom's settings as its registers hold them (R373). -/
def srcNom (s : State) (bank src : Nat) : Rat :=
  if src < 8 then
    (s.get (lomR src) LOM_N_N : Rat) * s.fcReg src / 65536 / s.get (lomR src) LOM_CFG_PDIV
  else if src = 8 then
    let i := s.get (bankR bank) OUT_BANK_CFG_BYP
    (s.get (priR i) PRS_NOM_HZ : Rat) * s.get (priR i) PRS_IN_CFG_DIV
  else 0

/-- A setting keeps the limit of R373. -/
def withinLimit (s : State) (bank src fmt div : Nat) (half : Bool) : Bool :=
  Decidable.decide (2 * s.srcNom bank src / ((2 * div + half.toNat : Nat) : Rat) ≤ outLimit fmt)

/-- Output `o` keeps its limit with the settings its registers hold. -/
def outWithin (s : State) (o : Nat) : Bool :=
  s.withinLimit (o / 8) (s.outReg o) (s.get (outR o) OUT_CFG_FMT) (s.get (outR o) OUT_DIV_DIV) (s.on (outR o) OUT_CFG_HALF)

/-- `OUT_STATUS.PEND`: the registers differ from what the running divider took at its start (R365). -/
def syncPend (s : State) (o : Nat) : State :=
  let x := s.outSt o
  s.putB (outR o) OUT_STATUS_PEND (x.en && s.outSrc o ≤ 8 &&
    (s.get (outR o) OUT_DIV_DIV != x.div || s.on (outR o) OUT_CFG_HALF != x.half || s.get (outR o) OUT_DLY_CDLY != x.cdly))

/-- The divider takes DIV, HALF and CDLY (R365). -/
def outTake (s : State) (o : Nat) : State :=
  let d := s.get (outR o) OUT_DIV_DIV
  let h := s.on (outR o) OUT_CFG_HALF
  let c := s.get (outR o) OUT_DLY_CDLY
  (s.setOut o (fun x => { x with div := d, half := h, cdly := c })).putB (outR o) OUT_STATUS_PEND false

/-- Oscillator time at which the last low of a Loom-driven output began or will begin, `after` past the boundary: a high
pulse in progress is completed at its nominal length. -/
def lowFrom (s : State) (o after : Nat) : Rat :=
  let x := s.outSt o
  match x.rise with
  | none => x.low
  | some r =>
    let n := s.outSrc o
    let h := s.loomHalf n after
    if h < r then x.low else
    let p : Int := outPeriod x
    let k := ((h - r) / p).floor
    s.loomTimeAt n (r + k * p + outHigh x)

/-- The move of the delay line ends (R367). -/
def fineEnd (s : State) (o : Nat) : State :=
  (s.putB (outR o) OUT_STATUS_FSLEW false).setOut o (fun x => { x with fmove := none })

/-- Oscillator time at which the pulse of a generator ends that an output in RUN carries; what is left of a timecode pulse, up to
8 ms, is a free value (R369, log entry 64). -/
def pulseLow (s : State) (o : Nat) : Rat × State :=
  if s.outState o != 1 then ((s.outSt o).low, s)
  else if s.outSrc o = 9 then ((match s.tcd.pulseEnd with | some p => (p : Rat) * unit2ps | none => (s.outSt o).low), s)
  else let (v, s) := s.fresh 32; (s.oscS 0 + (v % 8000000 : Nat) / 1000000000, s)

/-- The divider stops: a high pulse in progress is completed, then the output holds low (R350, R369, R373). A bypass output
that is high goes on to the edge that ends its pulse. The delay line takes its new value (R367). -/
def outStop (s : State) (o : Nat) : State :=
  let (low, s) : Rat × State := if s.outFromLoom o then (s.lowFrom o 0, s) else if s.outSrc o = 8 then ((s.outSt o).low, s) else s.pulseLow o
  (s.setOut o (fun x => { x with rise := none, low := low, resetting := none, byp := x.byp.filter (·.high) })).fineEnd o

/-- A divider start at the last boundary (R353, R369): the first rising edge comes CDLY half-cycles after the first
source rising edge, and not before the low has lasted the nominal half-period. STATE 5 START. -/
def outStart (s : State) (o : Nat) : State :=
  let s := s.outTake o
  let s := s.put (outR o) OUT_STATUS_STATE 5
  if !s.outFromLoom o then s else
  let s := s.setOut o (fun x => { x with byp := none })
  let n := s.outSrc o
  let x := s.outSt o
  let e := 2 * (s.loomHalf n 0 / 2).ceil + x.cdly
  let m := (s.loomHalfAt n x.low + (outPeriod x : Rat) / 2).ceil
  s.setOut o (fun x => { x with rise := some (max e m) })

/-- An output moves between its Loom, HOLD and BRIDGE (R358). -/
def outEvent (s : State) (o cond reason : Nat) : State := s.raise (64 + o / 8) o (cond + 4 * s.outSrc o + 32 * reason)

def bridgeReady (s : State) (g : Nat) : Bool := s.on (bankR g) OUT_BANK_STATUS_BRDY
def bridgeSubject (s : State) (g : Nat) : Option Nat :=
  if s.on (bankR g) OUT_BANK_STATUS_BSUB_V then some (s.get (bankR g) OUT_BANK_STATUS_BSUB) else none

/-- A bridge carries an output (R351). -/
def bridgeCarries (s : State) (g : Nat) : Bool := (List.range 8).any (fun k => 8 * g + k < s.nOut && s.outState (8 * g + k) = 3)

/-- An output in use takes its policy (R350–R352, R370). One that a disable is stopping goes on to its static low, which is
HOLD's, and keeps STATE 0 (log entry 64); one in FLIM holds low until its next divider start (R373). -/
def outPolicy (s : State) (o : Nat) : State :=
  if 2 ≤ s.outState o && s.outState o ≤ 4 then s else
  let n := s.outSrc o
  let g := o / 8
  let s := s.putB (outR o) OUT_STATUS_PLOST true
  if !(s.outSt o).en then s else
  if (s.outSt o).bridge && s.bridgeSubject g = some n && s.bridgeReady g then
    let hz := s.loomHz n
    let held := s.bridgeCarries g
    let s := s.setBridge g (fun b => { b with freq := some (if held then b.freq.getD hz else hz) })
    ((s.setOut o (fun x => { x with rise := none, resetting := none })).put (outR o) OUT_STATUS_STATE 3).outEvent o 2 0
  else
    let reason := if !(s.outSt o).bridge then 0 else if s.bridgeSubject g != some n then 1 else 2
    ((s.outStop o).put (outR o) OUT_STATUS_STATE 2).outEvent o 1 reason

/-- Every output in use on a Loom takes its policy. -/
def loomPolicy (s : State) (n : Nat) : State := (s.outsOf n).foldl outPolicy s

/-- Outputs on policy return to a Loom that declares lock (R353). A bridged output's phase is open: it is a free value. -/
def loomReturn (s : State) (n : Nat) : State :=
  (s.outsOf n).foldl (fun s o =>
    if s.outState o = 2 then
      if s.outWithin o then (s.outStart o).outEvent o 0 0
      else (s.put (outR o) OUT_STATUS_STATE 4).outEvent o 0 0
    else if s.outState o = 3 then
      if !s.withinLimit (o / 8) n (s.get (outR o) OUT_CFG_FMT) (s.outSt o).div (s.outSt o).half then
        let now := s.oscS 0
        ((s.setOut o (fun x => { x with low := now })).put (outR o) OUT_STATUS_STATE 4).outEvent o 0 0
      else
      let (v, s) := s.fresh 32
      let h := (s.loomHalf n 0).ceil - ((v % outPeriod (s.outSt o) : Nat) : Int)
      let s := s.setOut o (fun x => { x with rise := some h })
      (s.put (outR o) OUT_STATUS_STATE 1).outEvent o 0 0
    else s) s

/-- Where the delay line stands at an oscillator time, on its way to `fdly`, 0.5 ps steps: it moves one in 10 ns (R367). -/
def finePos (s : State) (o fdly : Nat) (t : Rat) : Rat :=
  match (s.outSt o).fmove with
  | none => fdly
  | some (t0, p) =>
    let d := ratMax 0 (t - t0) * 100000000
    if p < fdly then ratMin fdly (p + d) else ratMax fdly (p - d)

/-- The fine delay line is given a new value at an oscillator time (R367): it is taken at once on an output that does not run. -/
def outFine (s : State) (o old : Nat) (t : Rat) : State :=
  if s.get (outR o) OUT_DLY_FDLY = old then s else
  if (s.outSt o).en && (s.outState o = 1 || s.outState o = 3) then
    let p := s.finePos o old t
    (s.putB (outR o) OUT_STATUS_FSLEW true).setOut o (fun x => { x with fmove := some (t, p) })
  else s

/-- A move of the delay line is over by an oscillator time. -/
def fineDue (s : State) (o : Nat) (t : Rat) : Bool :=
  (s.outSt o).fmove.isSome && Decidable.decide (s.finePos o (s.get (outR o) OUT_DLY_FDLY) t = s.get (outR o) OUT_DLY_FDLY)

/-- An enable at a boundary (R369, R370). -/
def outEnable (s : State) (o : Nat) : State :=
  let s := (s.setOut o (fun x => { x with en := true })).outTake o
  let loom := s.outFromLoom o
  let s := s.putB (outR o) OUT_STATUS_PLOST loom
  if loom && !s.loomUsable (s.outSrc o) then s.outPolicy o else s.outStart o

/-- A disable at a boundary (R369). -/
def outDisable (s : State) (o : Nat) : State :=
  let s := s.outStop o
  let s := (s.put (outR o) OUT_STATUS_STATE 0).putB (outR o) OUT_STATUS_PEND false
  s.setOut o (fun x => { x with en := false })

/-- One output passes to what its `OUT_CFG` says (R369, R371). A SRC that M6 changes on an enabled output comes in as R394 has it:
a disable, the change, an enable (DEDUCED, log entry 64). -/
def outFollow (s : State) (o : Nat) : State :=
  let en := s.on (outR o) OUT_CFG_EN
  let pol := s.on (outR o) OUT_CFG_POLICY
  let src := s.outReg o
  let s := s.setOut o (fun x => { x with bridge := pol })
  let s := if (s.outSt o).en && (!en || src != s.outSrc o) then s.outDisable o else s
  let s := if !(s.outSt o).en && (en || ((s.outSt o).byp.isNone && !(s.oscS 0 < (s.outSt o).low))) then s.setOut o (fun x => { x with src := src }) else s
  let s := if en && !(s.outSt o).en then s.outEnable o else s
  if 8 ≤ s.outSrc o then s.putB (outR o) OUT_STATUS_PLOST false else s

/-- Outputs pass to what `OUT_CFG` says (R369, R371, R391); the ember output passes to its own setting here (R392). -/
def outputsFollow (s : State) : State :=
  if s.mode < 6 then s else (List.range s.nOut).foldl outFollow s

/-- OUT_CTL at its boundary (R393, R394): false where the limit of R373 or the supply of R650 forbids the result. -/
def outCtl (s : State) (o : Nat) (pl : List Byte) : State × Bool :=
  let m := leAt pl 12 1
  let sel := fun (b : Nat) => m / 2 ^ b % 2 = 1
  let fl := leAt pl 10 1
  let r := outR o
  let div := if sel 0 then leAt pl 0 4 else s.get r OUT_DIV_DIV
  let half : Bool := if sel 0 then fl / 2 % 2 = 1 else s.on r OUT_CFG_HALF
  let src := if sel 3 then leAt pl 8 1 else s.outReg o
  let fmt := if sel 4 then leAt pl 9 1 else s.get r OUT_CFG_FMT
  let en : Bool := if sel 5 then fl % 2 = 1 else s.on r OUT_CFG_EN
  if sel 4 && fmt = 2 && s.get (bankR (o / 8)) OUT_BANK_STATUS_VDDO = 1 then (s, false)
  else if en && src ≤ 8 && !s.withinLimit (o / 8) src fmt div half then (s, false)
  else
    let moved : Bool := (s.outSt o).en && (src != s.outSrc o || fmt != s.get r OUT_CFG_FMT)
    let fine := s.get r OUT_DLY_FDLY
    let s := if moved then s.outDisable o else s
    let s := ((s.put r OUT_DIV_DIV div).putB r OUT_CFG_HALF half).putB r OUT_CFG_EN en
    let s := (s.put r OUT_CFG_SRC src).put r OUT_CFG_FMT fmt
    let s := if sel 1 then s.put r OUT_DLY_CDLY (leAt pl 4 2) else s
    let s := if sel 2 then (s.put r OUT_DLY_FDLY (leAt pl 6 2)).outFine o fine (s.oscS 0) else s
    let s := if sel 6 then s.putB r OUT_CFG_POLICY (fl / 4 % 2 = 1) else s
    let s := if sel 7 then (s.putB r OUT_CFG_SGEN (fl / 8 % 2 = 1)).put r OUT_CFG_SG (fl / 16 % 8) else s
    ((s.syncPend o).outFollow o, true)

/-- Enabled outputs of a source whose settings changed and that now exceed their limit take FLIM (R373); those under a
loss-of-lock policy are judged when the source runs again. -/
def limitCheck (s : State) (o : Nat) : State :=
  if !(s.outSt o).en || (2 ≤ s.outState o && s.outState o ≤ 4) || 8 < s.outSrc o then s else
  let x := s.outSt o
  if s.withinLimit (o / 8) (s.outSrc o) (s.get (outR o) OUT_CFG_FMT) x.div x.half then s else
  (s.outStop o).put (outR o) OUT_STATUS_STATE 4

def limitLoom (s : State) (n : Nat) : State := (s.outsOf n).foldl limitCheck s

/-- A bank's bridge at a boundary (R351): the subject is chosen again while the bridge carries no output. -/
def bridgeBoundary (s : State) (g : Nat) : State :=
  let outs := (List.range 8).map (fun k => 8 * g + k) |>.filter (· < s.nOut)
  if outs.any (fun o => s.outState o = 3) then s else
  let s := s.setBridge g (fun b => { b with freq := none })
  let sub := (outs.find? (fun o => (s.outSt o).en && (s.outSt o).bridge && s.outFromLoom o)).map (fun o => s.outSrc o)
  if sub = s.bridgeSubject g then s else
  let s := (s.putB (bankR g) OUT_BANK_STATUS_BSUB_V sub.isSome).put (bankR g) OUT_BANK_STATUS_BSUB (sub.getD 0)
  let t := s.prism.tick
  (s.putB (bankR g) OUT_BANK_STATUS_BRDY false).setBridge g (fun b => { b with since := t })

/-- A bridge is ready 64 ticks after its subject was chosen (R351). -/
def bridgeDue (s : State) (g : Nat) : Bool :=
  (s.bridgeSubject g).isSome && !s.bridgeReady g && (s.bridgeSt g).since + 64 ≤ s.prism.tick

def bridgeReadyStep (s : State) (g : Nat) : State :=
  if s.bridgeDue g then s.putB (bankR g) OUT_BANK_STATUS_BRDY true else s

/-! ## First edges and sync groups -/

/-- A bypass output that starts can rise at an oscillator time: its low has lasted the nominal half-period, and CDLY is
ignored (R361, R369). Its edges are those of its input, which come from outside (R364). -/
def bypassDue (s : State) (o : Nat) (t : Rat) : Bool :=
  s.outSrc o = 8 && s.outState o = 5 && (s.outSt o).byp.isNone &&
  Decidable.decide ((s.outSt o).low + (outPeriod (s.outSt o) : Rat) / 4 / s.srcNom (o / 8) 8 ≤ t)

/-- Whether the first rising edge of a Loom-driven output has come, `after` past the boundary. -/
def firstDue (s : State) (o after : Nat) : Bool :=
  match (s.outSt o).rise with
  | some r => s.outFromLoom o && (s.outState o = 5 || (s.outSt o).resetting.isSome) && Decidable.decide ((r : Rat) ≤ s.loomHalf (s.outSrc o) after)
  | none => false

/-- The first rising edge (R369, R370, R379). -/
def firstEdge (s : State) (o : Nat) : State :=
  let s := s.put (outR o) OUT_STATUS_STATE 1
  let s := if (s.outSt o).resetting.isSome then s.putB (outR o) OUT_STATUS_PLOST false else s
  s.setOut o (fun x => { x with resetting := none })

/-- A bypass output's first rising edge, at an oscillator time: its divider counts from there (R364). -/
def bypassFirst (s : State) (o : Nat) (t : Rat) : State :=
  (s.setOut o (fun x => { x with byp := some ⟨true, true, outHigh x, t⟩ })).firstEdge o

/-- One input half-cycle of a bypass divider. -/
def bypHalf (x : OutSt) (b : Byp) : Byp :=
  if 1 < b.left then { b with left := b.left - 1 } else { b with high := !b.high, left := if b.high then x.div else outHigh x }

/-- An edge of a bypass output's input, of the selected slope or not (R364): a count of every selected edge, so two of them
without the other between are two half-cycles. An output that stops holds low from the end of its high pulse (R369). -/
def bypassEdge (s : State) (o : Nat) (t : Rat) (lead : Bool) : State :=
  let x := s.outSt o
  match x.byp with
  | none => if lead && s.bypassDue o t then s.bypassFirst o t else s
  | some b =>
    if Decidable.decide (t ≤ b.at_) || (!lead && !b.lead) then s else
    let c := if lead && b.lead then bypHalf x (bypHalf x b) else bypHalf x b
    let fell : Bool := b.high && (!c.high || (lead && b.lead && b.left = 1))
    s.setOut o (fun y => { y with
      byp := if fell && s.outState o != 1 then none else some { c with lead := lead, at_ := t }
      low := if fell then t else y.low })

/-- Members of a sync group. -/
def sgMembers (s : State) (g : Nat) : List Nat :=
  (List.range s.nOut).filter (fun o => s.on (outR o) OUT_CFG_SGEN && s.get (outR o) OUT_CFG_SG == g)

/-- One member is reset with reset instant `after` past the boundary (R376); whether whole periods were added. -/
def sgResetOut (s : State) (g o after : Nat) : State × Bool :=
  if s.outState o = 4 && !s.outWithin o then (s, false) else
  let n := s.outSrc o
  let low := s.lowFrom o after
  let s := s.outTake o
  let x := s.outSt o
  let p := outPeriod x
  let tl := 2 * (s.loomHalf n after / 2).ceil
  let sched : Int := tl + 128 + x.cdly
  let short := s.loomHalfAt n low + 95 / 100 * ((p : Rat) / 2) - sched
  let k : Int := if short ≤ 0 then 0 else (short / p).ceil
  let s := if k = 0 then s else s.putB (outR o) OUT_STATUS_SKIP true
  let s := if s.outState o = 4 then s.put (outR o) OUT_STATUS_STATE 5 else s
  (s.setOut o (fun x => { x with rise := some (sched + k * p), low := low, resetting := some g }), k != 0)

/-- A reset of a sync group (R375, R379, R380). -/
def sgReset (s : State) (g after : Nat) (pin : Bool) : State :=
  let ms := s.sgMembers g
  let ok := ms.filter (fun o => (s.outSt o).en && s.outFromLoom o && s.loomUsable (s.outSrc o))
  let (s, shifted) := ok.foldl (fun (r : State × Bool) o => let (t, b) := r.1.sgResetOut g o after; (t, r.2 || b)) (s, false)
  let s := if !s.out.any (fun x => x.resetting == some g) then s else s.put tcdR TCD_SG_STATUS_ACTIVE (s.get tcdR TCD_SG_STATUS_ACTIVE ||| 2 ^ g)
  s.raise 124 g (ok.length + 64 * (ms.length - ok.length) + 4096 * pin.toNat + 8192 * shifted.toNat)

/-- A reset by command, once for a group at one boundary (R379). It waits for the boundary's other changes (R375). -/
def sgCommand (s : State) (g : Nat) : State :=
  if s.tcd.sgAt.contains (g, s.tn) then s else
  s.setTcd (fun t => { t with sgAt := (g, s.tn) :: t.sgAt.filter (fun e => e.2 == s.tn), sgDue := t.sgDue ++ [g] })

/-- The resets that commands asked for at the boundary, after its other changes (R375). -/
def sgResets (s : State) : State :=
  s.tcd.sgDue.foldl (fun s g => s.sgReset g 0 false) (s.setTcd (fun t => { t with sgDue := [] }))

/-- A group's reset has ended (R379). -/
def sgDone (s : State) (g : Nat) : Bool :=
  s.on tcdR (TCD_SG_STATUS_ACTIVE.bit g) && !s.out.any (fun x => x.resetting == some g)

def sgEnd (s : State) (g : Nat) : State :=
  if s.sgDone g then s.putB tcdR (TCD_SG_STATUS_ACTIVE.bit g) false else s

/-- A falling edge of SYNC_IN_N, `after` 2 ps units past the boundary (R378, R379), after the first edges that came before it. -/
def syncIn (s : State) (after : Nat) : State :=
  let s := (List.range s.nOut).foldl (fun s o => if s.firstDue o after then s.firstEdge o else s) s
  let s := (List.range 8).foldl sgEnd s
  let (_, s) := s.nextSeq 0x52
  let ns32 := s.ltc.ns * 2 ^ 32 + s.ltc.frac + (Config.quant ((after : Rat) / 500 * (1 + s.ltc.inc) * 2 ^ 32)).toNat
  let (sec, ns16) := recTime s.ltc.sec ns32
  let s := (s.put tcdR TCD_SYNC_S_S_LO sec).put tcdR TCD_SYNC_NS_NS (ns16 / 65536)
  let busy := s.get tcdR TCD_SG_STATUS_ACTIVE
  let free := (List.range 8).filter (fun g => s.on tcdR (TCD_SG_CTL_ARM.bit g) && busy / 2 ^ g % 2 = 0)
  let s := if busy = 0 then s else s.bump tcdR TCD_SG_STATUS_IGN
  free.foldl (fun s g =>
    let s := s.sgReset g after true
    if s.on tcdR (TCD_SG_CTL_ONCE.bit g) then s.putB tcdR (TCD_SG_CTL_ARM.bit g) false else s) s

/-- SYNC_GROUP (R395). -/
def syncGroup (s : State) (groups act : Nat) : State :=
  (List.range 8).foldl (fun s g =>
    if groups / 2 ^ g % 2 = 0 then s else
    match act with
    | 0 => s.sgCommand g
    | 1 => s.putB tcdR (TCD_SG_CTL_ARM.bit g) true
    | 2 => (s.putB tcdR (TCD_SG_CTL_ARM.bit g) false).putB tcdR (TCD_SG_CTL_ONCE.bit g) false
    | _ => (s.putB tcdR (TCD_SG_CTL_ARM.bit g) true).putB tcdR (TCD_SG_CTL_ONCE.bit g) true) s

end State

end Sys2Proof.Machine
end

