-- ==== Sys2Proof/Machine/Loom.lean ====
section
/-! DEFINITION. Loom: band search, lock, retuning, glide, band hops and comb slew (R328–R360). -/

namespace Sys2Proof.Machine

def natDist (a b : Nat) : Nat := if a < b then b - a else a - b

/-- The band to measure next after `test` was measured, with its direction (R341); none when refinement stops. -/
def refineNext (b best test : Nat) (up nearer : Bool) (done : List Nat) : Option (Nat × Bool) :=
  if 4 ≤ done.length then none else
  let ahead : Option Nat := if up then (if test < 511 then some (test + 1) else none) else if 0 < test then some (test - 1) else none
  let other : Option Nat := if up then (if 0 < best then some (best - 1) else none) else if best < 511 then some (best + 1) else none
  let ok := fun (k : Nat) => k != b && !done.contains k
  match nearer, ahead with
  | true, some k => some (k, up)
  | _, _ =>
    match other with
    | some k => if ok k then some (k, !up) else none
    | none => none

/-- The first band measured in refinement beside `b`. -/
def refineFirstBand (b : Nat) : Nat × Bool := if b = 511 then (510, false) else (b + 1, true)

namespace State

/-- N × FC of the settings in effect, 2⁻¹⁶ Hz. -/
def loomTarget (s : State) (n : Nat) : Nat := (s.loomSt n).n * (s.loomSt n).fc

/-- The range of R329: 9.6 GHz to 13.4 GHz, in 2⁻¹⁶ Hz. -/
def targetOk (nfc : Nat) : Bool := 9600000000 * 65536 ≤ nfc && nfc ≤ 13400000000 * 65536

/-- The range of FC alone (R328): 50 MHz to 1,000 MHz. -/
def fcOk (fc : Nat) : Bool := 50000000 * 65536 ≤ fc && fc ≤ 1000000000 * 65536

/-- A change of `LOM_STATUS.STATE`, with its event (R358). -/
def loomSetState (s : State) (n st cause : Nat) : State :=
  let old := s.loomState n
  let s := s.put (lomR n) LOM_STATUS_STATE st
  if old = st || (old = 2 && st = 3) || (old = 3 && st = 2) then s else
  s.raise (56 + n) 0 (st + 8 * old + 64 * s.get (lomR n) LOM_STATUS_BAND + 32768 * cause)

/-- The FC registers read the FC in effect, a held low half apart (R329, R330). -/
def showFc (s : State) (n : Nat) : State :=
  let l := s.loomSt n
  if l.fcNext.isSome then s else
  let s := if l.held then s else s.put (lomR n) LOM_FC_LO_FC (l.fc % 2 ^ 32)
  s.put (lomR n) LOM_FC_HI_FC (l.fc / 2 ^ 32)

/-- A band search starts at a boundary, given as its tick count (R340): injection off, the fine control centred, outputs on
their policy. -/
def searchAt (s : State) (n start cause : Nat) (reset : Bool) : State :=
  let s := s.setLoom n (fun l => { l with
    search := some { start := start, phase := .coarse 8 0 none }
    tries := if reset then 1 else l.tries
    startNext := false })
  let s := s.put (lomR n) LOM_STATUS_TRIES (min 7 (s.loomSt n).tries)
  -- the event carries the band last in use, and outputs take their policy on the clock they ran on
  let s := (s.loomSetState n 1 cause).loomPolicy n
  let s := s.setLoom n (fun l => { l with
    fc := (match l.glide with | some (_, t, _, _, _) => t | none => l.fc), glide := none, slew := none })
  ((s.put (lomR n) LOM_STATUS_BAND 256).putB (lomR n) LOM_STATUS_SLEW false).put (lomR n) LOM_STATUS_FINE 0

def search (s : State) (n cause : Nat) (reset : Bool) : State := s.searchAt n s.prism.tick cause reset

/-- Measurements completed in a search. -/
def measDone : Phase → Nat
  | .coarse bit _ _ => 8 - bit
  | .refineFirst _ => 9
  | .refine _ _ done _ _ => 9 + done.length
  | .check _ r => 9 + r
  | .failed _ => 0

/-- A measurement of the running search is complete (R340): the `k`-th ends at the boundary `start` + 1 + 2k. -/
def measDue (s : State) (n : Nat) : Bool :=
  match (s.loomSt n).search with
  | none => false
  | some x =>
    match x.phase with
    | .check _ _ => false
    | .failed _ => false
    | p => x.start + 1 + 2 * (measDone p + 1) ≤ s.prism.tick

def setPhase (s : State) (n : Nat) (p : Phase) : State :=
  s.setLoom n (fun l => { l with search := l.search.map (fun x => { x with phase := p }) })

def setBand (s : State) (n b : Nat) : State := s.put (lomR n) LOM_STATUS_BAND b

/-- Refinement ends with the best band (R341, R342); a failed attempt leaves the band last tested (R358). -/
def refineEnd (s : State) (n start : Nat) (best : Nat × Nat) (r : Nat) : State :=
  let t := s.loomTarget n
  if t * 2 < natDist (best.2 * 65536) t * 1000 then s.setPhase n (.failed (start + 19 + 2 * r))
  else (s.setBand n best.1).setPhase n (.check (start + 29 + 2 * r) r)

/-- A measurement of the free-running frequency, hertz (R340, R341). -/
def measure (s : State) (n hz : Nat) : State :=
  match (s.loomSt n).search with
  | none => s
  | some x =>
    let s := s.put (lomR n) LOM_MEAS_FREQ (Config.quant ((hz : Rat) / 1000)).toNat
    let t := s.loomTarget n
    match x.phase with
    | .coarse bit b fb =>
      let test := b + 2 ^ bit
      let (b, fb) : Nat × Option Nat := if hz * 65536 ≤ t then (test, some hz) else (b, fb)
      if bit = 0 then
        let s := s.setLoom n (fun l => { l with search := l.search.map (fun x => { x with cband := b }) })
        match fb with
        | some f =>
          let (k, up) := refineFirstBand b
          (s.setPhase n (.refine b (b, f) [] k up)).setBand n k
        | none => (s.setPhase n (.refineFirst b)).setBand n b
      else (s.setPhase n (.coarse (bit - 1) b fb)).setBand n (b + 2 ^ (bit - 1))
    | .refineFirst b =>
      let (k, up) := refineFirstBand b
      (s.setPhase n (.refine b (b, hz) [b] k up)).setBand n k
    | .refine b best done test up =>
      let nearer : Bool := natDist (hz * 65536) t < natDist (best.2 * 65536) t
      let best := if nearer then (test, hz) else best
      let done := done ++ [test]
      match refineNext b best.1 test up nearer done with
      | some (k, up) => (s.setPhase n (.refine b best done k up)).setBand n k
      | none => s.refineEnd n x.start best done.length
    | .check _ _ => s
    | .failed _ => s

/-- Lock is due (R340). -/
def lockAtDue (s : State) (n : Nat) : Bool :=
  match (s.loomSt n).search with
  | some ⟨_, _, .check t _⟩ => t ≤ s.prism.tick
  | _ => false

/-- The Loom declares lock: the post-divider is aligned, outputs return (R331, R340, R353). -/
def loomLock (s : State) (n : Nat) : State :=
  match (s.loomSt n).search with
  | some ⟨_, cb, .check _ r⟩ =>
    let s := (s.setLoom n (fun l => { l with search := none, ofs := 0, slew := none })).putB (lomR n) LOM_STATUS_SLEW false
    let s := ((s.put (lomR n) LOM_SRCH_TICKS (29 + 2 * r)).put (lomR n) LOM_SRCH_CBAND cb).put (lomR n) LOM_SRCH_REFINE r
    (s.loomSetState n 2 0).loomReturn n
  | _ => s

/-- A failed attempt is found (R342). -/
def attemptFailed (s : State) (n : Nat) : Option Nat :=
  match (s.loomSt n).search with
  | some ⟨_, _, .failed t⟩ => if t ≤ s.prism.tick then some t else none
  | _ => none

/-- The next attempt starts where the failure is found, or the Loom enters FAIL (R342, R359). -/
def attemptFail (s : State) (n : Nat) : State :=
  match s.attemptFailed n with
  | none => s
  | some t =>
    if (s.loomSt n).tries ≤ s.get (lomR n) LOM_CFG_RETRY then
      let s := s.setLoom n (fun l => { l with tries := l.tries + 1 })
      s.searchAt n t 0 false
    else
      let s := s.setLoom n (fun l => { l with search := none })
      let s := (s.bump (lomR n) LOM_CNT_FAILS).loomSetState n 5 2
      s.occur (24 + n)

/-- Injection is on: locked, gliding, or settling and being checked (R340). -/
def injected (s : State) (n : Nat) : Bool :=
  s.loomUsable n || (match (s.loomSt n).search with | some ⟨_, _, .check _ _⟩ => true | _ => false)

/-- The lock detector reports loss (R339, R342, R343, R359); while the centring loop settles it is not asked. A pair taken
for the next boundary is classed there (R345). -/
def loomLoss (s : State) (n : Nat) : State :=
  if s.loomUsable n then
    let used := !(s.outsOf n).isEmpty
    let auto := s.on (lomR n) LOM_CFG_AUTO
    -- outputs switch while the last word still gives the bridge its frequency
    let s := ((s.bump (lomR n) LOM_CNT_LOSSES).loomSetState n 4 1).loomPolicy n
    let s := s.setLoom n (fun l => { l with
      fc := (match l.glide with | some (_, t, _, _, _) => t | none => l.fc), glide := none, slew := none, startNext := auto })
    let s := (s.putB (lomR n) LOM_STATUS_SLEW false).showFc n
    if used then s.occur (24 + n) else s
  else
    match (s.loomSt n).search with
    | some ⟨_, _, .check t _⟩ => if t ≤ s.prism.tick + 8 then s.setPhase n (.failed (s.prism.tick + 1)) else s
    | _ => s

/-- A band hop (R338): the fine control passes 75 % of its half-range; `after` is where it stands then. -/
def bandHop (s : State) (n : Nat) (fine after : Int) : State :=
  if !s.loomUsable n || !s.on (lomR n) LOM_CFG_HOP || fine.natAbs ≤ 75 then s else
  let b := s.get (lomR n) LOM_STATUS_BAND
  if (0 < fine && b = 511) || (fine < 0 && b = 0) then s else
  let s := s.setBand n (if 0 < fine then b + 1 else b - 1)
  (s.bump (lomR n) LOM_CNT_HOPS).putI (lomR n) LOM_STATUS_FINE (clampI (-100) 100 after)

/-- Centre of a band at calibration temperature, kHz, where the table has one (R344, log entry 11). -/
def bandCentre (s : State) (n band : Nat) : Option Nat :=
  let w := leNat (s.sramRead ((17 + 4 * n) * 512 + 4 * band) 4)
  if s.on (lomR n) LOM_STATUS_BV && w / 2 ^ 24 % 2 = 1 then some (w % 2 ^ 24) else none

/-- The band table entry that `LOM_BIDX` names is latched (R360). -/
def latchBand (s : State) (n : Nat) : State :=
  if !(s.loomSt n).latch then s else
  let v := s.bandCentre n (s.get (lomR n) LOM_BIDX_BIDX)
  let s := (s.put (lomR n) LOM_BTAB_F (v.getD 0)).putB (lomR n) LOM_BTAB_VALID v.isSome
  s.setLoom n (fun l => { l with latch := false })

/-- The glide test of R346 against a new N × FC. -/
def glideOk (s : State) (n new : Nat) : Bool :=
  let cur := s.loomTarget n
  let b := s.get (lomR n) LOM_STATUS_BAND
  s.get (lomR n) LOM_CFG_GLIDE != 0 && natDist new cur * 1000 ≤ cur &&
  ([b - 1, b, b + 1].any (fun k => k ≤ 511 && match s.bandCentre n k with
    | some c => natDist new (c * 65536000) * 2000 ≤ c * 65536000 * 3
    | none => false))

/-- FC changes under a glide: the oscillator's phase goes on without a jump. -/
def setFc (s : State) (n fc : Nat) : State :=
  let old := s.loomNom n
  let l := s.loomSt n
  let ph := s.oscS 0 + s.outPhase n - s.slewLeft n
  let new := (l.n : Rat) * fc / 65536 / l.pdiv
  (s.setLoom n (fun l => { l with fc := fc, ofs := if new = 0 then 0 else ph - (ph - l.ofs) * old / new })).showFc n

/-- One step of a glide (R347): STATE 3 from the first, 2 at the last. -/
def glideStep (s : State) (n : Nat) : State :=
  match (s.loomSt n).glide with
  | none => s
  | some (f, t, steps, k, last) =>
    if s.prism.tick ≤ last then s else
    let k := k + 1
    let fc := (Config.quant ((f : Rat) + ((t : Rat) - f) * k / steps)).toNat
    let tick := s.prism.tick
    let s := s.setFc n fc
    if steps ≤ k then (s.setLoom n (fun l => { l with glide := none })).loomSetState n 2 3
    else (s.setLoom n (fun l => { l with glide := some (f, t, steps, k, tick) })).loomSetState n 3 3

/-- EN takes effect at a boundary (R334, R335). -/
def loomEnable (s : State) (n : Nat) : State :=
  let en := s.on (lomR n) LOM_CFG_EN && 6 ≤ s.mode
  let was := (s.loomSt n).on
  if en && !was then ((s.setLoom n (fun l => { l with on := true })).search n 4 true)
  else if !en && was then
    let s := s.loomPolicy n
    let s := s.setLoom n (fun l => { l with on := false, search := none, glide := none, slew := none, startNext := false, ofs := 0 })
    let s := (s.putB (lomR n) LOM_STATUS_SLEW false).put (lomR n) LOM_STATUS_FINE 0
    s.loomSetState n 0 4
  else s

/-- What the settings registers hold against what is in effect, classed at a boundary (R345). Where the Loom relocks, its
outputs take their policy on the settings they ran on (R350); a glide that another change ends leaves its last FC as the
setting (log entry 64). -/
def loomChange (s : State) (n : Nat) (relock : Bool) : State :=
  let s := if !s.on (lomR n) LOM_CFG_EN then s.loomEnable n else s
  let l := s.loomSt n
  let nn := s.get (lomR n) LOM_N_N
  let pd := s.get (lomR n) LOM_CFG_PDIV
  let ch := s.get (lomR n) LOM_CFG_CHAN
  let fc := s.fcReg n
  let fcCh := l.fcNext.isSome && fc != l.fc
  let s := s.setLoom n (fun l => { l with fcNext := none })
  let st := s.loomState n
  let take := fun (s : State) =>
    let s := if l.on then s.loomPolicy n else s
    (s.setLoom n (fun l => { l with n := nn, pdiv := pd, chan := ch, fc := fc, glide := none })).showFc n
  let s := if !l.on then take s
    else if relock || l.n != nn || l.pdiv != pd || l.chan != ch then (take s).search n 3 true
    else if !fcCh then (if l.fcNext.isSome && l.glide.isSome then (s.setLoom n (fun l => { l with glide := none })).loomSetState n 2 3 else s)
    else if st = 1 then (take s).search n 3 false
    else if st = 4 || st = 5 then (take s).search n 3 true
    else if s.glideOk n (l.n * fc) then
      let g := s.get (lomR n) LOM_CFG_GLIDE
      (s.setLoom n (fun l => { l with glide := some (l.fc, fc, g, 0, 0) })).glideStep n
    else (take s).search n 3 true
  s.limitLoom n

/-- A discontinuity of the driving channel's phase reaches the comb (R333). -/
def combJump (s : State) (n : Nat) (j : Rat) : State :=
  let l := s.loomSt n
  if !l.on || j = 0 || l.fc = 0 then s else
  let t := (65536 : Rat) / l.fc
  let tot := j + s.slewLeft n
  -- into (−T/2, T/2]
  let k := (tot / t - 1 / 2).ceil
  let r := tot - k * t
  let tick := s.prism.tick
  let s := s.setLoom n (fun l => { l with ofs := l.ofs + k * t, slew := if r = 0 then none else some (r, tick) })
  let s := (s.putB (lomR n) LOM_STATUS_PSTEP true).putB (lomR n) LOM_STATUS_SLEW (r != 0)
  (s.outsOf n).foldl (fun s o => s.putB (outR o) OUT_STATUS_PLOST true) s

def combJumps (s : State) : State :=
  let s := (List.range s.nLom).foldl (fun s n => s.combJump n (s.chan (s.loomSt n).chan).jump) s
  { s with mil := s.mil.map (fun (x : Chan) => { x with jump := 0 }) }

/-- The comb slew is over (R333). -/
def slewDone (s : State) (n : Nat) : Bool := (s.loomSt n).slew.isSome && s.slewLeft n = 0

def slewEnd (s : State) (n : Nat) : State :=
  if s.slewDone n then
    (s.setLoom n (fun l => { l with slew := none })).putB (lomR n) LOM_STATUS_SLEW false
  else s

/-- The boundary's Loom work: loss under AUTO starts a search, EN and settings take effect, latches are served. -/
def loomBoundary (s : State) (n : Nat) : State :=
  let s := if (s.loomSt n).startNext && (s.loomSt n).on then s.search n 0 true else s
  ((s.loomChange n false).loomEnable n).latchBand n

/-- `LOM_MEAS.FREQ` over the tick (R360): under injection the harmonic of the comb, with what the comb slewed in the tick, to the
nearest kHz; in UNLOCKED and FAIL the free-running frequency is a free value (log entry 64). A search leaves its own
measurements. -/
def measureTick (s : State) (n : Nat) : State :=
  let l := s.loomSt n
  if s.injected n then
    let y : Rat := ofWord (s.chan l.chan).out + (s.slewLeftAt n 0 - s.slewLeftAt n (1 / 32000)) * 32000
    s.put (lomR n) LOM_MEAS_FREQ (Config.quant ((s.loomTarget n : Rat) / 65536000 * (1 + y))).toNat
  else if s.loomState n = 4 || s.loomState n = 5 then let (v, s) := s.fresh 24; s.put (lomR n) LOM_MEAS_FREQ v
  else s

/-- Steps of Looms, bridges and outputs that the ended tick still owes. -/
def loomDue (s : State) : State :=
  let s := (List.range s.nLom).foldl (fun s n =>
    let s := if s.lockAtDue n then s.loomLock n else s
    let s := (s.attemptFail n).glideStep n
    (s.measureTick n).slewEnd n) s
  let s := (List.range ((s.nOut + 7) / 8)).foldl bridgeReadyStep s
  let s := (List.range s.nOut).foldl (fun s o =>
    let s := if s.firstDue o s.tickLeftUnits then s.firstEdge o else s
    if s.fineDue o (s.oscS s.tickLeftUnits) then s.fineEnd o else s) s
  (List.range 8).foldl sgEnd s

/-- The resets of a boundary, after its other changes: a lock that the boundary brings counts (R375). -/
def groupResets (s : State) : State :=
  if s.tcd.sgDue.isEmpty then s else
  ((List.range s.nLom).foldl (fun s n => if s.lockAtDue n then s.loomLock n else s) s).sgResets

/-- LOOM_TUNE at its boundary (R356): `false` where the result breaks R329. -/
def loomTune (s : State) (n : Nat) (pl : List Byte) : State × Bool :=
  let m := leAt pl 11 1
  let sel := fun (b : Nat) => m / 2 ^ b % 2 = 1
  let fc := if sel 0 then leAt pl 0 6 else s.fcReg n
  let nn := if sel 1 then leAt pl 6 1 else s.get (lomR n) LOM_N_N
  if !targetOk (nn * fc) then (s, false) else
  let s := if sel 0 then s.setLoom n (fun l => { l with fcNext := some fc }) else s
  let s := if sel 1 then s.put (lomR n) LOM_N_N nn else s
  let s := if sel 2 then s.put (lomR n) LOM_CFG_CHAN (leAt pl 7 1) else s
  let s := if sel 3 then s.put (lomR n) LOM_CFG_PDIV (leAt pl 8 1) else s
  let s := if sel 4 then s.put (lomR n) LOM_CFG_GLIDE (leAt pl 9 1) else s
  (s.loomChange n (leAt pl 10 1 = 1), true)

/-- LOOM_RELOCK (R357), on EN as it stands at the boundary. -/
def loomRelock (s : State) (n : Nat) : State × Bool :=
  if !s.on (lomR n) LOM_CFG_EN then (s, false) else
  let s := s.loomEnable n
  if s.loomState n = 1 then (s, true) else (s.search n 3 true, true)

end State

end Sys2Proof.Machine
end

