-- ==== Sys2Proof/Machine/Tcd.lean ====
section
/-! DEFINITION. The 1PPS and timecode generators (R381–R392, R396, R681). -/

namespace Sys2Proof.Machine

namespace State

/-! ## 1PPS -/

/-- The generator's settings: in ember mode, and until firmware has loaded an image, the keeper copies (R392, R681). -/
def ppsOn (s : State) : Bool :=
  if 6 ≤ s.mode then s.on tcdR TCD_PPS_CFG_EN || s.tcd.ember
  else s.hearth.kPps && (s.mode = 1 || s.tcd.ember)

/-- The output that carries the ember 1PPS whatever its own settings (R323, R392): through M1, and on until M6 loads the
outputs, the pulse in progress there being completed. Every other output is unpowered in M1. -/
def emberOut (s : State) : Option Nat :=
  if (s.tcd.ember && s.hearth.kPps) || Option.any (fun (p : Int) => s.prism.now < p) s.tcd.tail then
    some (bitsOf (s.cap 3) GLB_CAP3_EMB_OUT.lo GLB_CAP3_EMB_OUT.width) else none

/-- That output is high at a time of the timebase, in 2 ps units. -/
def emberHigh (s : State) (t : Int) : Bool :=
  s.emberOut.isSome && Option.any (fun (p : Int) => p - s.tcd.kWidth * 5000000 ≤ t && t < p)
    (if s.tcd.ember then s.tcd.pulseEnd else s.tcd.tail)

/-- The generator goes by the keeper copies (R392, R681). -/
def ppsKept (s : State) : Bool := s.mode < 6 || (s.tcd.ember && s.hearth.kPps)

/-- The edge of a second that falls in the current tick, as (second, LTC nanoseconds since 0) (R381). -/
def ppsEdgeAt (s : State) : Option (Int × Int) :=
  let off := if s.ppsKept then s.tcd.kOff else s.tcd.off
  let l : Int := s.ltc.sec * 1000000000 + s.ltc.ns
  let q := (l - off + 999999999) / 1000000000
  let e := q * 1000000000 + off
  let stop := l - l % 31250 + 31250
  if l ≤ e && e < stop then some (q, e) else none

/-- An edge is due in this tick and has not been made. -/
def ppsDue (s : State) : Bool :=
  s.ppsOn && match s.ppsEdgeAt with | some (q, _) => s.tcd.last != some q | none => false

/-- The rising edge (R381, R383): not made less than WIDTH after the end of the previous pulse. -/
def ppsEdge (s : State) : State :=
  if !s.ppsDue then s else
  match s.ppsEdgeAt with
  | none => s
  | some (q, e) =>
    let l : Int := s.ltc.sec * 1000000000 + s.ltc.ns
    let t : Int := s.prism.now + Config.quant (((e - l : Int) : Rat) * 500 / (1 + s.ltc.inc))
    let w : Int := (if s.ppsKept then s.tcd.kWidth else s.tcd.width) * 5000000
    let s := s.setTcd (fun x => { x with last := some q })
    let blocked : Bool := match s.tcd.pulseEnd with | some p => t < p + w | none => false
    if blocked then s else
    let s := s.setTcd (fun x => { x with pulseEnd := some (t + w) })
    (List.range s.nOut).foldl (fun s o => if s.outSrc o = 9 && s.outState o = 5 then s.firstEdge o else s) s

/-! ## Timecode -/

/-- Half hours of local time less UTC (R387, R388). -/
def tcOffset (cfg : Nat) : Int :=
  let h : Int := 2 * bitsOf cfg 10 4 + bitsOf cfg 15 1
  if bitsOf cfg 14 1 = 1 then -h else h

/-- QUAL is latched for the on-time edge that may be made at the boundary (R389). -/
def latchTq (s : State) : State := s.setTcd (fun x => { x with q := (s.get ltcR LTC_STATUS_STATE, s.qualExp) })

/-- The time-quality code (R389), of QUAL at the boundary that began the tick. -/
def tcQuality (s : State) (ts : Nat) : Nat :=
  let e := s.tcd.q.2
  let st := s.tcd.q.1
  if s.mode = 13 || st = 0 || e = 31 || (ts < 2 && !s.utcOn LTC_UTCOFF_VALID) then 15
  else if st = 3 && e = 0 then 0
  else match ([1, 2, 3, 4, 5, 6, 7, 8, 9, 10, 11].find? (fun c => 2 ^ e < 10 ^ (c - 1))) with
    | some c => c
    | none => 15

/-- A frame is due: the tick starts at an LTC second (R385). -/
def frameDue (s : State) : Bool :=
  6 ≤ s.mode && bitsOf s.tcd.tc 0 1 = 1 && s.ltc.ns = 0 && s.tcd.frameSec != some s.ltc.sec

/-- The frame of an LTC second (R385–R390). -/
def frame (s : State) : State :=
  if !s.frameDue then s else
  let cfg := s.tcd.tc
  let code := bitsOf cfg 1 3
  let ts := bitsOf cfg 5 2
  let off := signed (s.utcOf LTC_UTCOFF_OFFSET) 16
  let ins : Bool := s.utcOn LTC_UTCOFF_LEAP_INS && ts < 2
  let utc : Int := (s.ltc.sec : Int) - (if ts = 2 then 0 else off) - ins.toNat
  let loc : Int := utc + (if ts = 1 then tcOffset cfg * 1800 else 0)
  let t := loc.toNat
  let sod := t % 86400
  let (year, doy) := yearOfDays (t / 86400)
  let ctl := code = 0 || code = 1 || code = 4 || code = 5
  let usod := utc.toNat % 86400
  let pend : Bool := ts != 2 && (s.utcOn LTC_UTCOFF_LEAP61 || s.utcOn LTC_UTCOFF_LEAP59) && 86340 ≤ usod && !ins
  let ext : Bool := ctl && bitsOf cfg 7 1 = 1
  let tq := s.tcQuality ts
  let lsp : Bool := ext && pend
  let f : FrameOut :=
    { manchester := bitsOf cfg 4 1 = 1
      sec := sod % 60 + ins.toNat, min := sod / 60 % 60, hour := sod / 3600, doy := doy
      year := if 4 ≤ code then some year else none
      sbs := if code = 0 || code = 3 || code = 4 || code = 7 then some (sod + ins.toNat) else none
      ctl := if ext then some { year := year, lsp := lsp, lss := s.utcOn LTC_UTCOFF_LEAP59, dsp := bitsOf cfg 9 1 = 1, dst := bitsOf cfg 8 1 = 1, offset := tcOffset cfg, tq := tq } else none }
  let sec := s.ltc.sec
  let s := s.setTcd (fun x => { x with frameSec := some sec, frame := some f, cut := false })
  let s := ((s.put tcdR TCD_TC_STATUS_TQ tq).putB tcdR TCD_TC_STATUS_LSP lsp).putB tcdR TCD_TC_STATUS_RUN true
  (List.range s.nOut).foldl (fun s o => if s.outSrc o = 10 && s.outState o = 5 then s.firstEdge o else s) s

/-- A forward LTC step cuts the frame in progress (R390). -/
def frameCut (s : State) : State := s.setTcd (fun x => { x with cut := true })

/-! ## Boundary -/

/-- Settings latched at a boundary take effect one tick later (R384, R390): EN = 0 from the next on-time edge, the frame in
progress being completed. -/
def tcdBoundary (s : State) : State :=
  if s.mode < 6 then s else
  let w := s.get tcdR TCD_PPS_CFG_WIDTH
  let o := s.getI tcdR TCD_PPS_OFF_OFF
  let c := (s.reg (tcdR + TCD_TC_CFG_EN.idx)).toNat
  let s := s.setTcd (fun x => { x with width := x.widthN, off := x.offN, tc := x.tcN, widthN := w, offN := o, tcN := c })
  if bitsOf s.tcd.tc 0 1 = 0 && s.ltc.ns = 0 then (s.putB tcdR TCD_TC_STATUS_RUN false).setTcd (fun x => { x with frame := none }) else s

/-- TCD_CTL at its boundary (R396), where the settings are latched at once. -/
def tcdCtl (s : State) (pl : List Byte) : State :=
  let m := leAt pl 12 1
  let s := if m % 2 = 1 then
      let s := s.putWord (tcdR + TCD_TC_CFG_EN.idx) (leAt pl 0 4)
      s.setTcd (fun x => { x with tcN := (s.reg (tcdR + TCD_TC_CFG_EN.idx)).toNat })
    else s
  let s := if m / 2 % 2 = 1 then
      let s := s.putWord (tcdR + TCD_PPS_CFG_WIDTH.idx) (leAt pl 4 4)
      s.setTcd (fun x => { x with widthN := s.get tcdR TCD_PPS_CFG_WIDTH })
    else s
  if m / 4 % 2 = 1 then
    let s := s.putWord (tcdR + TCD_PPS_OFF_OFF.idx) (leAt pl 8 4)
    s.setTcd (fun x => { x with offN := s.getI tcdR TCD_PPS_OFF_OFF })
  else s

end State

end Sys2Proof.Machine
end

