-- ==== Sys2Proof/Machine/Lens.lean ====
section
/-! DEFINITION. Lens: stamping, stream and burst capture, the burst buffer (R399–R430). -/

namespace Sys2Proof.Machine

/-- Nearest integer; which way a tie goes is open (log entry 8). -/
def nearest (r : Rat) : Int :=
  let f := (r + 1 / 2).floor
  if ((f : Rat) = r + 1 / 2) && !Config.roundsUp r then f - 1 else f

/-- An interval in 0.25 ps units before rounding (R412): LTC time in 2⁻³² ns. -/
def quarterPs (d : Int) : Rat := (d : Rat) * 4000 / 2 ^ 32

/-- A stamp with its LSB of 0.25 ps (R403), in 2⁻³² ns. -/
def lensStamp (u : Nat) : Nat := (nearest (quarterPs u)).toNat * 2 ^ 33 / 8000

/-- A stamp as a time record carries it (R90, R403, R406). -/
def lensTime (u : Nat) : Nat × Nat :=
  let v := lensStamp u
  recTime (v / (1000000000 * 2 ^ 32)) (v % (1000000000 * 2 ^ 32))

namespace State

def setLens (s : State) (f : LensSt → LensSt) : State := { s with lens := f s.lens }
def lensIn (s : State) (i : Nat) : LensIn := s.lens.ins.getD i {}
def setLensIn (s : State) (i : Nat) (f : LensIn → LensIn) : State := s.setLens (fun l => { l with ins := l.ins.modify i f })
def unit (s : State) (u : Nat) : BurstSt := s.lens.units.getD u {}
def setUnit (s : State) (u : Nat) (f : BurstSt → BurstSt) : State := s.setLens (fun l => { l with units := l.units.modify u f })

/-- Lens stamps in M7 to M12 (R425), and not while M6 is being entered, when every block counts as disabled (R630). -/
def lensRuns (s : State) : Bool := 7 ≤ s.mode && s.mode ≤ 12 && !s.on pwrR PWR_STATUS_CHG

def unitState (s : State) (u : Nat) : Nat := s.get (bstR u) LNS_BST_STATUS_STATE

/-- A position inside the current tick. -/
def inTick (s : State) (pos : Nat) : Bool := pos < s.tickLeft * 2 ^ 32

/-! ## Bursts -/

def putNstops (s : State) (u : Nat) : State := s.put (bstR u) LNS_BST_STATUS_NSTOPS (s.unit u).got.length

/-- The window closes (R410). -/
def burstClose (s : State) (u endc : Nat) : State :=
  (s.put (bstR u) LNS_BST_STATUS_STATE 3).setUnit u (fun b => { b with endc := endc })

/-- A burst opens: the pre-trigger history gives its first stops (R410, R411). -/
def burstOpen (s : State) (u : Nat) (st : BurstStart) : State :=
  let b := s.unit u
  let pre : Int := b.pre * 2 ^ 32
  let early := b.hist.filter (fun h => h.u - st.u < -pre)
  let got := b.hist.filter (fun h => -pre ≤ h.u - st.u)
  let trunc : Bool := match b.hist with
    | h :: _ => b.hist.length = 64 && -pre ≤ h.u - st.u
    | [] => false
  let s := s.setUnit u (fun b => { b with burst := some st, got := got, hist := [], ooo := early.length, trunc := trunc })
  let s := s.bump (bstR u) LNS_BST_CNT_OOO early.length
  let s := (s.put (bstR u) LNS_BST_STATUS_STATE 2).putNstops u
  if got.length = 64 then s.burstClose u 1 else s

/-- The settings that the unit's registers hold come into force (R408, R430). -/
def burstUse (s : State) (u : Nat) : State :=
  let b := bstR u
  s.setUnit u (fun x => { x with
    start := s.get b LNS_BST_CFG_START, stops := s.get b LNS_BST_CFG_STOPS, win := s.get b LNS_BST_WIN_WIN
    pre := s.get b LNS_BST_PRE_PRE, ring := s.get b LNS_BST_CFG_RING })

/-- The unit is armed at a boundary with an empty history (R410). -/
def burstArm (s : State) (u : Nat) : State :=
  let s := (s.burstUse u).setUnit u (fun b => { b with hist := [], burst := none, got := [], missed := 0, ooo := 0, trunc := false })
  (s.put (bstR u) LNS_BST_STATUS_STATE 1).putB (bstR u) LNS_BST_CTL_ARM true

def burstIdle (s : State) (u : Nat) : State :=
  let s := s.setUnit u (fun b => { b with hist := [], burst := none })
  (s.put (bstR u) LNS_BST_STATUS_STATE 0).putB (bstR u) LNS_BST_CTL_ARM false

/-- LENS_ARM with ACT 1 (R426): a unit that is not IDLE stays as it is. In M6, where nothing is stamped (R425), ARM waits for a
run mode (log entry 38). -/
def armUnit (s : State) (u : Nat) : State :=
  if s.unitState u != 0 then s else if s.lensRuns then s.burstArm u else s.putB (bstR u) LNS_BST_CTL_ARM true

/-- A disarm at a boundary (R410): no effect on an IDLE unit (R426). An OPEN unit ends IDLE, whatever AUTO says (log entry 38). -/
def burstDisarm (s : State) (u : Nat) : State :=
  match s.unitState u with
  | 2 => (s.putB (bstR u) LNS_BST_CTL_ARM false).burstClose u 2
  | 1 => s.burstIdle u
  | 0 => s
  | _ => s.putB (bstR u) LNS_BST_CTL_ARM false

/-- The window has run past its end (R410); an edge at the end itself still belongs to it (R411). -/
def burstOver (s : State) (u : Nat) (t : Int) : Bool :=
  match (s.unit u).burst with
  | some st => s.unitState u = 2 && Decidable.decide ((s.unit u).win * 2 ^ 32 < t - st.u)
  | none => false

/-- A qualifying edge reaches a unit (R409–R411). -/
def burstEdge (s : State) (u i : Nat) (rising : Bool) (pos : Nat) : State :=
  let t : Int := (s.ltcRaw pos : Int) - s.ltc.stepped
  let s := if s.burstOver u t then s.burstClose u 0 else s
  let b := s.unit u
  let st := s.unitState u
  let isStart : Bool := st = 1 && i = b.start
  let isStop : Bool := b.stops / 2 ^ i % 2 = 1
  if (st != 1 && st != 2) || !(isStart || isStop) then s else
  let near : Bool := b.last.any (fun (e : Nat × Int) => e.1 == i && Decidable.decide ((t - e.2) * 10 < 12 * 2 ^ 32))
  if near then (s.setUnit u (fun b => { b with missed := min 65535 (b.missed + 1) })).bump (bstR u) LNS_BST_CNT_MISSED
  else
    let s := s.setUnit u (fun b => { b with last := (i, t) :: b.last.filter (fun e => e.1 != i) })
    if isStart then
      let (sec, ns16) := lensTime (s.ltcRaw pos)
      s.burstOpen u { input := i, edge := if rising then 0 else 1, sec := sec, ns16 := ns16, qual := s.qual, u := t }
    else
      let x : Stop := { input := i, rising := rising, u := t }
      if st = 1 then s.setUnit u (fun b => { b with hist := (b.hist ++ [x]).drop (b.hist.length - 63) })
      else
        let s := (s.setUnit u (fun b => { b with got := b.got ++ [x] })).putNstops u
        if (s.unit u).got.length = 64 then s.burstClose u 1 else s

/-- A software start at the boundary (R426); none in M6 (R425, log entry 38). -/
def burstSoft (s : State) (u : Nat) : State × Bool :=
  let st := s.unitState u
  if 2 ≤ st then (s, false) else
  if !s.lensRuns then (s, true) else
  let s := if st = 0 then s.burstArm u else s
  let (sec, ns16) := recTime s.ltc.sec (s.ltc.ns * 2 ^ 32 + s.ltc.frac)
  (s.burstOpen u { input := 0, edge := 2, sec := sec, ns16 := ns16, qual := s.qual, u := (s.ltcRaw 0 : Int) - s.ltc.stepped }, true)

/-! ## LENS_EDGE -/

/-- The signal's passing a level switches the comparator: high as it rises through THR, low as it falls through THR − H
(R400). The levels are those in force since the last boundary (R402). -/
def switches (s : State) (i : Nat) (x : Crossing) : Bool :=
  let t := signed (s.lensIn i).thr 12
  if x.rising then !s.on (lniR i) LNS_IN_STATUS_LVL && x.mv = t
  else s.on (lniR i) LNS_IN_STATUS_LVL && x.mv = t - (s.lensIn i).hys

/-- An edge of the comparator at `pos` in the current tick (R401, R405–R407). -/
def lensEdge (s : State) (i : Nat) (rising : Bool) (pos : Nat) : State :=
  let s := s.putB (lniR i) LNS_IN_STATUS_LVL rising
  let sl := s.get (lniR i) LNS_IN_CFG_SLOPE
  if !s.lensRuns || !s.on (lniR i) LNS_IN_CFG_EN || (sl = 0 && !rising) || (sl = 1 && rising) then s else
  let t : Int := (s.ltcRaw pos : Int) - s.ltc.stepped
  let near : Bool := match (s.lensIn i).last with | some l => t - l < 2 * 2 ^ 32 | none => false
  let s := if near then s.bump (lniR i) LNS_MISS_COUNT else
    let s := s.setLensIn i (fun x => { x with last := some t })
    let raw := lensStamp (s.ltcRaw pos)
    let s := { s with tally := { s.tally with stamps := s.tally.stamps ++ [(i, raw)] } }
    if !s.on (lniR i) LNS_IN_CFG_STREAM then s else
      let (seq, s) := s.nextSeq (0x40 + i)
      let (sec, ns16) := lensTime (s.ltcRaw pos)
      let r := timeRec sec ns16 (0x40 + i) (if rising then 0 else 1) 0 s.qual seq
      let ring := (s.lensIn i).ring
      s.setLens (fun l => { l with stream := l.stream ++ [(i, ring, r)] })
  (s.burstEdge 0 i rising pos).burstEdge 1 i rising pos

/-- LENS_EDGE (R400). -/
def lensCross (s : State) (i : Nat) (x : Crossing) (pos : Nat) : State :=
  if s.nLns ≤ i || !s.inTick pos || !s.switches i x then s else s.lensEdge i x.rising pos

/-! ## The burst buffer -/

/-- What the burst buffer holds (R421). -/
def bufSize : Nat := 524288

def syncFill (s : State) : State :=
  let n := s.lens.buf.length
  (s.put lnsR LNS_BUF_STATUS_FILL n).peak lnsR LNS_BUF_PEAK_PEAK n

/-- A gap marker (R418). -/
def gapMarker (l : Loss) : Nat :=
  l.tn % 2 ^ 64 * 2 ^ 64 + min l.n (2 ^ 30 - 1) * 2 ^ 34 + 0xF3 * 2 ^ 26 + l.cause * 2 ^ 24

/-- Records offered to a capture ring together (R421, R423, R424); whether they were accepted. -/
def capAccept (s : State) (ring tn : Nat) (recs : List Nat) : State × Bool :=
  let b := dringR ring
  if s.dataHalted then (s, false) else
  if !s.ringOn b then (s.bump b GLB_RING_DROP_COUNT recs.length, false) else
  let gap := assocD (none : Option Loss) (s.lens.lost.map (fun e => (e.1, some e.2))) ring
  let all := (match gap with | some l => [gapMarker l] | none => []) ++ recs
  let claim := (s.ringSt b).reserved
  let ringFull : Bool := s.ringSize b < s.ringFill b + claim + all.length
  let bufFull : Bool := bufSize < s.lens.buf.length + all.length
  if !ringFull && !bufFull then
    let s := s.setRing b (fun r => { r with reserved := claim + all.length })
    let s := s.setLens (fun l => { l with
      buf := l.buf ++ all.map (fun r => (ring, r)), lost := l.lost.filter (fun e => e.1 != ring) })
    (s.syncFill, true)
  else
    let n := recs.length
    let s := s.bump b GLB_RING_DROP_COUNT n
    let s := if ringFull then s else s.bump lnsR LNS_BUF_DROP_COUNT n
    match gap with
    | some l => (s.setLens (fun x => { x with lost := (ring, { l with n := l.n + n }) :: x.lost.filter (fun e => e.1 != ring) }), false)
    | none =>
      let s := s.raise 119 ring 0
      (s.setLens (fun x => { x with lost := (ring, ⟨tn, n, if ringFull then 0 else 1⟩) :: x.lost }), false)

/-- The group of a burst (R415–R417, R420). -/
def groupRecords (b : BurstSt) (st : BurstStart) (u bnum : Nat) : List Nat :=
  let stops := b.got.mergeSort (fun x y => x.u < y.u || (x.u = y.u && x.input ≤ y.input))
  let low := fun (ty edge input : Nat) => ty * 2 ^ 26 + edge * 2 ^ 24 + input * 2 ^ 13 + u * 2 ^ 12 + bnum % 4096
  let head := st.sec % 2 ^ 48 * 2 ^ 80 + (st.ns16 / 2 ^ 16 % 2 ^ 30) * 2 ^ 50 + (st.ns16 % 2 ^ 16) * 2 ^ 34 +
    low 0xF0 st.edge st.input + st.qual * 2 ^ 16
  let mid := stops.zipIdx.map (fun (x, k) =>
    let q := quarterPs (x.u - st.u)
    let coinc : Bool := ratAbs q < 1
    let v := if coinc then 0 else unsigned (nearest q) 64
    v * 2 ^ 64 + k * 2 ^ 34 + low 0xF1 (if x.rising then 0 else 1) x.input + coinc.toNat * 2 ^ 22 +
      (if !coinc && q < 0 then 2 ^ 21 else 0))
  let tail := b.ooo * 2 ^ 64 + b.missed * 2 ^ 48 + stops.length * 2 ^ 34 + low 0xF2 b.endc st.input + b.trunc.toNat * 2 ^ 16
  head :: mid ++ [tail]

/-- A closed burst's group is entered for its ring, with EV125 (R410, R422, R428). -/
def groupEnter (s : State) (u tn : Nat) : State :=
  let b := s.unit u
  match b.burst with
  | none => s
  | some st =>
    let bnum := s.get (bstR u) LNS_BST_STATUS_BNUM
    let (s, ok) := s.capAccept b.ring tn (groupRecords b st u bnum)
    let lost : Bool := !ok && s.ringOn (dringR b.ring)
    let s := if lost then s.bump (bstR u) LNS_BST_LOST_GROUPS else s
    let s := s.put (bstR u) LNS_BST_STATUS_BNUM ((bnum + 1) % 4096)
    s.raise 125 (if st.edge = 2 then 8 else st.input)
      (bnum + 4096 * u + b.got.length * 2 ^ 13 + b.endc * 2 ^ 20 + lost.toNat * 2 ^ 22)

/-- The windows that end within the running tick (R410). -/
def windowsOver (s : State) : State :=
  [0, 1].foldl (fun s u => if s.burstOver u ((s.ltcRaw s.tickRest : Int) - s.ltc.stepped) then s.burstClose u 0 else s) s

/-- Bursts that closed in the ended tick, and what the unit does then (R410). -/
def burstBoundary (s : State) (u tn : Nat) : State :=
  if s.unitState u != 3 then s else
  let s := s.groupEnter u tn
  if s.on (bstR u) LNS_BST_CFG_AUTO && s.on (bstR u) LNS_BST_CTL_ARM then s.burstArm u else s.burstIdle u

/-- Stamping ends with a run mode (R425): open bursts close and their groups are entered. -/
def lensStop (s : State) (tn : Nat) : State :=
  [0, 1].foldl (fun s u =>
    let s := if s.unitState u = 2 then s.burstClose u 3 else s
    let s := if s.unitState u = 3 then s.groupEnter u tn else s
    s.burstIdle u) s

/-- The mode that the boundary brings (R425): `old` is the mode of the ended tick. An entry to M6 has stopped Lens at its apply
boundary (R630, DEDUCED, log entry 38). M13 discards what is buffered, from whatever mode it is entered. -/
def lensMode (s : State) (old tn : Nat) : State :=
  if s.mode = 13 then
    let s := (s.burstIdle 0).burstIdle 1
    let s := s.lens.buf.foldl (fun s e => s.setRing (dringR (e.1 % 16)) (fun r => { r with reserved := 0 })) s
    (s.setLens (fun l => { l with buf := [], stream := [], marks := [] })).syncFill
  else if 7 ≤ old && old ≤ 12 && !(7 ≤ s.mode && s.mode ≤ 12) && !s.on pwrR PWR_STATUS_CHG then s.lensStop tn
  else s

/-- Arm bits against unit states, and settings that come into force (R402, R410, R429, R430): those of a unit whose ARM is 0
from the boundary at which it stops. -/
def lensFollow (s : State) : State :=
  let s := [0, 1].foldl (fun s u =>
    let arm := s.on (bstR u) LNS_BST_CTL_ARM
    let st := s.unitState u
    let s := if arm then s else s.burstUse u
    if arm && st = 0 && s.lensRuns then s.burstArm u
    else if !arm && (st = 1 || st = 2) then s.burstDisarm u
    else s) s
  (List.range s.nLns).foldl (fun s i =>
    let t := s.get (lniR i) LNS_THR_THR
    let h := s.get (lniR i) LNS_THR_HYS
    let r := s.get (lniR i) LNS_IN_CFG_RING
    s.setLensIn i (fun x => { x with thr := t, hys := h, ring := r })) s

/-- Records of disabled rings leave the buffer (R424), and those of a ring disabled and enabled again in the tick. -/
def bufDiscard (s : State) : State :=
  let goes := fun (e : Nat × Nat) => 16 ≤ e.1 || !s.ringOn (dringR e.1)
  let gone := s.lens.buf.filter goes
  if gone.isEmpty then s else
  let t := gone.foldl (fun t e =>
    let t := t.bump (dringR (e.1 % 16)) GLB_RING_DROP_COUNT
    if e.1 < 16 then t.setRing (dringR e.1) (fun r => { r with reserved := r.reserved - 1 }) else t) s
  (t.setLens (fun l => { l with buf := l.buf.filter (fun e => !goes e) })).syncFill

/-- Markers and stream records enter the buffer after the groups (R422); `tn` is the ended tick. -/
def lensAccept (s : State) (tn : Nat) : State :=
  let marks := s.lens.marks
  let stream := s.lens.stream
  let s := s.setLens (fun l => { l with marks := [], stream := [], drained := 0 })
  let s := marks.foldl (fun s m => (s.capAccept m.1 s.tn [m.2]).1) s
  (List.range 8).foldl (fun s i =>
    (stream.filter (fun e => e.1 == i)).foldl (fun s e => (s.capAccept e.2.1 tn [e.2.2]).1) s) s

/-- The buffer writes the oldest record it holds for a ring to host memory (R422). -/
def drainRing (s : State) (ring : Nat) : State :=
  match s.lens.buf.find? (fun e => e.1 == ring) with
  | none => s
  | some (_, r) =>
    let b := dringR ring
    let rest := s.lens.buf.eraseP (fun e => e.1 == ring)
    let s := s.setLens (fun l => { l with buf := rest, drained := l.drained + 1 })
    let s := s.setRing b (fun x => { x with reserved := x.reserved - 1 })
    let s := if !s.ringLive b then s.bump b GLB_RING_DROP_COUNT else s.ringPut b 16 (leBytes 16 r)
    s.put lnsR LNS_BUF_STATUS_FILL rest.length

/-- Records a tick can drain: 1.2 × 10⁹ per second, 1.0 × 10⁹ on the GSY-8706 (R422). -/
def drainMax (s : State) : Nat := match s.variant with | .gsy8706 => 31250 | _ => 37500

/-- The buffer writes records to host memory (R112, R422). -/
def drains (s : State) : Bool := !s.lens.buf.isEmpty && s.lens.drained < s.drainMax && !s.dataHalted

/-- A host marker (R419, R427). -/
def capMark (s : State) (ring value : Nat) : State × Bool :=
  if !s.ringOn (dringR ring) then (s, false) else
  let r := s.tn % 2 ^ 64 * 2 ^ 64 + 0xF4 * 2 ^ 26 + value % 2 ^ 16
  (s.setLens (fun l => { l with marks := l.marks ++ [(ring, r)] }), true)

end State

end Sys2Proof.Machine
end

