-- ==== Sys2Proof/Machine/Tally.lean ====
section
/-! DEFINITION. Tally: measurements, statistics records and the mains sentinel (R431–R456). -/

namespace Sys2Proof.Machine

/-- Units of time and value: LTC time in 2⁻³² ns, values in 2⁻¹⁶ ns. -/
def nsRaw : Nat := 2 ^ 32

/-- x of a Lens stamp (R431): offset from the nearest multiple of PER in its second, into (−PER/2, PER/2], 2⁻¹⁶ ns. -/
def lensX (raw per : Nat) : Int :=
  let r : Rat := (raw % (1000000000 * nsRaw) : Nat)
  Config.quant (wrapNear ((per * nsRaw : Nat) : Rat) 0 r / 65536)

/-- A value saturated in a signed field of `w` bits, coded. -/
def satS (w : Nat) (v : Int) : Nat := unsigned (clampI (-(2 ^ (w - 1) : Nat)) ((2 ^ (w - 1) : Nat) - 1) v) w

/-- A value saturated in an unsigned field. -/
def satU (w : Nat) (v : Int) : Nat := satN w v.toNat

def sumQ (l : List Rat) : Rat := l.foldl (· + ·) 0

def maxI (l : List Int) : Int := match l with | [] => 0 | x :: r => r.foldl max x
def minI (l : List Int) : Int := match l with | [] => 0 | x :: r => r.foldl min x

/-- RMS of the residuals of a line, in units of the points scaled by 2¹². -/
def rmsRes (pts : List (Rat × Rat)) (a b : Rat) (scale : Rat) : Int :=
  let n : Rat := pts.length
  if n = 0 then 0 else
  quantSqrt (sumQ (pts.map (fun p => let d := (p.2 - b - a * p.1) * scale; d * d)) / n)

/-- Mean, standard deviation, minimum, maximum (R440) as the two VALUES of a STAT window (R444). -/
def statValues (xs : List Int) : List Nat :=
  let n : Rat := xs.length
  let q : List Rat := xs.map (fun (x : Int) => (x : Rat))
  let mean := if n = 0 then 0 else sumQ q / n
  let var := if n = 0 then 0 else sumQ (q.map (fun x => (x - mean) * (x - mean))) / n
  -- SD in 2⁻¹² ns: one sixteenth of the unit
  let sd := quantSqrt (var / 256)
  [satS 64 (Config.quant mean) + satU 32 sd * 2 ^ 64, satS 48 (minI xs) + satS 48 (maxI xs) * 2 ^ 48]

/-- The two VALUES of a FREQ window (R441, R444). -/
def freqValues (srck per : Nat) (ss : List (Nat × Int)) : List Nat :=
  match ss with
  | [] => [0, 0]
  | (u0, _) :: _ =>
    if ss.length < 2 then [ss.length * 2 ^ 64, 0] else
    let cnt := satU 32 ss.length * 2 ^ 64
    if srck = 0 then
      let perR : Rat := ((per * nsRaw : Nat) : Rat)
      let pts := ss.map (fun e => ((nearest (((e.1 : Rat) - u0) / perR) : Rat), (e.1 : Rat) - u0))
      let (b, a) := lsq pts
      if b = 0 then [cnt, satU 32 (rmsRes pts b a (1 / 1048576)) * 2 ^ 64] else
      let y := perR / b - 1
      let f := 1000000000 * nsRaw / b
      [satS 64 (Config.quant (y * 2 ^ 64)) + cnt,
        satU 64 (Config.quant (f * 2 ^ 32)) + satU 32 (rmsRes pts b a (1 / 1048576)) * 2 ^ 64]
    else
      let pts := ss.map (fun e => ((e.1 : Rat) - u0, (e.2 : Rat) * 65536))
      let (y, a) := lsq pts
      [satS 64 (Config.quant (y * 2 ^ 64)) + cnt, satU 32 (rmsRes pts y a (1 / 1048576)) * 2 ^ 64]

/-- Largest m of a WANDER record (R442). -/
def wanderL (mmax n : Nat) : Nat := ((List.range (mmax + 1)).filter (fun m => 3 * 2 ^ m ≤ n)).foldl max 0

/-- MTIE and TDEV at 2^m slots (R442). -/
def wanderValue (xs : List Int) (m : Nat) : Nat :=
  let k := 2 ^ m
  let n := xs.length
  let at_ := fun (i : Nat) => xs.getD i 0
  let mtie := maxI ((List.range (n - k)).map (fun j =>
    let w := (xs.drop j).take (k + 1)
    maxI w - minI w))
  let sum := sumQ ((List.range (n - 3 * k + 1)).map (fun j =>
    let v : Int := ((List.range k).map (fun d => at_ (j + d + 2 * k) - 2 * at_ (j + d + k) + at_ (j + d))).foldl (· + ·) 0
    ((v * v : Int) : Rat)))
  let tdev := quantSqrt (sum / ((6 * k * k * (n - 3 * k + 1) : Nat) : Rat))
  satU 48 mtie + satU 48 tdev * 2 ^ 48

def wanderValues (mmax : Nat) (xs : List Int) : List Nat := (List.range (wanderL mmax xs.length + 1)).map (wanderValue xs)

namespace State

def setTally (s : State) (f : TallySt → TallySt) : State := { s with tally := f s.tally }
def meas (s : State) (m : Nat) : Meas := s.tally.meas.getD m {}
def setMeas (s : State) (m : Nat) (f : Meas → Meas) : State := s.setTally (fun t => { t with meas := t.meas.modify m f })
def setSen (s : State) (f : SenSt → SenSt) : State := s.setTally (fun t => { t with sen := f t.sen })

def tmState (s : State) (m : Nat) : Nat := s.get (tlyR m) TLY_STATUS_STATE
def tmKind (s : State) (m : Nat) : Nat := s.get (tlyR m) TLY_CFG_KIND

/-! ## Records -/

/-- The bytes of a statistics record (R130). -/
def statBytes (time word v : Nat) : List Byte := leBytes 16 time ++ leBytes 4 word ++ leBytes 12 v

/-- The records of one window go to a statistics ring together or not at all (R446). `flags`: DROPPED 1, DISABLED 2. -/
def statRecords (s : State) (ring src type flags sec ns spec : Nat) (vals : List Nat) : State :=
  if s.dataHalted then s else
  let b := dringR (16 + ring)
  let n := vals.length
  let fits : Bool := s.ringLive b && s.ringFill b + n ≤ s.ringSize b
  let s := if fits then s else s.bump b GLB_RING_DROP_COUNT n
  let s := if !fits && s.ringLive b then s.raise 121 ring 0 else s
  let q := s.qual
  vals.zipIdx.foldl (fun s (v, k) =>
    let (seq, s) := s.nextSeq src
    if !fits then s else
    let t := timeRec sec (ns * 65536) src 3 spec q seq
    (s.ringPut b 32 (statBytes t (type + k * 256 + (n - 1) * 4096 + flags * 65536) v)).charge (s.ringUse b).owner 2 ring 32) s

/-- Records of a measurement, stamped with the boundary that starts tick `tn`. -/
def tmRecords (s : State) (m flags tn spec : Nat) (vals : List Nat) : State :=
  let s := s.statRecords (s.meas m).ring (0x60 + m) (s.tmKind m + 1) flags (tn / 32000) (tn % 32000 * 31250) spec vals
  s.put (tlyR m) TLY_STATUS_SPEC spec

/-! ## Windows -/

/-- Ticks of a gate or slot (R436). -/
def tmSpan (s : State) (m : Nat) : Nat :=
  32 * (if s.tmKind m = 1 then s.get (tlyR m) TLY_GATE_GATE else s.get (tlyR m) TLY_WCFG_TAU0)

/-- A window with no window to run: N or gate of zero (R443). -/
def tmZero (s : State) (m : Nat) : Bool :=
  match s.tmKind m with
  | 0 => s.get (tlyR m) TLY_N_N = 0
  | 1 => s.get (tlyR m) TLY_GATE_GATE = 0
  | _ => s.get (tlyR m) TLY_N_N < 3

def clearWin (m : Meas) : Meas := { m with winAt := none, samples := [], slots := [], seen := 0, spec := false }

/-- The window for the next samples opens: at once for STAT, at the first edge at or after tick `tn` otherwise (R437). -/
def tmNext (s : State) (m tn : Nat) : State :=
  let s := s.setMeas m clearWin
  if s.tmKind m = 0 then (s.setMeas m (fun x => { x with winAt := some tn })).put (tlyR m) TLY_STATUS_STATE 1
  else if tn % s.tmSpan m = 0 then
    (s.setMeas m (fun x => { x with winAt := some tn, slotAt := tn })).put (tlyR m) TLY_STATUS_STATE 1
  else s.put (tlyR m) TLY_STATUS_STATE 3

/-- A measurement starts at the boundary that starts tick `tn` (R437, R443); its samples unwrap anew (R431). -/
def tmStart (s : State) (m : Nat) : State :=
  let s := s.setMeas m (fun x => { x with lastX := none })
  if s.tmZero m then
    let s := (s.setMeas m clearWin).put (tlyR m) TLY_STATUS_STATE 2
    s.tmRecords m 2 s.tn 0 [0]
  else s.tmNext m s.tn

/-- The open window is discarded; it counts once it holds a sample or a gate runs (R438). -/
def tmDiscard (s : State) (m : Nat) : State :=
  let x := s.meas m
  let open_ : Bool := s.tmState m = 1 && (s.tmKind m != 0 || !x.samples.isEmpty)
  let s := if open_ then s.bump (tlyR m) TLY_CNT_DISC else s
  s.setMeas m (fun x => { clearWin x with lastX := none })

/-- The window closes and its records are written (R435, R440–R444); `tn` is the tick its TIME starts. -/
def tmClose (s : State) (m tn : Nat) : State :=
  let x := s.meas m
  let vals := match s.tmKind m with
    | 0 => statValues (x.samples.map (·.2))
    | 1 => freqValues (s.get (tlyR m) TLY_CFG_SRCK) (s.get (tlyR m) TLY_PER_PER) x.samples
    | _ => wanderValues (s.get (tlyR m) TLY_WCFG_MMAX) x.slots
  (s.tmRecords m 0 tn x.spec.toNat vals).bump (tlyR m) TLY_CNT_WIN

/-- One edge of a gate or slot, at tick `e` (R435, R438). -/
def tmEdge (s : State) (m e : Nat) : State :=
  let x := s.meas m
  if s.tmState m = 3 then s.tmNext m e
  else if s.tmKind m = 1 then (s.tmClose m e).tmNext m e
  else
    match x.samples.getLast? with
    | none => (s.bump (tlyR m) TLY_CNT_DISC).tmNext m e
    | some v =>
      let slots := x.slots ++ [v.2]
      let s := s.setMeas m (fun y => { y with slots := slots, slotAt := e, samples := [] })
      if s.get (tlyR m) TLY_N_N ≤ slots.length then (s.tmClose m e).tmNext m e else s

/-- The LTC stood at a tick boundary when the running tick began: a step has not landed inside it, past its edges (R34). -/
def onEdge (s : State) : Bool := s.ltc.ns % 31250 = 0 && s.ltc.frac = 0

/-- The first edge of a gate or slot after the open one's start that has come by tick `tn`. -/
def edgeDue (s : State) (m tn : Nat) : Option Nat :=
  if s.tmKind m = 0 then none else
  let p := s.tmSpan m
  if p = 0 then none else
  match s.tmState m with
  | 1 => let e := (s.meas m).slotAt / p * p + p
         if e ≤ tn then some e else none
  | 3 => if tn % p = 0 && s.onEdge then some tn else none
  | _ => none

/-- One sample is absorbed; a STAT window closes at its N-th, in tick `tn` (R435). -/
def tmSample (s : State) (m tn : Nat) (u : Nat) (x : Int) (spec : Bool) : State :=
  if s.tmState m != 1 then s else
  let keepAll : Bool := s.tmKind m != 2
  let s := s.setMeas m (fun y => { y with
    samples := if keepAll then y.samples ++ [(u, x)] else [(u, x)], spec := y.spec || spec })
  if s.tmKind m = 0 && s.get (tlyR m) TLY_N_N ≤ (s.meas m).samples.length then (s.tmClose m tn).tmNext m tn else s

/-- The stamps of the ended tick that a measurement receives: those of its input, from its window's start on (R437). -/
def tmStamps (s : State) (m : Nat) : List Nat :=
  let from_ := ((s.meas m).winAt.getD 0) * 31250 * nsRaw
  ((s.tally.work.filter (fun e => e.1 == s.get (tlyR m) TLY_CFG_SRC)).map (·.2)).filter (fun u => from_ ≤ u)

/-- One received stamp (R433): every 2^DEC-th of the window is used, 64 in a tick at most; `used` counts them. -/
def tmStamp (s : State) (m tn used u : Nat) : State × Nat :=
  if s.tmState m != 1 then (s, used) else
  let k := (s.meas m).seen + 1
  let s := s.setMeas m (fun y => { y with seen := k })
  if k % 2 ^ s.get (tlyR m) TLY_CFG_DEC != 0 then (s, used)
  else if 64 ≤ used then (s.bump (tlyR m) TLY_SKIP_COUNT, used)
  else (s.tmSample m tn u (lensX u (s.get (tlyR m) TLY_PER_PER)) false, used + 1)

/-- A measurement absorbs the samples of the ended tick during tick `tn` (R437). -/
def tmAbsorb (s : State) (m tn : Nat) : State :=
  if (s.meas m).absorbed then s else
  let s := s.setMeas m (fun y => { y with absorbed := true })
  if s.tmState m != 1 && s.tmState m != 3 then s else
  let srck := s.get (tlyR m) TLY_CFG_SRCK
  let bound := s.ltcRaw 0
  if srck = 0 then
    let s := ((s.tmStamps m).foldl (fun (r : State × Nat) u => r.1.tmStamp m tn r.2 u) (s, 0)).1
    match s.edgeDue m tn with
    | some e => s.tmEdge m e
    | none => s
  else
    let s := match s.edgeDue m tn with
      | some e => s.tmEdge m e
      | none => s
    match (s.meas m).samp with
    | some (x, sp) => s.tmSample m tn bound x sp
    | none => s

/-- The window of measurement `m` closes when it absorbs, by tick `tn`, what the ended tick left it. -/
def tmCloseDue (s : State) (m tn : Nat) : Bool :=
  let x := s.meas m
  !x.absorbed && s.tmState m = 1 &&
  (match s.tmKind m with
   | 0 => s.get (tlyR m) TLY_N_N ≤ x.samples.length +
       (if s.get (tlyR m) TLY_CFG_SRCK = 0 then
         let d := 2 ^ s.get (tlyR m) TLY_CFG_DEC
         min 64 ((x.seen + (s.tmStamps m).length) / d - x.seen / d)
        else if x.samp.isSome then 1 else 0)
   | 1 => (s.edgeDue m tn).isSome
   | _ => (s.edgeDue m tn).isSome && s.get (tlyR m) TLY_N_N ≤ x.slots.length + 1)

/-- Samples of SRCK 1–3 at the boundary that has just come (R431). -/
def tmSampleNow (s : State) (m : Nat) : State :=
  let b := tlyR m
  let c := s.get b TLY_CFG_CHAN
  let x := s.chan c
  let ns16 := fun (r : Rat) => Config.quant (r * 1000000000 * 65536)
  let put := fun (s : State) (v : Option (Int × Bool)) => s.setMeas m (fun y => { y with samp := v })
  match s.get b TLY_CFG_SRCK with
  | 1 =>
    let j := s.get b TLY_CFG_SRC
    match (s.ref j).samp with
    | none => put s none
    | some v =>
      let d := v - s.fb c
      let per := s.refMod j
      let d := match (s.meas m).lastX with | some l => if per = 0 then d else wrapNear per l d | none => d
      (put s (some (Config.quant (d * 65536 / 500), false))).setMeas m (fun y => { y with lastX := some d })
  | 2 => put s (some (ns16 (x.ph + x.exc - s.ltc.ph), x.specN.isSome || x.x != 0))
  | 3 => put s (some (if s.isTimeChan c then 0 else ns16 (x.ph - s.ltc.ph), false))
  | _ => put s none

/-! ## The mains sentinel -/

def senOn (s : State) : Bool := s.on senR TLY_SEN_CFG_EN && s.tallyRuns

def fnom (s : State) : Nat := if s.on senR TLY_SEN_CFG_FNOM then 60 else 50

/-- Half and quadruple nominal periods in LTC units. -/
def senHalf (s : State) : Rat := 1000000000 * (nsRaw : Rat) / (2 * s.fnom)

def setLost (s : State) (v : Bool) : State :=
  if s.tally.sen.lost = v then s else
  let s := s.setSen (fun x => { x with lost := v, lostIn := x.lostIn || v, lostNow := x.lostNow || v })
  let s := if v then s.bump senR TLY_SEN_CNT_LOSTS else s
  s.raise 78 0 v.toNat

/-- A stamp comes too soon after the last used edge (R448). -/
def senGlitch (s : State) (u : Nat) : Bool :=
  Option.any (fun (l : Nat) => Decidable.decide ((u : Rat) - l < s.senHalf)) s.tally.sen.last

/-- Edges of the sentinel's input among stamps. -/
def senStamps (s : State) (l : List (Nat × Nat)) : List Nat := (l.filter (fun e => e.1 == s.get senR TLY_SEN_CFG_IN)).map (·.2)

/-- The LTC time at which LOST is set if no edge is used before (R451). -/
def senLimit (s : State) : Rat := (s.tally.sen.last.getD s.tally.sen.since : Nat) + 8 * s.senHalf

/-- A stamp not yet absorbed that will be a used edge before the limit. -/
def senFresh (s : State) : Bool :=
  (s.senStamps ((if s.tally.sen.absorbed then [] else s.tally.work) ++ s.tally.stamps)).any
    (fun u => !s.senGlitch u && Decidable.decide ((u : Rat) < s.senLimit))

/-- 4/FNOM passes in the running tick with no used edge (R451). -/
def senLostDue (s : State) : Bool :=
  s.senOn && !s.tally.sen.lost && Decidable.decide (s.senLimit < (s.ltcRaw s.tickRest : Rat)) && !s.senFresh

def senLost (s : State) : State := if s.senLostDue then s.setLost true else s

/-- The next gate of the sentinel starts at tick `e`. -/
def senOpen (s : State) (e : Nat) : State :=
  s.setSen (fun x => { x with winAt := some e, edges := [], lostIn := x.lost, lostNow := false })

/-- UF, OF and their events at a valid window (R452). -/
def senLimits (s : State) (f : Nat) : State :=
  let nom := s.fnom * 1000000
  let ud := s.get senR TLY_SEN_LIM0_UDEV * 1000
  let od := s.get senR TLY_SEN_LIM0_ODEV * 1000
  let hy := s.get senR TLY_SEN_LIM1_EHYS * 1000
  let x := s.tally.sen
  let uf : Bool := if f + ud < nom then true else if nom + hy ≤ f + ud then false else x.uf
  let of : Bool := if nom + od < f then true else if f + hy ≤ nom + od then false else x.of
  let data := fun (v : Bool) => v.toNat + 2 * satN 26 f
  let s := if uf = x.uf then s else s.raise 76 0 (data uf)
  let s := if of = x.of then s else s.raise 77 0 (data of)
  s.setSen (fun y => { y with uf := uf, of := of })

/-- The gate that ends at tick `e` closes (R449–R453). -/
def senClose (s : State) (e : Nat) : State :=
  let x := s.tally.sen
  let ts := x.edges.map (fun (u : Nat) => (u : Rat) - (s.getI senR TLY_SEN_DLY_DLY : Rat) * (nsRaw : Rat))
  let sec : Rat := 1000000000 * (nsRaw : Rat)
  let nom : Rat := s.fnom
  let gaps := (ts.zip ts.tail).map (fun p => p.2 - p.1)
  let steady : Bool := !gaps.isEmpty && gaps.all (fun g => Decidable.decide (sec / nom * 3 / 4 ≤ g) && Decidable.decide (g ≤ sec / nom * 5 / 4))
  let valid : Bool := !x.lostIn && !x.lost && 3 ≤ ts.length
  let s := if x.lost && !x.lostNow && steady then s.setLost false else s
  let t0 := ts.headD 0
  let that : Rat := match x.lastF with | some f => if f = 0 then sec / nom else sec * 1000000 / f | none => sec / nom
  let pts := ts.map (fun t => ((nearest ((t - t0) / that) : Rat), t - t0))
  let (b, a) := lsq pts
  let ok := valid && b != 0
  let f : Nat := if ok then (nearest (sec * 1000000 / b)).toNat else 0
  let eT : Rat := ((e * 31250 * nsRaw : Nat) : Rat)
  let c := t0 + a + b * (nearest ((eT - t0 - a) / (if b = 0 then 1 else b)) : Rat)
  let g := (nearest (c * nom / sec) : Rat) * sec / nom
  let ph := wrapNear 1 0 (-((c - g) * nom / sec))
  let phase : Int := if ok then signed (satS 32 (Config.quant (ph * 2 ^ 32))) 32 else 0
  let ms := e / 32
  let freqs := if ok then ((ms, f) :: x.freqs).take (s.get senR TLY_SEN_CFG_ROCN) else []
  let rocv : Bool := ok && freqs.length = s.get senR TLY_SEN_CFG_ROCN
  let roc : Int := if rocv then
      Config.quant ((lsq (freqs.map (fun p => (((p.1 : Rat) - ms) / 1000, (p.2 : Rat))))).1) else 0
  let s := s.setSen (fun y => { y with freqs := freqs, lastF := if ok then some f else y.lastF })
  let s := if ok then s.senLimits f else s
  let y := s.tally.sen
  let flags := ok.toNat + 2 * rocv.toNat + 4 * y.uf.toNat + 8 * y.of.toNat + 16 * y.lost.toNat
  let res := if ts.length < 2 then 0 else satU 32 (rmsRes pts b a (1 / (nsRaw : Rat)))
  let v0 := satN 32 f + satS 32 roc * 2 ^ 32 + unsigned phase 32 * 2 ^ 64
  let v1 := satN 16 ts.length + flags * 2 ^ 16 + res * 2 ^ 32
  let s := s.statRecords y.ring 0xA0 0x10 0 (e / 32000) (e % 32000 * 31250) 0 [v0, v1]
  s.setSen (fun z => { z with pub := some (flags, f, roc, phase) })

/-- One stamp of the sentinel's input: a glitch, or a used edge (R448). -/
def senUse (s : State) (u : Nat) : State :=
  if s.senGlitch u then s.bump senR TLY_SEN_CNT_GLITCH else
  s.setSen (fun x => { x with last := some u, edges := if x.winAt.isSome then x.edges ++ [u] else x.edges })

/-- The sentinel absorbs the ended tick's edges during tick `tn` (R448, R449). -/
def senAbsorb (s : State) (tn : Nat) : State :=
  if s.tally.sen.absorbed then s else
  let s := s.setSen (fun x => { x with absorbed := true })
  if !s.senOn then s else
  let s := (s.senStamps s.tally.work).foldl senUse s
  let p := 32 * s.get senR TLY_SEN_GATE_GATE
  if p = 0 then s else
  match s.tally.sen.winAt with
  | some w => let e := w + p
              if e ≤ tn then (s.senClose e).senOpen e else s
  | none => if tn % p = 0 && s.onEdge then s.senOpen tn else s

/-- The sentinel's gate closes when the ended tick's edges are absorbed. -/
def senCloseDue (s : State) : Bool :=
  !s.tally.sen.absorbed && s.senOn &&
  match s.tally.sen.winAt with
  | some w => w + 32 * s.get senR TLY_SEN_GATE_GATE ≤ s.tn
  | none => false

/-- The open window is discarded without counting, and ROCV starts anew (R455). -/
def senRestart (s : State) : State := s.setSen (fun x => { x with winAt := none, edges := [], freqs := [] })

/-- While the sentinel does not run nothing is used: it starts anew (R451). -/
def senIdle (s : State) : State :=
  let now := s.ltcRaw 0
  (s.senRestart).setSen (fun x => { x with last := none, since := now, lostIn := false, lostNow := false })

/-- EN = 0: LOST stays 0 (R451). -/
def senOff (s : State) : State := (if s.tally.sen.lost then s.setLost false else s).senIdle

/-- EN of a measurement is written 0: its window is discarded at once (R438). -/
def tmOff (s : State) (m : Nat) : State := (s.tmDiscard m).put (tlyR m) TLY_STATUS_STATE 0

/-- Registers follow at the boundary after a close (R453). -/
def senPublish (s : State) : State :=
  match s.tally.sen.pub with
  | none => s
  | some (flags, f, roc, phase) =>
    let s := (s.put senR TLY_SEN_STATUS_FLAGS flags).put senR TLY_SEN_STATUS_WSEQ ((s.get senR TLY_SEN_STATUS_WSEQ + 1) % 256)
    let s := ((s.put senR TLY_SEN_F_F f).put senR TLY_SEN_ROCOF_ROCOF (satS 32 roc)).put senR TLY_SEN_PHASE_PHASE (unsigned phase 32)
    s.setSen (fun x => { x with pub := none })

/-! ## Boundary -/

/-- Whatever a Tally core did not absorb in the ended tick drops its window, if one is open (R64, R439): 64 names the
sentinel, whose next window is not consecutive to those before (R450). The record's TIME is the boundary that ends the overrun
tick. What waits for an edge has no window to drop: its window starts at an edge of the overrun tick all the same, without
what was lost (log entry 38). -/
def tmDrop (s : State) (m : Nat) : State :=
  if m = 64 then
    if s.tally.sen.absorbed || !s.senOn then s else
    if s.tally.sen.winAt.isNone then s.setSen (fun x => { x with absorbed := true }) else
    let s := s.bump glbR GLB_OVR_TLY_WINDROP
    let e := s.tn + 1
    let s := s.statRecords s.tally.sen.ring 0xA0 0x10 1 (e / 32000) (e % 32000 * 31250) 0 [0]
    s.setSen (fun x => { x with absorbed := true, winAt := none, edges := [], freqs := [] })
  else if (s.meas m).absorbed then s
  else if s.tmState m != 1 then
    let s := s.setMeas m (fun y => { y with absorbed := true })
    match s.edgeDue m s.tn with
    | some e => s.tmNext m e
    | none => s
  else
    let s := (s.bump glbR GLB_OVR_TLY_WINDROP).tmRecords m 1 (s.tn + 1) (s.meas m).spec.toNat [0]
    let s := s.setMeas m (fun y => { y with absorbed := true })
    if s.tmKind m = 0 then s.tmNext m s.tn else (s.setMeas m clearWin).put (tlyR m) TLY_STATUS_STATE 3

/-- What the ended tick `tn` still owes: every sample is absorbed (R42, R437). -/
def tallyDue (s : State) : State :=
  if !s.tallyRuns then s else
  let s := (s.senAbsorb s.tn).senLost
  (List.range 64).foldl (fun s m => s.tmAbsorb m s.tn) s

/-- What of the ended tick is not absorbed when a step takes the LTC on from `pre`. -/
def leftStamps (s : State) (absorbed : Bool) (pre : Nat) : List (Nat × Nat) :=
  (if absorbed then [] else s.tally.work) ++ s.tally.stamps.filter (fun e => e.2 < pre)

/-- A window that ends at the boundary of a step, whose tick was `tn`, is not open there: it closes with the stamps of the ended
tick. Every other one is discarded (R438). -/
def tmStepped (s : State) (tn pre m : Nat) : State :=
  if s.tmState m != 1 && s.tmState m != 3 then s else
  let left := s.leftStamps (s.meas m).absorbed pre
  let work := s.tally.work
  let t := (s.setMeas m (fun x => { x with absorbed := false, samp := none })).setTally (fun t => { t with work := left })
  let s := if t.tmCloseDue m tn then ((t.tmAbsorb m tn).setMeas m clearWin).setTally (fun t => { t with work := work })
    else s.tmDiscard m
  if s.tmKind m = 0 || s.onEdge then s.tmNext m s.tn else s.put (tlyR m) TLY_STATUS_STATE 3

/-- The sentinel at the boundary of a step, whose tick was `tn`: a gate that ends there closes, any other is discarded, and the
windows after it are not consecutive to those before (R438, R450). The stamps of the ended tick tell it the last used edge; its
limit does not run in the range skipped. -/
def senStepped (s : State) (tn pre amt : Nat) : State :=
  let left := s.leftStamps s.tally.sen.absorbed pre
  let s := (s.setSen (fun x => { x with absorbed := false })).setTally (fun t => { t with work := left })
  let due := s.senOn && (match s.tally.sen.winAt with
    | some w => Decidable.decide (w + 32 * s.get senR TLY_SEN_GATE_GATE ≤ tn)
    | none => false)
  let s := s.senAbsorb tn
  s.setSen (fun x => { x with
    absorbed := false, winAt := none, edges := [], freqs := if due then x.freqs else [], last := x.last.map (· + amt), since := x.since + amt })

/-- An LTC step by `amt` at this boundary discards every open window; an edge in the range skipped does not occur (R438). Stamps
after the boundary read the stepped LTC. -/
def tallyStepped (s : State) (amt : Nat) : State :=
  let pre := s.ltcRaw 0 - amt
  let tn := pre / (31250 * nsRaw)
  let s := (List.range 64).foldl (fun s m => s.tmStepped tn pre m) s
  let s := (s.senStepped tn pre amt).setTally (fun t => { t with
    stamps := (t.stamps.filter (fun e => pre ≤ e.2)).map (fun e => (e.1, e.2 + amt)) })
  s.setTally  (fun t => { t with work := [] })

/-- Enables, rings and stops at a boundary (R437, R438); samples of the ended tick are taken and its stamps handed on. -/
def tallyBoundary (s : State) : State :=
  let s := (List.range 64).foldl (fun s m =>
    let r := s.get (tlyR m) TLY_CFG_RING
    let s := s.setMeas m (fun y => { y with ring := r, absorbed := false })
    let on := s.on (tlyR m) TLY_CFG_EN && s.tallyRuns
    let s := if on && s.tmState m = 0 then s.tmStart m
      else if !on && s.tmState m != 0 then (s.tmDiscard m).put (tlyR m) TLY_STATUS_STATE 0
      else s
    if s.tmState m = 1 || s.tmState m = 3 then s.tmSampleNow m else s) s
  let r := s.get senR TLY_SEN_CFG_RING
  let s := s.setSen (fun x => { x with ring := r, absorbed := false })
  let s := if s.senOn then s else if s.on senR TLY_SEN_CFG_EN then s.senIdle else s.senOff
  s.setTally (fun t => { t with work := t.stamps, stamps := [] })

/-- TM_CTL (R454). A restart is no reconfiguration of a disabled measurement: nothing more is written (R443). -/
def tmCtl (s : State) (m : Nat) (pl : List Byte) : State :=
  if leAt pl 15 1 = 1 && s.tmState m = 2 && s.tmZero m then s else
  let s := s.tmDiscard m
  let s := if leAt pl 15 1 = 1 then s else
    let b := tlyR m
    let cfg := leAt pl 0 4
    let s := s.putWord b cfg
    let s := if s.tmKind m = 1 then s.put b TLY_GATE_GATE (leAt pl 4 4) else s.put b TLY_N_N (leAt pl 4 4)
    ((s.put b TLY_PER_PER (leAt pl 8 4)).put b TLY_WCFG_TAU0 (leAt pl 12 2)).put b TLY_WCFG_MMAX (leAt pl 14 1)
  let r := s.get (tlyR m) TLY_CFG_RING
  let s := s.setMeas m (fun y => { y with ring := r })
  if s.on (tlyR m) TLY_CFG_EN && s.tallyRuns then s.tmStart m else s.put (tlyR m) TLY_STATUS_STATE 0

/-- TM_CTL as a row has acted at the boundary that started the running tick, after its samples were taken: the first sample of
the measurement is that of the boundary (R437). -/
def tmFirst (s : State) (m : Nat) : State :=
  let s := s.setMeas m (fun y => { y with absorbed := false, samp := none })
  if s.tmState m = 1 || s.tmState m = 3 then s.tmSampleNow m else s

/-- ROCV clears, also in values that wait to be published (R455). -/
def rocvClear (s : State) : State :=
  let f := s.get senR TLY_SEN_STATUS_FLAGS
  let s := (s.put senR TLY_SEN_STATUS_FLAGS (f - 2 * (f / 2 % 2))).put senR TLY_SEN_ROCOF_ROCOF 0
  s.setSen (fun x => { x with pub := x.pub.map (fun p => (p.1 - 2 * (p.1 / 2 % 2), p.2.1, 0, p.2.2.2)) })

/-- SENTINEL_CTL (R451, R455). -/
def senCtl (s : State) (pl : List Byte) : State :=
  let s := s.putWord (senR + TLY_SEN_CFG_EN.idx) (leAt pl 0 4)
  let s := (s.put senR TLY_SEN_GATE_GATE (leAt pl 4 2)).put senR TLY_SEN_LIM1_EHYS (leAt pl 6 2)
  let s := s.putWord (senR + TLY_SEN_DLY_DLY.idx) (leAt pl 8 4)
  let s := ((s.putWord (senR + TLY_SEN_LIM0_UDEV.idx) (leAt pl 12 4)).senRestart).rocvClear
  if s.on senR TLY_SEN_CFG_EN then s else s.senOff

end State

end Sys2Proof.Machine
end

