-- ==== Sys2Proof/Machine/Time.lean ====
section
/-! DEFINITION. The local time counter: advance, steps, leap seconds, FOLLOW and captures (R67–R88). -/

namespace Sys2Proof.Machine

/-- Units of 2⁻³² ns in a second. -/
def secUnits : Nat := 1000000000 * 2 ^ 32

namespace State

def setLtc (s : State) (f : Ltc → Ltc) : State := { s with ltc := f s.ltc }

/-- The counter brought to a value in 2⁻³² ns, carries taken (R68). -/
def ltcPut (s : State) (u : Nat) : State :=
  s.setLtc (fun l => { l with sec := u / secUnits, ns := u % secUnits / 2 ^ 32, frac := u % 2 ^ 32 })

/-! ## Captures (R87, R88) -/

/-- A snapshot `pos` units of 2⁻³² ns after the last boundary. -/
def ltcCapture (s : State) (pos : Nat) : State :=
  let u := s.ltcRaw (min pos (s.tickLeft * 2 ^ 32 - 1))
  let sec := u / secUnits
  let tn := sec * 32000 + u % secUnits / 2 ^ 32 / 31250
  let s := (s.put ltcR LTC_SNAP_NS_NS (u % secUnits / 2 ^ 32)).put ltcR LTC_SNAP_FRAC_FRAC (u % 2 ^ 32)
  let s := (s.put ltcR LTC_SNAP_S_LO_S_LO sec).put ltcR LTC_SNAP_S_HI_S_HI (sec / 2 ^ 32)
  (s.put ltcR LTC_SNAP_TN_LO_TN_LO tn).put ltcR LTC_SNAP_TN_HI_TN_HI (tn / 2 ^ 32)

/-! ## Steps (R72–R76, R85) -/

/-- A step of zero is nothing; one past 2⁴⁸ − 1 s, or with 10⁹ ns or more, is refused (R74, R76). -/
def stepRefused (s : State) (sec ns : Nat) : Bool :=
  1000000000 ≤ ns || 2 ^ 48 ≤ s.ltc.sec + sec + (s.ltc.ns + ns) / 1000000000

/-- The seconds at whose start an announced insertion ends and an announced deletion acts (R83), after the current one. -/
def leapEnd (s : State) : Nat :=
  let d := s.getI ltcR LTC_UTCOFF_OFFSET
  let x : Int := s.ltc.sec
  (if s.on ltcR LTC_UTCOFF_LEAP_INS then x + 1 else x + 2 + (d - x - 1) % 86400).toNat
def leapCut (s : State) : Nat :=
  let d := s.getI ltcR LTC_UTCOFF_OFFSET
  let x : Int := s.ltc.sec
  (x + 1 + (d + 86399 - x - 1) % 86400).toNat

/-- The next link frame of every port shows a step (R523). -/
def plkStepped (s : State) : State :=
  { s with plk := { s.plk with ports := s.plk.ports.map (fun (x : PlkPort) => { x with step := true }) } }

/-- A step that is neither zero nor refused is applied at the boundary (R73): every counter that follows the LTC moves. -/
def stepApply (s : State) (sec ns : Nat) : State :=
  let amt := sec * 1000000000 + ns
  let new := s.ltcRaw 0 + amt * 2 ^ 32
  let newSec := new / secUnits
  let jump : Option Bool :=
    if s.on ltcR LTC_UTCOFF_LEAP61 && s.leapEnd ≤ newSec then some false
    else if s.on ltcR LTC_UTCOFF_LEAP59 && s.leapCut ≤ newSec then some true
    else none
  let a : Rat := (amt : Rat) / 1000000000
  let t := s.timeChan
  let s := s.ltcPut new
  let s := s.setLtc (fun l => { l with
    ph := l.ph + a, stepped := l.stepped + amt * 2 ^ 32, steps := new :: l.steps, landed := true,
    leapJump := match jump with | some x => some x | none => l.leapJump })
  let s := (List.range s.nMil).foldl (fun s c =>
    if t = some c || s.on (milR c) MIL_CFG_STEPF then
      s.setChan c (fun x => { x with ph := x.ph + a, jump := x.jump + a })
    else s) s
  let s := ((s.plkStepped.bump ltcR LTC_STEPCNT_APPLIED).putB ltcR LTC_STATUS_SET true).dropFuture
  let s := ((s.tallyStepped (amt * 2 ^ 32)).frameCut).hearthStepped
  s.raise 70 0 0

/-- A refused step (R74). -/
def stepRefuse (s : State) : State := (s.bump ltcR LTC_STEPCNT_REFUSED).raise 71 0 0

/-- A step taken at a boundary: its effect, and whether it was applied, refused or zero. -/
inductive StepEnd
  | applied | refused | zero
deriving DecidableEq, Repr

def stepTake (s : State) (sec ns : Nat) : State × StepEnd :=
  if s.stepRefused sec ns then (s.stepRefuse, .refused)
  else if sec = 0 && ns = 0 then (s, .zero)
  else (s.stepApply sec ns, .applied)

/-- The request of `LTC_STEP_CTL.GO` (R76); a pending one is not replaced. STEP_PEND, "a step is waiting for a boundary" (R87),
is taken as the register step's alone, as R76 sets and clears it: a step command that waits under R75 does not set it (log
entry 61). -/
def stepRequest (s : State) : State :=
  if s.on ltcR LTC_STATUS_STEP_PEND then s else
  let sec := s.get64 ltcR LTC_STEP_S_LO_S_LO LTC_STEP_S_HI_S_HI
  let ns := s.get ltcR LTC_STEP_NS_NS
  (s.setLtc (fun l => { l with step := some (sec, ns) })).putB ltcR LTC_STATUS_STEP_PEND true

/-- The pending register step at its boundary (R75, R76): whether it used the boundary. -/
def registerStep (s : State) : State × Bool :=
  match s.ltc.step with
  | none => (s, false)
  | some (sec, ns) =>
    let s := (s.setLtc (fun l => { l with step := none })).putB ltcR LTC_STATUS_STEP_PEND false
    let (s, e) := s.stepTake sec ns
    (s, e == .applied)

/-! ## Leap seconds (R83, R85) -/

/-- OFFSET changes by a leap second (R83). -/
def leapApply (s : State) (deletion : Bool) : State :=
  let d := s.getI ltcR LTC_UTCOFF_OFFSET
  let s := if deletion then (s.putI ltcR LTC_UTCOFF_OFFSET (d - 1)).putB ltcR LTC_UTCOFF_LEAP59 false
    else (s.putI ltcR LTC_UTCOFF_OFFSET (d + 1)).putB ltcR LTC_UTCOFF_LEAP61 false
  (s.putB ltcR LTC_UTCOFF_LEAP_INS false).raise 72 0 deletion.toNat

/-- The leap that a step has carried the LTC over, while it is still announced (R82, R85). -/
def leapPassed (s : State) : Option Bool :=
  s.ltc.leapJump.filter (fun x => s.on ltcR (if x then LTC_UTCOFF_LEAP59 else LTC_UTCOFF_LEAP61))

/-- A leap is due at the boundary: one that a step has carried the LTC over, while it is still announced (R82, R85); at the
start of a second the end of an inserted one, whatever OFFSET says by then, or an announced deletion (R83). LEAP61 cleared
during the inserted second cancels the insertion: it is applied at the end of that second (R82, R83; log entry 61). -/
def leapDue (s : State) : Option Bool :=
  match s.leapPassed with
  | some x => some x
  | none =>
    if 31250 ≤ s.ltc.ns || s.ltc.landed then none
    else if s.on ltcR LTC_UTCOFF_LEAP_INS && s.on ltcR LTC_UTCOFF_LEAP61 then some false
    else if s.on ltcR LTC_UTCOFF_LEAP59 && ((s.ltc.sec : Int) - s.getI ltcR LTC_UTCOFF_OFFSET) % 86400 = 86399 then some true
    else none

/-- The inserted second begins (R83), or a step has landed in it (log entry 61). -/
def leapInsDue (s : State) : Bool :=
  (s.ltc.ns < 31250 || s.ltc.landed) && s.on ltcR LTC_UTCOFF_LEAP61 && !s.on ltcR LTC_UTCOFF_LEAP_INS &&
    s.leapPassed.isNone && ((s.ltc.sec : Int) - s.getI ltcR LTC_UTCOFF_OFFSET) % 86400 = 0

/-- The inserted second of a cancelled insertion is over: LEAP_INS falls there (log entry 61). -/
def leapInsOver (s : State) : Bool :=
  s.on ltcR LTC_UTCOFF_LEAP_INS && !s.on ltcR LTC_UTCOFF_LEAP61 &&
    ((s.ltc.ns < 31250 && !s.ltc.landed) || ((s.ltc.sec : Int) - s.getI ltcR LTC_UTCOFF_OFFSET) % 86400 != 0)

/-- The leap of a boundary. -/
def leapStep (s : State) : State :=
  let due := s.leapDue
  let ins := s.leapInsDue
  let gone := s.leapInsOver
  let s := s.setLtc (fun l => { l with leapJump := none, leapSeen := true })
  match due with
  | some x => s.leapApply x
  | none =>
    if ins then s.putB ltcR LTC_UTCOFF_LEAP_INS true
    else if gone then s.putB ltcR LTC_UTCOFF_LEAP_INS false else s

/-- LEAP_SECOND: the leap of the boundary that began the tick, where TICK_BOUNDARY has not taken it. -/
def leapSecond (s : State) : State := if s.ltc.leapSeen then s else s.leapStep

/-- A step has landed inside the inserted second. -/
def leapLanded (s : State) : State := if s.ltc.landed && s.leapInsDue then s.putB ltcR LTC_UTCOFF_LEAP_INS true else s

/-! ## FOLLOW (R81, R84) -/

/-- A reference carried UTC fields in this tick. -/
def utcCarried (s : State) (i : Nat) (u : UtcIn) : State :=
  s.setLtc (fun l => { l with utcIn := (i, u) :: l.utcIn.filter (fun e => e.1 != i) })

/-- Firmware's update at a boundary from the reference the time channel selects, with EV073 for a change: the fields it
carries (R81). One that carries both leap bits set, which R82 refuses to a write, leaves both as they were (log entry
61). -/
def follow (s : State) : State :=
  let s := match s.prism.tc.carries with
    | some (a, b) => (s.utcCarried 48 { leap61 := some a, leap59 := some b }).setTc (fun t => { t with carries := none })
    | none => s
  let got := s.ltc.utcIn
  let s := s.setLtc (fun l => { l with utcIn := [] })
  if !s.on ltcR LTC_UTCOFF_FOLLOW then s else
  match s.timeChan with
  | none => s
  | some c =>
    match s.selCur c with
    | none => s
    | some i =>
      match got.find? (fun e => e.1 == i) with
      | none => s
      | some (_, u) =>
        let old := s.reg (ltcR + LTC_UTCOFF_OFFSET.idx)
        let s := match u.offset with | some o => s.put ltcR LTC_UTCOFF_OFFSET o | none => s
        let s := match u.valid with | some v => s.putB ltcR LTC_UTCOFF_VALID v | none => s
        let l61 := u.leap61.getD (s.on ltcR LTC_UTCOFF_LEAP61)
        let l59 := u.leap59.getD (s.on ltcR LTC_UTCOFF_LEAP59)
        let s := if l61 && l59 then s else (s.putB ltcR LTC_UTCOFF_LEAP61 l61).putB ltcR LTC_UTCOFF_LEAP59 l59
        if s.reg (ltcR + LTC_UTCOFF_OFFSET.idx) = old then s else s.raise 73 0 0

end State

end Sys2Proof.Machine
end

