-- ==== Sys2Proof/Machine/HeraldSess.lean ====
section
/-! DEFINITION. Herald: access to its state, log intervals, the unicast session table, grants and requests
(R490–R498). -/

namespace Sys2Proof.Machine

/-- Ticks of a log interval (R499): 32,000 × 2ˡ. -/
def ivlTicks (l : Int) : Nat := if 0 ≤ l then 32000 * 2 ^ l.toNat else 32000 / 2 ^ (-l).toNat

/-- Messages a second of a log interval, for l ≤ 0 exact (R496). -/
def ivlRate (l : Int) : Nat := if l ≤ 0 then 2 ^ (-l).toNat else 1

/-- NEXTREQ (R491): the earliest next request of its types. -/
def Sess.nextReq (x : Sess) : Nat :=
  match x.asks.filterMap (·.next) with
  | [] => 0
  | a :: l => l.foldl min a

/-- The bytes of a session entry (R491); its numbers stand little-endian, as R8 says (log entry 64). -/
def Sess.bytes (x : Sess) (valid : Bool) : List Byte :=
  let int8 := fun (l : Int) => BitVec.ofNat 8 (unsigned l 8)
  let grant := fun (g : Option Grant) => match g with
    | some g => int8 g.l :: leBytes 3 g.exp
    | none => 0x7F#8 :: leBytes 3 0
  BitVec.ofNat 8 (valid.toNat + 2 * x.request.toNat + 4 * x.inst + 32 * x.port + 128 * x.origin.toNat) :: leBytes 7 0 ++
    leBytes 16 x.addr ++ leBytes 2 x.pnum ++ leBytes 8 x.clk ++ leBytes 2 0 ++
    (x.minl.take 3).map int8 ++ leBytes 1 0 ++ (x.grants.map grant).flatten ++ leBytes 4 x.nextReq ++
    leBytes 2 x.denials ++ leBytes 6 0

namespace State

def setHrd (s : State) (f : HrdSt → HrdSt) : State := { s with hrd := f s.hrd }
def pi (s : State) (k : Nat) : PiSt := s.hrd.pis.getD k {}
def setPi (s : State) (k : Nat) (f : PiSt → PiSt) : State := s.setHrd (fun h => { h with pis := h.pis.modify k f })
def piPort (s : State) (k p : Nat) : PiPort := (s.pi k).ports.getD p {}
def setPiPort (s : State) (k p : Nat) (f : PiPort → PiPort) : State :=
  s.setPi k (fun x => { x with ports := x.ports.modify p f })
def esmc (s : State) (p : Nat) : EsmcSt := s.hrd.esmc.getD p {}
def setEsmc (s : State) (p : Nat) (f : EsmcSt → EsmcSt) : State := s.setHrd (fun h => { h with esmc := h.esmc.modify p f })

/-! ## Instances and ports -/

def piProfile (s : State) (k : Nat) : Nat := s.get (piR k) HRD_PI_CFG_PROFILE
/-- Unicast negotiation only (R464). -/
def piUnicast (s : State) (k : Nat) : Bool := s.piProfile k = 5
/-- Peer-to-peer delay (R464). -/
def piP2P (s : State) (k : Nat) : Bool := 1 ≤ s.piProfile k && s.piProfile k ≤ 3
/-- Alternate BMCA (R464). -/
def piAlt (s : State) (k : Nat) : Bool := 4 ≤ s.piProfile k
def piTwoStep (s : State) (k : Nat) : Bool := !s.on (piR k) HRD_PI_CFG_ONESTEP
def piUses (s : State) (k p : Nat) : Bool := s.on (piR k) (HRD_PI_CFG_PORTS.bit p) && p < s.nHrd
/-- clockIdentity (R468). -/
def piId (s : State) (k : Nat) : Nat := s.get64 (piR k) HRD_PI_ID_LO_ID HRD_PI_ID_HI_ID

/-- The PTP port state of a port (R469). -/
def psField (p : Nat) : Fld := { HRD_PI_STATUS_PS with lo := HRD_PI_STATUS_PS.lo + 4 * p, width := 4 }
def ps (s : State) (k p : Nat) : Nat := s.get (piR k) (psField p)

/-- The part holds the key, or is not paired (R24, R470, R542). -/
def holdsKey (s : State) : Bool := !s.hasMir || !s.on mirR MIR_CFG_EN || s.on mirR MIR_KEY_HOLD

/-- Device mode or key bar every port from PRE_MASTER and MASTER (R470). -/
def keyBarred (s : State) : Bool := s.mode = 9 || s.mode = 10 || !s.holdsKey

/-- No port of the instance may be PRE_MASTER or MASTER (R469, R470). -/
def masterBarred (s : State) (k : Nat) : Bool := s.keyBarred || s.get (piR k) HRD_PI_CFG_ROLE = 1

/-- A port that would be master stays LISTENING and sends nothing, for want of the key (R470). -/
def silent (s : State) (k p : Nat) : Bool := !s.holdsKey && s.ps k p = 4 && (s.piPort k p).held

/-- No port of the instance may be UNCALIBRATED or SLAVE (R469). -/
def slaveBarred (s : State) (k : Nat) : Bool :=
  s.get (piR k) HRD_PI_CFG_ROLE = 2 && s.mode != 9 && s.mode != 10

/-- A frame that a port receives: 64 to 9,216 bytes with a good FCS, which is sent least significant byte first (R459). -/
def frameOk (raw : List Byte) : Bool :=
  64 ≤ raw.length && raw.length ≤ 9216 && crc32 (raw.take (raw.length - 4)) = leNat (raw.drop (raw.length - 4))

/-- Herald processes the frame: its mode, its port and the frame itself (R459, R463). -/
def hears (s : State) (p : Nat) (raw : List Byte) : Bool := s.heraldRuns && p < s.nHrd && frameOk raw

/-! ## The session table (R490–R495) -/

def seLog (s : State) : Nat := s.get hrcR HRD_SE_SIZE_LOG2
def seOn (s : State) : Bool := s.on hrcR HRD_SE_CFG_EN && s.seLog != 0
def sess? (s : State) (slot : Nat) : Option Sess := (s.hrd.sess.find? (fun e => e.1 == slot)).map (·.2)

/-- The probe range of a key (R492). -/
def probe (s : State) (inst port addr : Nat) : List Nat :=
  let h := crc32 (BitVec.ofNat 8 inst :: BitVec.ofNat 8 port :: leBytes 16 addr)
  (List.range 8).map (fun i => (h + i) % 2 ^ s.seLog)

/-- The session of a key: slot and entry. -/
def sessOf (s : State) (inst port addr : Nat) : Option (Nat × Sess) :=
  (s.probe inst port addr).findSome? (fun k => match s.sess? k with
    | some x => if x.inst = inst && x.port = port && x.addr = addr then some (k, x) else none
    | none => none)

/-- An entry becomes the most recently used of the cache (R494). -/
def cacheTouch (s : State) (slot : Nat) : State :=
  let c := (slot :: s.hrd.cache.filter (· != slot)).take 4096
  (s.setHrd (fun h => { h with cache := c })).put hrcR HRD_SE_CACHE_FILL c.length

/-- The entry of a slot is written through to the table (R494). -/
def sessStore (s : State) (slot : Nat) (x : Sess) (valid : Bool) : State :=
  s.hostWrite 0 (s.get hrcR HRD_SE_BASE_LO_ADDR * 2 ^ 12 + s.get hrcR HRD_SE_BASE_HI_ADDR * 2 ^ 32 + 64 * slot) (x.bytes valid)
    |>.charge 0 5 0 64

/-- Granted load of a port (R496). -/
def portLoad (s : State) (p : Nat) : Nat :=
  (s.hrd.sess.map (fun e =>
    if e.2.request || e.2.port != p then 0 else
    ((List.range 3).map (fun t => match e.2.grants.getD t none with
      | some g => ivlRate g.l * (if t = 1 && s.piTwoStep e.2.inst then 2 else 1)
      | none => 0)).sum)).sum

/-- Registers that count sessions and load. -/
def syncSess (s : State) : State :=
  let s := s.put hrcR HRD_SE_STATUS_COUNT s.hrd.sess.length
  (List.range s.nHrd).foldl (fun s p => s.putSat hrcR (HRD_SE_PLOAD_LOAD.at p) (s.portLoad p)) s

/-- A change the part makes to an entry, written through (R494). -/
def setSess (s : State) (slot : Nat) (f : Sess → Sess) : State :=
  match s.sess? slot with
  | none => s
  | some x =>
    let y := f x
    let s := s.setHrd (fun h => { h with sess := h.sess.map (fun e => if e.1 == slot then (slot, y) else e) })
    let s := if s.hrd.cache.contains slot then s.cacheTouch slot else s
    (if x.bytes true = y.bytes true then s else s.sessStore slot y true).syncSess

/-- The first free slot of a probe range takes a new session (R492). -/
def sessPlace (s : State) (x : Sess) : Option (Nat × State) :=
  match (s.probe x.inst x.port x.addr).find? (fun k => (s.sess? k).isNone) with
  | none => none
  | some slot =>
    let s := s.setHrd (fun h => { h with sess := memIns h.sess slot x })
    some (slot, ((s.sessStore slot x true).cacheTouch slot).syncSess)

/-! ## Signaling and grants (R496–R498) -/

/-- A message joins those waiting for the tick's sending steps. -/
def enqueue (s : State) (m : Msg) : State := s.setHrd (fun h => { h with queue := h.queue ++ [m] })

/-- A Signaling message about a session. -/
def signal (s : State) (slot : Nat) (x : Sess) (sig : Nat) (tlv : SigIn) : State :=
  s.enqueue { kind := 6, inst := x.inst, port := x.port, slot := some slot, seq := 0, sig := sig, tlv := tlv }

/-- The log interval that a grant being replaced holds for until the boundary (R496). -/
def grantNow (x : Sess) (t tn : Nat) : Option Int :=
  Option.bind (x.grants.getD t none) (fun (g : Grant) => if g.start ≤ tn then some g.l else g.old)

def setGrant (x : Sess) (t : Nat) (g : Option Grant) : Sess := { x with grants := x.grants.set t g }
def setAsk (x : Sess) (t : Nat) (f : Ask → Ask) : Sess := { x with asks := x.asks.modify t f }

/-- A grant held ends with CANCEL sent to the peer (R496, R497, R514). -/
def cancelGrant (s : State) (slot t : Nat) : State :=
  match s.sess? slot with
  | none => s
  | some x =>
    match x.grants.getD t none with
    | none => s
    | some _ => (s.signal slot x 2 ⟨t, 0, 0⟩).setSess slot (fun x => setAsk (setGrant x t none) t (fun a => { a with next := none }))

/-- The slowest and fastest intervals of profile 5 (R464), by type. -/
def p5Range (t : Nat) (l : Int) : Bool := (if t = 0 then -3 else -7) ≤ l && l ≤ 0

/-- A grantor may grant the type on the port (R496). -/
def mayGrant (s : State) (k p t : Nat) : Bool :=
  if t = 0 then s.ps k p != 2 && s.ps k p != 3 && !s.keyBarred else s.ps k p = 6

/-- The instance's own intervals, as MINL of a session created under OPEN (R496). -/
def piMinl (s : State) (k : Nat) : List Int :=
  [s.getI (piR k) HRD_PI_IVL_LANN, s.getI (piR k) HRD_PI_IVL_LSYNC, s.getI (piR k) HRD_PI_IVL_LDREQ]

/-- A denial (R496). -/
def deny (s : State) (k p slot : Nat) (t : SigIn) : State :=
  (s.bump hrcR HRD_SE_CNT_DENY).enqueue
    { kind := 6, inst := k, port := p, slot := some slot, seq := 0, sig := 1, tlv := { t with dur := 0 } }

/-- A request against the session that it found (R496). -/
def answerRequest (s : State) (slot : Nat) (x : Sess) (t : SigIn) : State :=
  let k := x.inst
  let p := x.port
  let rate := ivlRate t.logInt * (if t.typ = 1 && s.piTwoStep k then 2 else 1)
  let old := match x.grants.getD t.typ none with
    | some g => ivlRate g.l * (if t.typ = 1 && s.piTwoStep k then 2 else 1)
    | none => 0
  let ok : Bool := t.typ < 3 && s.mayGrant k p t.typ && x.minl.getD t.typ 0 ≤ t.logInt && p5Range t.typ t.logInt &&
    s.portLoad p - old + rate ≤ s.get hrcR (HRD_SE_PCAP_CAP.at p) * 1000
  if !ok then s.deny k p slot t else
  let dur := min t.dur (s.get hrcR HRD_SE_CFG_DMAX)
  let s := s.setSess slot (fun x => setGrant x t.typ
    (some { l := t.logInt, exp := s.ltc.sec + dur, dur := dur, given := s.ltc.sec, start := s.tn + 1, old := grantNow x t.typ s.tn }))
  s.signal slot x 1 { t with dur := dur }

/-- A request for a message type is sent to a remote master (R497). -/
def askFor (s : State) (slot t : Nat) : State :=
  match s.sess? slot with
  | none => s
  | some x =>
    let s := s.signal slot x 0 ⟨t, x.minl.getD t 0, s.get hrcR HRD_SE_CFG_REQD⟩
    s.setSess slot (fun x => setAsk x t (fun a =>
      { a with sent := some s.prism.tick, retry := none, next := some (s.ltc.sec + 1 + 2 ^ min 4 a.fails) }))

/-- A request failed: the next attempt follows after 1, 2, 4, 8 and then every 16 s (R497). -/
def askFailed (s : State) (slot t : Nat) : State :=
  s.setSess slot (fun x =>
    let n := min 4 (x.asks.getD t {}).fails
    setAsk { x with denials := min 65535 (x.denials + 1) } t (fun a =>
      { sent := none, retry := some (s.prism.tick + 32000 * 2 ^ n), fails := a.fails + 1, next := some (s.ltc.sec + 2 ^ n) }))

/-- The parent session of an instance. -/
def isParentSlot (s : State) (k slot : Nat) : Bool := Option.any (fun (p : Parent) => p.slot == some slot) (s.pi k).parent

/-- The grantee wants the type from the session (R497). -/
def wants (s : State) (slot : Nat) (x : Sess) (t : Nat) : Bool :=
  x.request && (s.pi x.inst).on && s.heraldRuns && s.seOn && !s.silent x.inst x.port && s.ps x.inst x.port != 0 && s.ps x.inst x.port != 2 &&
    s.ps x.inst x.port != 3 && (t = 0 || s.isParentSlot x.inst slot)

/-- Three quarters of a grant's duration have passed (R497). -/
def renewalDue (s : State) (slot t : Nat) : Bool :=
  Option.any (fun (x : Sess) => s.wants slot x t && (x.asks.getD t {}).sent.isNone && (x.asks.getD t {}).retry.isNone &&
    Option.any (fun (g : Grant) => g.given * 4 + g.dur * 3 ≤ s.ltc.sec * 4) (x.grants.getD t none)) (s.sess? slot)

def grantRenewal (s : State) (slot t : Nat) : State := if s.renewalDue slot t then s.askFor slot t else s

/-- A grant reached its expiry (R496). -/
def expiryDue (s : State) (slot t : Nat) : Bool :=
  Option.any (fun (x : Sess) => Option.any (fun (g : Grant) => g.exp ≤ s.ltc.sec) (x.grants.getD t none)) (s.sess? slot)

def grantExpiry (s : State) (slot t : Nat) : State :=
  if s.expiryDue slot t then s.setSess slot (fun x => setAsk (setGrant x t none) t (fun a => { a with next := none })) else s

/-- A request has stood unanswered for 1 s, its next attempt is due, or a wanted type has no grant and none is asked
for (R497). -/
def retryDue (s : State) (slot t : Nat) : Nat :=
  match s.sess? slot with
  | none => 0
  | some x =>
    let a := x.asks.getD t {}
    if !s.wants slot x t then 0 else
    match a.sent, a.retry with
    | some k, _ => if k + 32000 ≤ s.prism.tick then 1 else 0
    | none, some k => if k ≤ s.prism.tick then 2 else 0
    | none, none => if (x.grants.getD t none).isNone then 2 else 0

def requestRetry (s : State) (slot t : Nat) : State :=
  match s.retryDue slot t with
  | 0 => s
  | 1 => s.askFailed slot t
  | _ => s.askFor slot t

/-- Expiries, renewals and requests that are due. -/
def sessDue (s : State) : State :=
  if !s.seOn then s else
  s.hrd.sess.foldl (fun s e => (List.range 3).foldl (fun s t =>
    ((s.grantExpiry e.1 t).grantRenewal e.1 t).requestRetry e.1 t) s) s

end State

end Sys2Proof.Machine
end

