-- ==== Sys2Proof/Machine/HeraldPort.lean ====
section
/-! DEFINITION. Herald's ports: links, frames to and from the host, ESMC (R457–R463, R480–R486). -/

namespace Sys2Proof.Machine

/-- Bytes a bucket of `RATE` Mb/s gains in a tick, in 1/256 byte (R485). -/
def bucketStep (rate : Nat) : Nat := rate * 1000

/-- The rank an ESMC PDU carries (R197, R481). An enhanced code that does not fit the SSM code ranks by itself (log entry
67). -/
def esmcRank (ssm : Nat) (essm : Option Nat) : Nat :=
  let base := match ssm with | 2 => 4 | 4 => 5 | 8 => 6 | 11 => 8 | _ => 15
  match essm with
  | none => base
  | some e => if base = 15 then 15 else match e with | 0x20 => 2 | 0x21 => 1 | 0x22 => 7 | 0x23 => 3 | _ => base

/-- The SSM code and enhanced SSM code a rank is sent as (R197, R482). -/
def rankCode (ext : Bool) (rank : Nat) : Nat × Option Nat :=
  let ssm := if rank ≤ 4 then 2 else if rank = 5 then 4 else if rank = 6 then 8 else if rank ≤ 8 then 0xB else 0xF
  (ssm, if !ext then none else
    some (match rank with | 1 => 0x21 | 2 => 0x20 | 3 => 0x23 | 7 => 0x22 | _ => 0xFF))

namespace State

/-! ## Links (R463) -/

/-- A port state takes effect, with its event (R479); what leaving MASTER or SLAVE does (R474, R496). -/
def setPs (s : State) (k p new : Nat) (parentChanged : Bool) : State :=
  let old := s.ps k p
  let s := if old = 6 && new != 6 then
      s.hrd.sess.foldl (fun s e => if !e.2.request && e.2.inst = k && e.2.port = p then (s.cancelGrant e.1 1).cancelGrant e.1 2 else s) s
    else s
  let s := if old = 9 && new != 9 then s.addRes (36 + k) 0 true else s
  let s := s.put (piR k) (psField p) new
  let s := if new = 4 && old != 4 then s.setPiPort k p (fun x => { x with since := s.prism.tick, expired := false }) else s
  let s := s.setPiPort k p (fun x => { x with held := false })
  let s := s.putB (piR k) HRD_PI_STATUS_GM ((s.pi k).on && !(List.range 4).any (fun q => s.ps k q = 9))
  if old != new || parentChanged then
    s.raise (80 + k) 0 (p + new * 4 + old * 64 + 1024 * parentChanged.toNat)
  else s

/-- Frames of the port take the link (R463, R480). -/
def portLink (s : State) (p : Nat) : Bool := s.on (hrpR p) HRD_PORT_STATUS_LINK

/-- The link of a port changes: its event, and FAULTY in every instance that uses it (R463). -/
def setLink (s : State) (p : Nat) (up align : Bool) : State :=
  let old := s.portLink p
  let sp := if up then match s.get (hrpR p) HRD_PORT_CFG_MODE with | 1 => 1 | 2 => 1 | 3 => 2 | 4 => 3 | _ => 0 else 0
  let s := (s.putB (hrpR p) HRD_PORT_STATUS_LINK up).putB (hrpR p) HRD_PORT_STATUS_ALIGN align
  let s := s.put (hrpR p) HRD_PORT_STATUS_SPEED sp
  if old = up then s else
  let s := s.raise (96 + p) 0 up.toNat
  if up then s else
  (List.range 8).foldl (fun s k => if (s.pi k).on && s.piUses k p && 6 ≤ s.mode && s.ps k p != 2 then
    s.setPs k p 2 (Option.any (fun (x : Parent) => x.port == p) (s.pi k).parent) else s) s

/-- A port may train: its unit is present, EN is 1 with a mode, and the mode is M6 or later (R463). -/
def portTrains (s : State) (p : Nat) : Bool :=
  p < s.nHrd && 6 ≤ s.mode && s.on (hrpR p) HRD_PORT_CFG_EN && s.get (hrpR p) HRD_PORT_CFG_MODE != 0

/-- A port that may not train has no link and no receive clock (R463). -/
def portStops (s : State) (p : Nat) : State :=
  if s.portTrains p then s else (s.setLink p false false).putB (hrpR p) HRD_PORT_STATUS_RXLOCK false

/-- The transmit clock in use (R462). -/
def txLoomNow (s : State) (p : Nat) : Bool :=
  s.on (hrpR p) HRD_PORT_CFG_TXSRC &&
    (let n := s.get (hrpR p) HRD_PORT_CFG_TXLOOM; n < s.nLom && (s.loomState n = 2 || s.loomState n = 3))

/-! ## Frames to the host (R484, R485) -/

/-- A frame goes, without its FCS, to the oldest buffer of the port's RX ring, if the bucket and a buffer allow it (R128). -/
def toHost (s : State) (p : Nat) (frame : List Byte) : State :=
  let raw := frame.take (frame.length - 4)
  let cost := raw.length * 256
  if s.hrd.rxTok < cost then s.bump hrcR HRD_MGMT_DROP_RATE else
  let ring := s.get (hrpR p) HRD_PORT_CFG_RXRING
  match if s.dataHalted then none else s.hrd.bufs.find? (fun d => d.ring == ring) with
  | none => s.bump hrcR HRD_MGMT_DROP_NOBUF
  | some d =>
    let s := s.setHrd (fun h => { h with rxTok := h.rxTok - cost, bufs := h.bufs.erase d })
    let s := (s.hostWrite 0 d.addr (raw.take d.len)).charge 0 4 ring (min d.len raw.length)
    s.finish d (if d.len < raw.length then .inval else .ok) (raw.length % 2 ^ 16 + p * 2 ^ 16)

/-- The address filter, by the destination address alone (R484). -/
def addressFilter (s : State) (f : FrameIn) : State :=
  let p := f.port
  let mac := s.get (hrpR p) HRD_MAC_HI_MAC * 2 ^ 32 + s.get (hrpR p) HRD_MAC_LO_MAC
  if f.dst = mac || f.dst = 0xFFFFFFFFFFFF then s.toHost p f.raw
  else if f.dst / 2 ^ 40 % 2 = 1 && s.on (hrpR p) HRD_PORT_CFG_MCHOST then s.toHost p f.raw
  else s.bump (hrpR p) HRD_RX_FILT_COUNT

/-- A PTP frame no instance takes, or a management message (R467, R484). -/
def ptpElsewhere (s : State) (p : Nat) (raw : List Byte) : State :=
  if s.on (hrpR p) HRD_PORT_CFG_PTPHOST then s.toHost p raw else s.bump (hrpR p) HRD_RX_DISC_COUNT

/-- A non-PTP frame (R458, R484). -/
def nonPtpFrame (s : State) (f : FrameIn) : State :=
  if !s.hears f.port f.raw then s
  else if f.etherType = 0x8808 then s
  else s.addressFilter f

/-! ## ESMC (R481–R483) -/

def esmcOn (s : State) (p : Nat) : Bool := s.on (hrpR p) HRD_ESMC_CFG_EN

/-- A new received rank (R483). -/
def setRank (s : State) (p rank : Nat) (timeout : Bool) : State :=
  let old := s.get (hrpR p) HRD_ESMC_STATUS_RXQL
  let s := s.put (hrpR p) HRD_ESMC_STATUS_RXQL rank
  if old = rank then s else s.raise 126 p (rank + old * 16 + 256 * timeout.toNat)

/-- An ESMC PDU (R481). -/
def esmcPdu (s : State) (m : EsmcIn) : State :=
  let p := m.frame.port
  if !s.hears p m.frame.raw then s
  else if !s.esmcOn p then s.addressFilter m.frame
  else if !m.valid then s.bump (hrpR p) HRD_ESMC_CNT_ERR
  else
    let s := s.bump (hrpR p) HRD_ESMC_CNT_RXPDU
    let s := (s.put (hrpR p) HRD_ESMC_STATUS_RXSSM m.ssm).put (hrpR p) HRD_ESMC_STATUS_RXESSM (m.essm.getD 0xFF)
    let s := s.putB (hrpR p) HRD_ESMC_STATUS_TMO false
    let s := s.setEsmc p (fun x => { x with lastRx := s.prism.tick })
    s.setRank p (esmcRank m.ssm m.essm) false

/-- No valid PDU for TMO seconds (R481). -/
def esmcTimeoutDue (s : State) (p : Nat) : Bool :=
  p < s.nHrd && s.heraldRuns && s.esmcOn p && (s.esmc p).on && !s.on (hrpR p) HRD_ESMC_STATUS_TMO &&
    (s.esmc p).lastRx + 32000 * s.get (hrpR p) HRD_ESMC_CFG_TMO ≤ s.prism.tick

def esmcTimeout (s : State) (p : Nat) : State :=
  if !s.esmcTimeoutDue p then s else
  (s.putB (hrpR p) HRD_ESMC_STATUS_TMO true).setRank p 15 true

/-- The rank to be sent (R482). -/
def esmcTxRank (s : State) (p : Nat) : Nat :=
  match s.get (hrpR p) HRD_ESMC_CFG_TXMODE with
  | 0 => s.get (hrpR p) HRD_ESMC_CFG_TXQL
  | 1 =>
    let c := s.get (hrpR p) HRD_ESMC_CFG_CHAN
    let st := s.get (milR c) MIL_STATUS_STATE
    match s.selCur c with
    | some i =>
      if i = 32 + p then 15
      else if s.mode = 13 || st = 5 || st = 6 then s.get (hrpR p) HRD_ESMC_CFG_HOLDQL
      else if 2 ≤ st && st ≤ 4 then s.get (priR i) PRS_QUAL_EQL
      else 8
    | none => if s.mode = 13 || st = 5 || st = 6 then s.get (hrpR p) HRD_ESMC_CFG_HOLDQL else 8
  | _ => 15

/-- The once-a-second information PDU of a port (R482). -/
def esmcInfoDue (s : State) (p : Nat) : Bool :=
  p < s.nHrd && s.heraldRuns && s.esmcOn p && s.portLink p && (s.esmc p).on && (s.esmc p).lastTx != some s.ltc.sec

/-- A PDU is sent with the rank of the moment. -/
def esmcSend (s : State) (p : Nat) : State :=
  (s.put (hrpR p) HRD_ESMC_STATUS_TXQL (s.esmcTxRank p)).setEsmc p (fun x => { x with
    event := false, sent := some (rankCode (s.on (hrpR p) HRD_ESMC_CFG_EXT) (s.esmcTxRank p)) })

/-- The event PDU falls due in the tick after a change of the rank to be sent (R482). -/
def esmcEventDue (s : State) (p : Nat) : Bool :=
  p < s.nHrd && s.heraldRuns && s.esmcOn p && s.portLink p && (s.esmc p).on && (s.esmc p).event

def esmcEvent (s : State) (p : Nat) : State := if s.esmcEventDue p then s.esmcSend p else s

def esmcInfo (s : State) (p : Nat) : State :=
  if !s.esmcInfoDue p then s else (s.esmcSend p).setEsmc p (fun x => { x with lastTx := some s.ltc.sec })

/-- ESMC at a boundary: its enable, and the event PDU that a new rank to be sent asks of the tick (R481, R482). -/
def esmcBoundary (s : State) (p : Nat) : State :=
  let en := s.esmcOn p && s.heraldRuns
  let s := if en && !(s.esmc p).on then
      s.setEsmc p (fun x => { x with on := true, lastRx := s.prism.tick, lastTx := none, event := false, was := none })
    else if !en && (s.esmc p).on then
      (s.setEsmc p (fun x => { x with on := false })).putB (hrpR p) HRD_ESMC_STATUS_TMO false
    else s
  if !en then s else
  let r := s.esmcTxRank p
  s.setEsmc p (fun x => { x with event := x.lastTx.isSome && x.was != some r, was := some r })

end State

end Sys2Proof.Machine
end

