-- ==== Sys2Proof/Machine/HeraldBmca.lean ====
section
/-! DEFINITION. PTP instances: data sets, parents, port states and best-master selection (R464–R479, R501). -/

namespace Sys2Proof.Machine

/-- Bounds of the clockAccuracy codes from 0x1D on, in half nanoseconds (R477). -/
def accBounds : List Nat :=
  [2, 5, 20, 50, 200, 500, 2000, 5000, 20000, 50000, 200000, 500000, 2000000, 5000000, 20000000, 50000000,
   200000000, 500000000, 2000000000, 20000000000]

/-- clockAccuracy of an error exponent (R477): the least code whose bound is at least 2ᵉ ns. -/
def clockAccuracy (e : Nat) : Nat :=
  if e = 31 then 0xFE else 0x1D + (accBounds.takeWhile (fun b => b < 2 * 2 ^ e)).length

/-- Order of lists of numbers, the earlier the more significant. -/
def lexLt : List Nat → List Nat → Bool
  | [], [] => false
  | [], _ :: _ => true
  | _ :: _, [] => false
  | a :: l, b :: m => a < b || (a == b && lexLt l m)

/-- What the data set comparison looks at (R475): data set, localPriority, sender, receiving port. -/
structure Cand where
  ann : Ann
  lprio : Nat
  clk : Nat
  pnum : Nat
  port : Nat
deriving DecidableEq, Repr

def Cand.key (alt : Bool) (c : Cand) : List Nat :=
  if alt then [c.ann.cc, c.ann.acc, c.ann.var, c.lprio, c.ann.prio2, c.ann.gm]
  else [c.ann.prio1, c.ann.cc, c.ann.acc, c.ann.var, c.ann.prio2, c.ann.gm]

/-- The same grandmaster is compared by topology: steps removed, sender, receiver. -/
def Cand.topo (c d : Cand) : Bool := c.ann.gm == d.ann.gm

def Cand.better (alt : Bool) (c d : Cand) : Bool :=
  if c.topo d then lexLt [c.ann.steps, c.clk, c.pnum, c.port] [d.ann.steps, d.clk, d.pnum, d.port]
  else lexLt (c.key alt) (d.key alt)

/-- A foreign master that may be chosen: qualified, and no further than 254 steps away (R475). -/
def Foreign.qualified (f : Foreign) : Bool := f.qual && f.ann.steps < 255

/-- ATMO of its intervals have passed without an Announce (R475). -/
def Foreign.timedOut (f : Foreign) (atmo tick : Nat) : Bool :=
  match f.times with
  | t :: _ => t + atmo * ivlTicks f.logInt ≤ tick
  | [] => true

def Foreign.cand (f : Foreign) (port : Nat) : Cand := ⟨f.ann, 128, f.clk, f.pnum, port⟩

/-- The best of a list of candidates with what they stand for. -/
def bestCand {α : Type} (alt : Bool) (cand : α → Cand) (l : List α) : Option α :=
  l.foldl (fun a x => match a with
    | none => some x
    | some y => if (cand x).better alt (cand y) then some x else some y) none

namespace State

/-! ## Data sets (R476–R478) -/

/-- The instance's own data set, as a grandmaster advertises it. -/
def ownAnn (s : State) (k : Nat) : Ann :=
  let b := piR k
  let st := s.get ltcR LTC_STATUS_STATE
  let e := s.qualExp
  let cc := if s.mode = 13 then 248 else
    match st with
    | 3 => s.get b HRD_PI_CLASS_CC_LOCK
    | 2 => if e ≤ s.get b HRD_PI_CLASS_HOLDE then s.get b HRD_PI_CLASS_CC_HOLD else s.get b HRD_PI_CLASS_CC_HOLDX
    | _ => 248
  { gm := s.piId k, prio1 := s.get b HRD_PI_PRIO_PRIO1, cc := cc, acc := clockAccuracy e,
    var := if st = 3 then 0x4E5D else 0xFFFF, prio2 := s.get b HRD_PI_PRIO_PRIO2, steps := 0 }

/-- The data set of the last boundary (R476). -/
def dataSet (s : State) (k : Nat) : DataSet :=
  match (s.pi k).ds with
  | some d => d
  | none => { ann := s.ownAnn k, timeTrace := false, freqTrace := false, tsrc := s.get (piR k) HRD_PI_PRIO_TSRC }

/-- The data set the BMCA gives the instance itself: slaveOnly takes clockClass 255, and an instance that follows a parent
248 (log entry 18); in M13 every one 248 (R478). -/
def bmcaAnn (s : State) (k : Nat) : Ann :=
  let a := (s.dataSet k).ann
  if s.mode = 13 then { a with cc := 248 }
  else if s.mode = 9 || s.mode = 10 || s.get (piR k) HRD_PI_CFG_ROLE = 1 then { a with cc := 255 }
  else if (List.range 4).any (fun p => s.ps k p = 9) then { a with cc := 248 } else a

/-- Traceability of the time sent: time, frequency (R476, R478). -/
def ownTrace (s : State) (k : Nat) : Bool × Bool :=
  if s.mode = 13 then (false, false) else
  match s.get ltcR LTC_STATUS_STATE with
  | 3 => (true, true)
  | 2 => (decide' (s.qualExp ≤ s.get (piR k) HRD_PI_CLASS_HOLDE), true)
  | _ => (false, false)
where decide' (p : Prop) [Decidable p] : Bool := if p then true else false

/-- The instance forms its own data set at a boundary (R476). -/
def formDataSet (s : State) (k : Nat) : State :=
  let (tt, ft) := s.ownTrace k
  let d : DataSet := { ann := s.ownAnn k, timeTrace := tt, freqTrace := ft, tsrc := s.get (piR k) HRD_PI_PRIO_TSRC }
  s.setPi k (fun x => { x with ds := some d })

/-- What an Announce of the instance carries now (R466, R476, R478). -/
def announceOut (s : State) (k : Nat) : AnnOut :=
  let follows := (List.range 4).any (fun p => s.ps k p = 9)
  let ann := match (s.pi k).parent with
    | some p => if follows then { p.ann with steps := p.ann.steps + 1 } else (s.dataSet k).ann
    | none => (s.dataSet k).ann
  let ann := if s.mode = 13 then { ann with cc := 248 } else ann
  let (tt, ft) := if s.mode = 13 then (false, false) else ((s.dataSet k).timeTrace, (s.dataSet k).freqTrace)
  let power := s.piProfile k = 3
  { ann := ann, timeTrace := tt, freqTrace := ft,
    utcOff := s.utcOf LTC_UTCOFF_OFFSET, utcValid := s.utcOn LTC_UTCOFF_VALID,
    leap61 := s.utcOn LTC_UTCOFF_LEAP61, leap59 := s.utcOn LTC_UTCOFF_LEAP59,
    tsrc := (s.dataSet k).tsrc, ptpScale := true,
    power := if power then some (s.piId k % 2 ^ 16, if s.qualExp = 31 then 0xFFFFFFFF else 2 ^ s.qualExp) else none,
    alt := if power then some (tcOffset (s.reg (tcdR + TCD_TC_CFG_EN.idx)).toNat, s.on tcdR TCD_TC_CFG_DST) else none }

/-! ## Parents (R501) -/

/-- Drops what the parent session held (R501); `s` has the parent still. -/
def forgetParent (s : State) (k : Nat) : State :=
  let s := match (s.pi k).parent with
    | some p => match p.slot with | some n => (s.cancelGrant n 1).cancelGrant n 2 | none => s
    | none => s
  let s := s.setPi k (fun x => { x with
    parent := none, syncs := [], dreqs := [], ms := none, mpd := none, outl := none, suspect := none, q := 0,
    quarEnd := none, ex := [], lastO := none, good := 0, a := 0, extFail := true, pchg := some s.prism.tick })
  let b := pjR k
  let s := ((s.putB b HRD_PI_JSTAT_REFUSED false).putB b HRD_PI_JSTAT_PATHS false).putB b HRD_PI_JSTAT_QUARN false
  let s := ((s.put b HRD_PI_JSTAT_QLEFT 0).put b HRD_PI_PCOR_PCOR 0).put b HRD_PI_QOFF_Q 0
  let s := (s.put b HRD_PI_ACC_LO_A 0).put b HRD_PI_ACC_HI_A 0
  let s := (s.put b HRD_PI_PSLOT_VALID 0).put b HRD_PI_PSLOT_SLOT 0
  s.put (piR k) HRD_PI_MPD_MPD 0

/-- The registers that report the parent and its grandmaster. -/
def showParent (s : State) (k : Nat) : State :=
  let b := piR k
  match (s.pi k).parent with
  | none =>
    let s := (s.putB b HRD_PI_STATUS_PV false).put b HRD_PI_STATUS_PPORT 0
    let s := ((s.put b HRD_PI_PAR_LO_ID 0).put b HRD_PI_PAR_HI_ID 0).put b HRD_PI_PAR_INFO_PNUM 0
    let s := (s.put b HRD_PI_PAR_INFO_GMCC 0).put b HRD_PI_PAR_INFO_GMACC 0
    (s.put b HRD_PI_GM_LO_ID 0).put b HRD_PI_GM_HI_ID 0
  | some p =>
    let s := (s.putB b HRD_PI_STATUS_PV true).put b HRD_PI_STATUS_PPORT p.port
    let s := (s.put b HRD_PI_PAR_LO_ID (p.clk % 2 ^ 32)).put b HRD_PI_PAR_HI_ID (p.clk / 2 ^ 32)
    let s := (s.put b HRD_PI_PAR_INFO_PNUM p.pnum).put b HRD_PI_PAR_INFO_GMCC p.ann.cc
    let s := (s.put b HRD_PI_PAR_INFO_GMACC p.ann.acc).put b HRD_PI_GM_LO_ID (p.ann.gm % 2 ^ 32)
    let s := s.put b HRD_PI_GM_HI_ID (p.ann.gm / 2 ^ 32)
    match p.slot with
    | some n => (s.put (pjR k) HRD_PI_PSLOT_SLOT n).putB (pjR k) HRD_PI_PSLOT_VALID true
    | none => s

/-- A parent is taken; an interval already granted or known by the profile is kept for f_s (R248). -/
def takeParent (s : State) (k port : Nat) (f : Foreign) : State :=
  let l : Option Int := match f.slot with
    | some n => Option.bind (s.sess? n) (fun x => (x.grants.getD 1 none).map (·.l))
    | none => none
  let s := s.setPi k (fun x => { x with
    parent := some ⟨port, f.clk, f.pnum, f.slot, f.ann⟩, ivl := l, lastEx := s.prism.tick, timedOut := false })
  s.showParent k

/-- The parent is lost: its port, if it still follows, goes to LISTENING (R475, R501). -/
def loseParent (s : State) (k : Nat) : State :=
  match (s.pi k).parent with
  | none => s
  | some p =>
    let s := (s.forgetParent k).showParent k
    if s.ps k p.port = 8 || s.ps k p.port = 9 then s.setPs k p.port 4 true else s

/-- The engine finds a zeroed table (R490): it has no session, and what rested on one is gone. -/
def sessForget (s : State) : State :=
  let s := s.setHrd (fun h => { h with sess := [], cache := [], cancels := [], looked := [], looked' := []
                                       queue := h.queue.filter (fun (m : Msg) => m.slot.isNone)
                                       deferred := h.deferred.filter (fun e => e.1.slot.isNone) })
  let s := (s.put hrcR HRD_SE_CACHE_FILL 0).syncSess
  (List.range 8).foldl (fun s k =>
    let s := (List.range 4).foldl (fun s p => s.setPiPort k p (fun q => { q with foreign := q.foreign.filter (fun f => f.slot.isNone) })) s
    if Option.any (fun (p : Parent) => p.slot.isSome) (s.pi k).parent then s.loseParent k else s) s

/-! ## Best-master selection (R475) -/

/-- Ports that take part: every one that is not INITIALIZING, FAULTY or DISABLED. -/
def bmcaPorts (s : State) (k : Nat) : List Nat := (List.range 4).filter (fun p => 4 ≤ s.ps k p)

/-- The decision Reeve forms in the tick after new Announce data was published. -/
def bmca (s : State) (k : Nat) : Decision :=
  let alt := s.piAlt k
  let own : Cand := ⟨s.bmcaAnn k, s.get (piR k) HRD_PI_PRIO_LPRIO, s.piId k, 0, 0⟩
  let erbest := fun (p : Nat) => bestCand alt (fun (f : Foreign) => f.cand p)
    ((s.piPort k p).foreign.filter Foreign.qualified)
  let ports := s.bmcaPorts k
  let ebest : Option (Nat × Foreign) := if s.slaveBarred k then none else
    bestCand alt (fun (e : Nat × Foreign) => e.2.cand e.1)
      (ports.filterMap (fun p => (erbest p).map (fun f => (p, f))))
  let beats := fun (f : Option Cand) => match f with | some c => own.better alt c | none => true
  let recOf := fun (p : Nat) =>
    if !ports.contains p then 0
    else if s.ps k p = 4 && (erbest p).isNone && !(s.piPort k p).expired then 0
    else if 1 ≤ own.ann.cc && own.ann.cc ≤ 127 then
      if beats ((erbest p).map (fun f => f.cand p)) then 1 else if s.slaveBarred k then 1 else 3
    else match ebest with
      | none => 1
      | some e =>
        if own.better alt (e.2.cand e.1) then 1
        else if e.1 = p then 4
        else match erbest p with
          | some f => if (e.2.cand e.1).topo (f.cand p) then 3 else 2
          | none => 2
  ⟨(List.range 4).map recOf, ebest⟩

/-- The decision takes effect (R475, R479). -/
def applyDecision (s : State) (k : Nat) (d : Decision) : State :=
  let slavePort := (List.range 4).find? (fun p => d.rec4.getD p 0 = 4 && 4 ≤ s.ps k p)
  let old := (s.pi k).parent
  let new : Option (Nat × Foreign) := match slavePort, d.best with
    | some p, some (q, f) => if p = q then some (p, f) else none
    | _, _ => none
  let same : Bool := match old, new with
    | some o, some (p, f) => o.port = p && o.clk = f.clk && o.pnum = f.pnum
    | none, none => true
    | _, _ => false
  let s := match new with
    | some (p, f) =>
      if same then (s.setPi k (fun x => { x with parent := x.parent.map (fun (o : Parent) => { o with ann := f.ann }) })).showParent k
      else ((if old.isSome then s.forgetParent k else s.setPi k (fun x => { x with pchg := some s.prism.tick })).takeParent k p f)
    | none => if old.isSome then (s.forgetParent k).showParent k else s
  let steps := match d.best with | some e => e.2.ann.steps | none => 0
  (s.bmcaPorts k).foldl (fun s p =>
    let st := s.ps k p
    let pc : Bool := !same && (some p = new.map (·.1) || (new.isNone && some p = old.map (·.port)))
    match d.rec4.getD p 0 with
    | 4 =>
      if Option.isNone new then s else
      if same && (st = 8 || st = 9) then s else s.setPs k p 8 pc
    | 3 => s.setPs k p 7 pc
    | 2 =>
      if s.masterBarred k then (s.setPs k p 4 pc).setPiPort k p (fun x => { x with held := true })
      else if st = 5 || st = 6 then s
      else (s.setPs k p 5 pc).setPiPort k p (fun x =>
        { x with preEnd := s.prism.tick + (steps + 1) * ivlTicks (s.getI (piR k) HRD_PI_IVL_LANN) })
    | 1 => if s.masterBarred k then (s.setPs k p 4 pc).setPiPort k p (fun x => { x with held := true }) else s.setPs k p 6 pc
    | _ => if st = 8 || st = 9 then s.setPs k p 4 pc else s.setPiPort k p (fun x => { x with held := false })) s

/-- The announce receipt timeout of a LISTENING port, and foreign masters out of time (R475). -/
def announceTimeoutDue (s : State) (k : Nat) : Bool :=
  let b := piR k
  let atmo := s.get b HRD_PI_IVL_ATMO
  let tick := s.prism.tick
  s.heraldRuns && (s.pi k).on && (List.range 4).any (fun p =>
    (s.piPort k p).foreign.any (fun f => f.timedOut atmo tick) ||
    (s.ps k p = 4 && !(s.piPort k p).expired &&
      (s.piPort k p).since + atmo * ivlTicks (s.getI b HRD_PI_IVL_LANN) ≤ tick))

def announceTimeout (s : State) (k : Nat) : State :=
  if !s.announceTimeoutDue k then s else
  let b := piR k
  let atmo := s.get b HRD_PI_IVL_ATMO
  let tick := s.prism.tick
  let s := (List.range 4).foldl (fun s p =>
    let out : Bool := s.ps k p = 4 && (s.piPort k p).since + atmo * ivlTicks (s.getI b HRD_PI_IVL_LANN) ≤ tick
    s.setPiPort k p (fun x => { x with
      foreign := x.foreign.filter (fun f => !f.timedOut atmo tick), expired := x.expired || out })) s
  s.setPi k (fun x => { x with annNew := true })

/-! ## Life of an instance (R463, R468–R470, R487) -/

/-- Every port goes to INITIALIZING with nothing held (R487). -/
def piRestart (s : State) (k : Nat) : State :=
  let pp := (s.pi k).parent.map (fun (p : Parent) => p.port)
  let s := if pp.isSome then (s.forgetParent k).showParent k else s
  let s := (List.range 4).foldl (fun s p =>
    if s.piUses k p then s.setPs k p 1 (pp = some p) else if s.ps k p = 0 then s else s.setPs k p 0 (pp = some p)) s
  (s.setPi k (fun x => { (({} : PiSt)) with on := x.on, extFail := x.extFail, pchg := x.pchg })).putB (piR k) HRD_PI_STATUS_GM true

/-- An instance stops: its ports leave it. -/
def piStop (s : State) (k : Nat) : State :=
  let pp := (s.pi k).parent.map (fun (p : Parent) => p.port)
  let s := if pp.isSome then (s.forgetParent k).showParent k else s
  let s := (List.range 4).foldl (fun s p => if s.ps k p = 0 then s else s.setPs k p 0 (pp = some p)) s
  let s := s.setPi k (fun _ => {})
  s.putB (piR k) HRD_PI_STATUS_GM false

/-- The port states that come into force with the verdicts of the tick that ended (R472, R474, R475): links, the decision of
the best-master selection, the end of PRE_MASTER and of calibration. `held` says that Reeve overran in that tick (R65). -/
def piStates (s : State) (held : Bool) (k : Nat) : State :=
  let en := s.on (piR k) HRD_PI_CFG_EN
  let s := if !en && (s.pi k).on then s.piStop k else s
  if !(s.pi k).on || s.mode < 6 then s else
  let s := (List.range 4).foldl (fun s p =>
    if !s.piUses k p then s
    else if !s.portLink p then
      if s.ps k p = 2 then s else s.setPs k p 2 (Option.any (fun (x : Parent) => x.port == p) (s.pi k).parent)
    else if (s.ps k p = 1 && s.heraldRuns) || s.ps k p = 2 then s.setPs k p 4 false
    else s) s
  if !s.heraldRuns then s else
  -- a parent whose port no longer follows is lost
  let s := match (s.pi k).parent with
    | some p => if s.ps k p.port = 8 || s.ps k p.port = 9 then s else (s.forgetParent k).showParent k
    | none => s
  let s := if held then s else match (s.pi k).dec with
    | some d => (s.setPi k (fun x => { x with dec := none })).applyDecision k d
    | none => s
  (List.range 4).foldl (fun s p =>
    if s.ps k p = 5 && (s.piPort k p).preEnd ≤ s.prism.tick then s.setPs k p 6 false
    else if s.ps k p = 8 && (s.pi k).mpd.isSome then
      (s.setPs k p 9 false).setPi k (fun x => { x with lastEx := s.prism.tick, timedOut := false })
    else s) s

/-- The instance in the new tick: EN, the limits of mode, key and ROLE, and the selection Reeve runs on new Announce data
(R469, R470, R475); a limit that ends asks for one too (R564, log entry 18). -/
def piBoundary (s : State) (k : Nat) : State :=
  let en := s.on (piR k) HRD_PI_CFG_EN && 0 < s.nHrd
  let s :=
    if en && !(s.pi k).on then
      let s := s.setPi k (fun x => { x with on := true })
      let s := { s with prism := { s.prism with piLog := s.prism.piLog.set k none } }
      s.piRestart k
    else if !en && (s.pi k).on then s.piStop k
    else if en && s.heraldRuns then
      (List.range 4).foldl (fun s p =>
        if !s.piUses k p then s
        else if s.masterBarred k && (s.ps k p = 5 || s.ps k p = 6) then (s.setPs k p 4 false).setPiPort k p (fun x => { x with held := true })
        else if s.slaveBarred k && (s.ps k p = 8 || s.ps k p = 9) then s.loseParent k
        else s) s
    else s
  let s := if (s.pi k).on then s.formDataSet k else s
  if !(s.pi k).on || !s.heraldRuns then s else
  let s := s.setPi k (fun x => { x with barred := s.masterBarred k, annNew := x.annNew || (x.barred && !s.masterBarred k) })
  if (s.pi k).annNew && (s.pi k).dec.isNone then
    let d := s.bmca k
    s.setPi k (fun x => { x with annNew := false, dec := some d })
  else s

/-! ## Announce (R475) -/

/-- An Announce that an instance accepts: the foreign master's record, at most 8 on a port. -/
def acceptAnnounce (s : State) (k p clk pnum : Nat) (slot : Option Nat) (a : Ann) (l : Int) : State :=
  if clk = s.piId k then s else
  let tick := s.prism.tick
  let fs := (s.piPort k p).foreign
  let isF := fun (f : Foreign) => f.clk == clk && f.pnum == pnum
  let fs' := if fs.any isF then
      fs.map (fun f => if isF f then { f with ann := a, logInt := l, slot := slot, times := (tick :: f.times).take 2,
                                              qual := f.qual || f.times.any (fun t => tick ≤ t + 4 * ivlTicks l) } else f)
    else if fs.length < 8 then fs ++ [⟨clk, pnum, slot, a, l, [tick], false⟩]
    else fs
  let s := s.setPiPort k p (fun x => { x with foreign := fs' })
  s.setPi k (fun x => { x with annNew := true })

end State

end Sys2Proof.Machine
end

