-- ==== Sys2Proof/Machine/HeraldTime.lean ====
section
/-! DEFINITION. PTP messages, exchanges, refused corrections and path faults (R472–R474, R496–R512), and Herald's
commands (R487, R506, R510, R513, R514). -/

namespace Sys2Proof.Machine

/-- Brought to an integer, halves and other fractions as open roundings (log entry 8). -/
def qdiv (a : Int) (b : Nat) : Int := Config.quant ((a : Rat) / (b : Rat))

/-- The least n with m ≤ 2ⁿ. -/
def clog2 (m : Nat) : Nat := if m ≤ 1 then 0 else Nat.log2 (m - 1) + 1

namespace State

/-! ## Which frames an instance takes (R459, R464, R467, R484) -/

def vlanOk (s : State) (m : PtpIn) : Bool :=
  m.vids == if s.on (hrpR m.port) HRD_PORT_CFG_VEN then [s.get (hrpR m.port) HRD_VLAN_VID] else []

/-- The destination the instance listens on; `peer` for peer-delay messages. -/
def piDst (s : State) (k : Nat) (peer : Bool) : Nat :=
  if s.piUnicast k then 2
  else if s.piProfile k = 4 then (s.get (piR k) HRD_PI_CFG_NFWD)
  else peer.toNat

/-- The enabled instance that a frame matches. -/
def piMatch (s : State) (m : PtpIn) (peer : Bool) : Option Nat :=
  if m.version != 2 || !s.vlanOk m then none else
  (List.range 8).find? (fun k => (s.pi k).on && s.on (piR k) HRD_PI_CFG_EN && s.piUses k m.port &&
    s.get (piR k) HRD_PI_CFG_TRANS = m.trans && s.get (piR k) HRD_PI_CFG_DOMAIN = m.domain && s.piDst k peer = m.dst)

/-- An ingress stamp in 2⁻¹⁶ ns (R460, R461). -/
def ingress (s : State) (m : PtpIn) : Int :=
  qdiv s.ltc.atEnd (2 ^ 16) - m.before + qdiv (s.getI (hrpR m.port) HRD_LAT_ING * 65536) 1000

/-- An egress stamp, `pos` units of 2⁻¹⁶ ns into the current tick. -/
def egress (s : State) (p pos : Nat) : Int :=
  qdiv (s.ltcRaw 0) (2 ^ 16) + pos + qdiv (s.getI (hrpR p) HRD_LAT_EGR * 65536) 1000

/-! ## Sessions of received frames (R495) -/

/-- What the lookup of a peer gave. -/
inductive Look
  | slow | noSession | found (slot : Nat) (x : Sess)

/-- The key was looked up when the frame arrived, in the tick before, or since. -/
def keyRead (s : State) (key : Nat × Nat × Nat) : Bool := s.hrd.looked.contains key || s.hrd.looked'.contains key

/-- The lookup of a frame's peer: its entry in the cache, or the probe read that has completed. -/
def lookup (s : State) (k p addr : Nat) : Look :=
  if !s.seOn then .noSession else
  match s.sessOf k p addr with
  | some (n, x) =>
    if s.hrd.cache.contains n || s.keyRead (k, p, addr) then .found n x else .slow
  | none => if s.keyRead (k, p, addr) then .noSession else .slow

/-- The peer's portIdentity is learned from its first message (R491). -/
def learn (s : State) (slot : Nat) (m : PtpIn) : State :=
  s.setSess slot (fun x => if x.clk = 0 && x.pnum = 0 then { x with clk := m.clk, pnum := m.pnum } else x)

/-- A PTP frame that no instance takes: one of another majorVersionPTP is discarded (R467), others go on. -/
def ptpUnmatched (s : State) (m : PtpIn) : State :=
  if m.version != 2 then s.bump (hrpR m.port) HRD_RX_DISC_COUNT else s.ptpElsewhere m.port m.raw

/-- A matched frame: counted, and for a unicast instance looked up; `run` acts for the instance and the session slot. -/
def received (s : State) (m : PtpIn) (peer : Bool) (cnt : Fld) (run : State → Nat → Option Nat → State) : State :=
  if !s.hears m.port m.raw then s else
  match s.piMatch m peer with
  | none => s.ptpUnmatched m
  | some k =>
    let s := s.bump (hrpR m.port) cnt
    if !s.piUnicast k then run s k none else
    match s.lookup k m.port m.addr with
    | .slow => s.bump (hrpR m.port) HRD_SKIP_SLOW_COUNT
    | .noSession => s.bump (hrpR m.port) HRD_RX_NOSESS_COUNT
    | .found n _ => run ((s.cacheTouch n).learn n m) k (some n)

/-- The frame comes from the parent of the instance. -/
def fromParent (s : State) (k : Nat) (m : PtpIn) (slot : Option Nat) : Bool :=
  match (s.pi k).parent with
  | none => false
  | some p => p.port = m.port && (match slot with | some n => p.slot = some n | none => p.clk = m.clk && p.pnum = m.pnum)

/-! ## Exchanges (R472–R474, R505, R507) -/

/-- Asymmetry in 2⁻¹⁶ ns: the port's and Prism's correction (R472). -/
def piAsym (s : State) (k p : Nat) : Int :=
  (s.getI (pjR k) (HRD_PI_ASYM_ASYM.at p) + s.getI (pjR k) HRD_PI_PCOR_PCOR) * 256

/-- An LTC step lies between two times (R505). -/
def stepBetween (s : State) (a b : Int) : Bool :=
  s.ltc.steps.any (fun (u : Nat) => a * 65536 < (u : Int) && (u : Int) ≤ b * 65536)

/-- The offset in use now, from the last Sync exchange. -/
def piOffset (s : State) (k : Nat) : Option (Int × Int) :=
  match (s.pi k).ms, (s.pi k).mpd, (s.pi k).parent with
  | some (ms, t2), some d, some p => some (ms - d - s.piAsym k p.port, t2)
  | _, _, _ => none

def showOffset (s : State) (k : Nat) : State :=
  match s.piOffset k with
  | some (o, _) => s.putSatI (piR k) HRD_PI_OFM_OFM (qdiv o 256)
  | none => s

def setMpd (s : State) (k : Nat) (d : Int) : State :=
  (s.setPi k (fun x => { x with mpd := some d })).putSatI (piR k) HRD_PI_MPD_MPD (qdiv d 256)

/-- A Sync exchange is complete: o is formed, and kept for the sample of the tick (R472, R473). -/
def syncExchange (s : State) (k port : Nat) (t1 t2 corr : Int) : State :=
  if s.stepBetween t1 t2 then s.bump (hrpR port) HRD_STEPDISC_COUNT else
  let s := s.setPi k (fun x => { x with ms := some (t2 - t1 - corr, t2) })
  match s.piOffset k with
  | none => s
  | some (o, _) =>
    let s := s.showOffset k
    if (s.pi k).outl.isSome then s else
    s.setPi k (fun x => { x with ex := x.ex ++ [(o, t2)], lastEx := s.prism.tick, timedOut := false })

/-- A delay exchange gave a path delay: filtered into mpd, or an outlier (R472, R507). -/
def delayExchange (s : State) (k port : Nat) (x : Int) : State :=
  match (s.pi k).mpd with
  | none => s.setMpd k x
  | some d =>
    let dev := x - d
    let lim : Int := s.get (pjR k) HRD_PI_PATH_PSTEP * 65536
    if dev.natAbs ≤ lim.toNat then
      (s.setMpd k (d + qdiv dev (2 ^ s.get (piR k) HRD_PI_IVL_MPDF))).setPi k (fun y => { y with outl := none })
    else
      let s := s.bump (hrpR port) HRD_PATHOUT_COUNT
      match (s.pi k).outl with
      | some y =>
        if (0 < y - d) = (0 < dev) then s.setPi k (fun z => { z with suspect := some (qdiv (x + y) 2, d), outl := some x })
        else s.setPi k (fun z => { z with outl := some x })
      | none => s.setPi k (fun z => { z with outl := some x })

/-- The interval of the parent's Sync is known (R248). -/
def setSyncIvl (s : State) (k : Nat) (l : Int) : State :=
  let s := s.setPi k (fun x => { x with ivl := some l })
  { s with prism := { s.prism with piLog := s.prism.piLog.set k (some l) } }

/-- A Sync of the parent. -/
def syncFrom (s : State) (k : Nat) (m : PtpIn) (slot : Option Nat) : State :=
  if !s.fromParent k m slot then s else
  let l : Option Int := match slot with
    | some n => Option.bind (s.sess? n) (fun x => (x.grants.getD 1 none).map (·.l))
    | none => some m.logInt
  let s := match l with | some l => s.setSyncIvl k l | none => s
  let t2 := s.ingress m
  if m.twoStep then
    s.setPi k (fun x => { x with syncs := (⟨m.seq, t2, m.corr⟩ :: x.syncs.filter (fun w => w.seq != m.seq)).take 8 })
  else s.syncExchange k m.port m.ts t2 m.corr

def sync (s : State) (m : PtpIn) : State := s.received m false HRD_RX_SYNC_COUNT (fun s k slot => s.syncFrom k m slot)

/-- A Follow_Up of the parent completes the Sync it names. -/
def followUpFrom (s : State) (k : Nat) (m : PtpIn) (slot : Option Nat) : State :=
  if !s.fromParent k m slot then s else
  match (s.pi k).syncs.find? (fun w => w.seq == m.seq) with
  | none => s
  | some w =>
    let s := s.setPi k (fun x => { x with syncs := x.syncs.filter (fun v => v.seq != m.seq) })
    s.syncExchange k m.port m.ts w.t2 (w.corr + m.corr)

def followUp (s : State) (m : PtpIn) : State :=
  s.received m false HRD_RX_FUP_COUNT (fun s k slot => s.followUpFrom k m slot)

/-- A Delay_Req: a Delay_Resp falls due in the tick after it is processed (R471, R499). -/
def delayReqFrom (s : State) (k : Nat) (m : PtpIn) (slot : Option Nat) : State :=
  let granted : Bool := match slot with
    | some n => Option.any (fun (x : Sess) => !x.request && (x.grants.getD 2 none).isSome) (s.sess? n)
    | none => true
  if s.piP2P k || s.ps k m.port != 6 || !granted then s else
  s.enqueue { kind := 0, inst := k, port := m.port, slot := slot, seq := m.seq, clk := m.clk, pnum := m.pnum, sig := 1,
              rx := s.ingress m, corr := m.corr }

def delayReq (s : State) (m : PtpIn) : State :=
  s.received m false HRD_RX_DREQ_COUNT (fun s k slot => s.delayReqFrom k m slot)

/-- A Delay_Resp of the parent completes a delay exchange (R472, R505). -/
def delayRespFrom (s : State) (k : Nat) (m : PtpIn) (slot : Option Nat) : State :=
  if !s.fromParent k m slot || m.rclk != s.piId k || m.rpnum != m.port + 1 then s else
  match (s.pi k).dreqs.find? (fun d => d.port == m.port && d.seq == m.seq), (s.pi k).ms with
  | some d, some (ms, t2) =>
    let s := s.setPi k (fun x => { x with dreqs := x.dreqs.erase d })
    if s.stepBetween t2 d.sent || s.stepBetween d.sent t2 then s.bump (hrpR m.port) HRD_STEPDISC_COUNT
    else s.delayExchange k m.port (qdiv (ms + (m.ts - d.sent - m.corr)) 2)
  | _, _ => s

def delayResp (s : State) (m : PtpIn) : State :=
  s.received m false HRD_RX_DRESP_COUNT (fun s k slot => s.delayRespFrom k m slot)

/-- A Pdelay_Req is answered (R471). -/
def pdelayReqFrom (s : State) (k : Nat) (m : PtpIn) : State :=
  if !s.piP2P k || s.ps k m.port = 2 || s.ps k m.port = 3 || s.silent k m.port then s else
  s.enqueue { kind := 1, inst := k, port := m.port, slot := none, seq := m.seq, clk := m.clk, pnum := m.pnum,
              rx := s.ingress m, corr := m.corr }

def pdelayReq (s : State) (m : PtpIn) : State :=
  s.received m true HRD_RX_PDLY_COUNT (fun s k _ => s.pdelayReqFrom k m)

/-- The peer delay exchange of a port has all its times: the parent port's gives mpd (R472, R505). -/
def peerExchange (s : State) (k port : Nat) (d : DelayReq) (t4 turn corr : Int) : State :=
  let s := s.setPi k (fun x => { x with dreqs := x.dreqs.erase d })
  if s.stepBetween d.sent t4 then s.bump (hrpR port) HRD_STEPDISC_COUNT
  else if !Option.any (fun (p : Parent) => p.port == port) (s.pi k).parent then s
  else s.delayExchange k port (qdiv ((t4 - d.sent) - turn - corr) 2)

def pdelayRespFrom (s : State) (k : Nat) (m : PtpIn) : State :=
  if !s.piP2P k || m.rclk != s.piId k || m.rpnum != m.port + 1 then s else
  match (s.pi k).dreqs.find? (fun d => d.port == m.port && d.seq == m.seq) with
  | none => s
  | some d =>
    let t4 := s.ingress m
    if m.twoStep then
      s.setPi k (fun x => { x with dreqs := x.dreqs.map (fun (e : DelayReq) =>
        if e = d then { e with resp := some (t4, m.ts, m.corr) } else e) })
    else s.peerExchange k m.port d t4 0 m.corr

def pdelayResp (s : State) (m : PtpIn) : State :=
  s.received m true HRD_RX_PDLY_COUNT (fun s k _ => s.pdelayRespFrom k m)

def pdelayFupFrom (s : State) (k : Nat) (m : PtpIn) : State :=
  if !s.piP2P k || m.rclk != s.piId k || m.rpnum != m.port + 1 then s else
  match (s.pi k).dreqs.find? (fun d => d.port == m.port && d.seq == m.seq) with
  | some d =>
    match d.resp with
    | some (t4, t2, corr) => s.peerExchange k m.port d t4 (m.ts - t2) (corr + m.corr)
    | none => s
  | none => s

def pdelayFup (s : State) (m : PtpIn) : State :=
  s.received m true HRD_RX_PDLY_COUNT (fun s k _ => s.pdelayFupFrom k m)

/-- An Announce (R475); the parent's carries UTC fields for FOLLOW (R81). -/
def announceFrom (s : State) (k : Nat) (m : PtpIn) (a : Ann) (slot : Option Nat) : State :=
  let req : Bool := match slot with
    | some n => Option.any (fun (x : Sess) => x.request) (s.sess? n)
    | none => true
  if !req || s.ps k m.port < 4 then s else
  let s := s.acceptAnnounce k m.port m.clk m.pnum slot a
    (match slot with
      | some n => (Option.bind (s.sess? n) (fun x => (x.grants.getD 0 none).map (·.l))).getD 0
      | none => m.logInt)
  if s.fromParent k m slot then s.utcCarried (36 + k) a.utc else s

def announce (s : State) (m : PtpIn) (a : Ann) : State :=
  s.received m false HRD_RX_ANN_COUNT (fun s k slot => s.announceFrom k m a slot)

/-! ## Unicast negotiation messages (R496–R498) -/

/-- REQUEST_UNICAST_TRANSMISSION: from an unknown peer it creates a session under OPEN. -/
def requestUnicast (s : State) (m : PtpIn) (t : SigIn) : State :=
  if !s.hears m.port m.raw then s else
  match s.piMatch m false with
  | none => s.ptpUnmatched m
  | some k =>
    let s := s.bump (hrpR m.port) HRD_RX_SIG_COUNT
    if !s.piUnicast k then s else
    match s.lookup k m.port m.addr with
    | .slow => s.bump (hrpR m.port) HRD_SKIP_SLOW_COUNT
    | .found n x =>
      let s := (s.cacheTouch n).learn n m
      if x.request then s.deny k m.port n t else s.answerRequest n x t
    | .noSession =>
      if !s.seOn then s.bump (hrpR m.port) HRD_RX_NOSESS_COUNT else
      if !s.on hrcR HRD_SE_CFG_OPEN then (s.bump (hrpR m.port) HRD_RX_NOSESS_COUNT).deny k m.port 0 t else
      let x : Sess := { request := false, inst := k, port := m.port, origin := true, addr := m.addr, clk := m.clk,
                        pnum := m.pnum, minl := s.piMinl k }
      match s.sessPlace x with
      | none => s.deny k m.port 0 t
      | some (n, s) => s.answerRequest n x t

/-- GRANT_UNICAST_TRANSMISSION: a grant is recorded, a denial counts as a failed attempt. -/
def grantFrom (s : State) (n : Nat) (t : SigIn) : State :=
  match s.sess? n with
  | none => s
  | some x =>
    if !x.request || 3 ≤ t.typ || (x.asks.getD t.typ {}).sent.isNone then s
    else if t.dur = 0 then s.askFailed n t.typ
    else
      let new : Grant :=
        { l := t.logInt, exp := s.ltc.sec + t.dur, dur := t.dur, given := s.ltc.sec, start := s.tn + 1, old := grantNow x t.typ s.tn }
      let s := s.setSess n (fun x => setAsk { (setGrant x t.typ (some new))
          with denials := 0 } t.typ (fun _ => { next := some (s.ltc.sec + (t.dur * 3 + 3) / 4) }))
      if t.typ = 1 && s.isParentSlot x.inst n then s.setSyncIvl x.inst t.logInt else s

def grantUnicast (s : State) (m : PtpIn) (t : SigIn) : State :=
  s.received m false HRD_RX_SIG_COUNT (fun s _ slot => match slot with | some n => s.grantFrom n t | none => s)

/-- CANCEL_UNICAST_TRANSMISSION: the type stops at the next boundary and is acknowledged (R498). -/
def cancelFrom (s : State) (n : Nat) (t : SigIn) : State :=
  match s.sess? n with
  | none => s
  | some x =>
    if (x.grants.getD t.typ none).isNone then s else
    (s.setHrd (fun h => { h with cancels := h.cancels ++ [(n, t.typ)] })).signal n x 3 ⟨t.typ, 0, 0⟩

def cancelUnicast (s : State) (m : PtpIn) (t : SigIn) : State :=
  s.received m false HRD_RX_SIG_COUNT (fun s _ slot => match slot with | some n => s.cancelFrom n t | none => s)

/-- ACKNOWLEDGE_CANCEL_UNICAST_TRANSMISSION: the grant was ended when CANCEL was sent (R498). -/
def ackCancel (s : State) (m : PtpIn) : State := s.received m false HRD_RX_SIG_COUNT (fun s _ _ => s)

/-- A management message (R467). -/
def management (s : State) (m : PtpIn) : State :=
  if !s.hears m.port m.raw then s else s.ptpUnmatched m

/-! ## Session reads (R493–R495) -/

/-- A lookup is one read of 512 bytes, or two where the probe range wraps (R493). -/
def probeReads (s : State) (key : Nat × Nat × Nat) : State :=
  let left := 2 ^ s.seLog - (s.probe key.1 key.2.1 key.2.2).headD 0
  if 8 ≤ left then s.charge 0 5 0 512 else (s.charge 0 5 0 (64 * left)).charge 0 5 0 (64 * (8 - left))

/-- A scheduled read of an entry, or the lookup of a peer (8 entries), came back or is too late (R495): what waits for it is
skipped or discarded where Herald reaches it. Past 488 entries a tick nothing is read. -/
def entryFetch (s : State) (port : Nat) (slot : Option Nat) (key : Nat × Nat × Nat) (late : Bool) : State :=
  let n := if slot.isSome then 1 else 8
  if !s.heraldRuns || s.nHrd ≤ port || !s.seOn || 488 < s.hrd.reads + n then s
  else
    let s := s.setHrd (fun h => { h with reads := h.reads + n })
    let s := if slot.isSome then s.charge 0 5 0 64 else s.probeReads key
    if late then s else
    match slot with
    | some k => s.cacheTouch k
    | none =>
      let s := s.setHrd (fun h => { h with looked := h.looked ++ [key] })
      match s.sessOf key.1 key.2.1 key.2.2 with
      | some (k, _) => s.cacheTouch k
      | none => s

/-! ## Refused corrections and samples (R473, R502–R504) -/

/-- c of an exchange (R502), in 2⁻¹⁶ ns. -/
def correction (s : State) (k : Nat) (o : Int) : Int :=
  let slew : Rat := (match s.timeChan with | some t => (s.chan t).c.d - (s.chan t).c.dt | none => 0)
  0 - o - Config.quant (slew * 65536000000000) - (s.pi k).a

/-- The LTC less a reference, carried from a stamp to the last boundary at the tracked frequency of its index (R473, R509,
R530; log entry 18). -/
def carryAt (s : State) (i : Nat) (o t : Int) : Rat :=
  (o : Rat) + (s.ltc.inc - (s.ref i).freq) * ((qdiv s.ltc.atEnd (2 ^ 16) - t : Int) : Rat)

def carryO (s : State) (k : Nat) (o t2 : Int) : Rat := s.carryAt (36 + k) o t2

def toNs (c : Int) : Int := Int.tdiv c 65536

/-- A 64-bit count of nanoseconds put into its pair of registers. -/
def showC (s : State) (k : Nat) (c : Int) : State := s.put64 (pjR k) HRD_PI_JC_LO_C HRD_PI_JC_HI_C (toNs c)
def showA (s : State) (k : Nat) : State := s.put64 (pjR k) HRD_PI_ACC_LO_A HRD_PI_ACC_HI_A (toNs (s.pi k).a)

/-- One exchange of the tick is judged against LIMIT; within it, it is the sample of the index (R503, R504). -/
def judgeExchange (s : State) (k : Nat) (e : Int × Int) : State :=
  let c := s.correction k e.1
  let b := pjR k
  let lim := s.get b HRD_PI_JUMP_LIMIT * 65536
  if lim < c.natAbs then
    let first := !s.on b HRD_PI_JSTAT_REFUSED
    let s := (s.putB b HRD_PI_JSTAT_REFUSED true).setPi k (fun x => { x with c := c, good := 0 })
    let s := s.showC k c
    if !first then s else
    let recent : Bool := Option.any (fun (t : Nat) => Decidable.decide
      (s.prism.tick ≤ t + s.get (piR k) HRD_PI_IVL_STMO * ivlTicks ((s.pi k).ivl.getD 0))) (s.pi k).pchg
    let mag := (c.natAbs + 65535) / 65536
    (s.bump b HRD_PI_JCNT_REFUSALS).raiseAt (s.tn - 1) (88 + k) 0
      ((if c < 0 then 1 else 0) + min 63 (clog2 mag) * 2 + recent.toNat * 128)
  else if s.on b HRD_PI_JSTAT_REFUSED then
    let s := s.setPi k (fun x => { x with good := x.good + 1 })
    if (s.pi k).good < 4 then s else s.putB b HRD_PI_JSTAT_REFUSED false
  else
    let o := e.1 - (s.pi k).q
    if !(List.range 4).any (fun p => s.ps k p = 9) then s else
    let s := s.setPi k (fun x => { x with lastO := some (o, e.2) })
    let v : Rat := s.ltc.ph * 500000000000 - s.carryO k o e.2 * 500 / 65536
    s.setRef (36 + k) (fun r => { r with vs := some ((Config.quant v : Int) : Rat) })

/-- What Herald gives index 36 + k for the tick that ends: sample, activity and external results (R473, R474, R501,
R503). -/
def heraldSample (s : State) (k : Nat) : State :=
  if !(s.pi k).on || !s.heraldRuns then s else
  let ex := (s.pi k).ex
  let s := ex.foldl (fun s e => s.judgeExchange k e) s
  let s := if (s.pi k).extFail then s.addRes (36 + k) 6 true else s
  let s := s.setPi k (fun x => { x with ex := [], extFail := false })
  let slave := (List.range 4).any (fun p => s.ps k p = 9)
  let s := if slave && !ex.isEmpty then s.addRes (36 + k) 0 false else s
  if s.on (pjR k) HRD_PI_JSTAT_REFUSED then s.addRes (36 + k) 6 true else s

/-- The SyncE indices fail while ESMC has timed out (R481). -/
def heraldSamples (s : State) : State :=
  let s := (List.range 8).foldl heraldSample s
  (List.range s.nHrd).foldl (fun s p => if s.on (hrpR p) HRD_ESMC_STATUS_TMO then s.addRes (32 + p) 6 true else s) s

/-- STMO Sync intervals of the parent without a completed exchange (R474). -/
def syncTimeoutDue (s : State) (k : Nat) : Bool :=
  s.heraldRuns && !(s.pi k).timedOut && (List.range 4).any (fun p => s.ps k p = 9) &&
    (s.pi k).lastEx + s.get (piR k) HRD_PI_IVL_STMO *
      ivlTicks ((s.pi k).ivl.getD (s.getI (piR k) HRD_PI_IVL_LSYNC)) ≤ s.prism.tick

def syncTimeout (s : State) (k : Nat) : State :=
  if !s.syncTimeoutDue k then s else
  (s.addRes (36 + k) 0 true).setPi k (fun x => { x with timedOut := true })

/-! ## Path faults (R507–R511) -/

/-- The event of R511 for the parent session. -/
def pathEvent (s : State) (k kind : Nat) : State :=
  match (s.pi k).parent with
  | none => s
  | some p =>
    let (n, mc) := match p.slot with | some n => (n, 0) | none => (0, 1)
    s.raiseAt (s.tn - 1) (100 + p.port) (n % 2 ^ 16)
      (kind + k * 8 + n / 2 ^ 16 * 64 + mc * 256 + min (2 ^ 22 - 1) (s.pi k).stepAbs * 512)

/-- Two outliers of one sign make the session PATH_SUSPECT at the boundary that ends the tick (R507). -/
def pathSuspect (s : State) (k : Nat) : State :=
  match (s.pi k).suspect with
  | none => s
  | some (mean, d) =>
    let s := s.setMpd k mean
    let s := s.setPi k (fun x => { x with suspect := none, outl := none, stepAbs := (mean - d).natAbs / 65536 })
    let s := ((s.showOffset k).putB (pjR k) HRD_PI_JSTAT_PATHS true).bump (pjR k) HRD_PI_JCNT_PATHSUSP
    { s with prism := { s.prism with psus := s.prism.psus ++ [k] } }

def pathSuspects' (s : State) : State := (List.range 8).foldl pathSuspect s

def showQ (s : State) (k : Nat) : State := s.putSatI (pjR k) HRD_PI_QOFF_Q (qdiv (s.pi k).q 256)

/-- Quarantine starts or starts again: samples stay phase-continuous (R509). -/
def quarStart (s : State) (k : Nat) : State :=
  let q : Int := match s.piOffset k, (s.pi k).lastO with
    | some (o, t), some (op, tp) => Config.quant (s.carryO k o t - s.carryO k op tp)
    | _, _ => 0
  let secs := s.get (pjR k) HRD_PI_PATH_QUAR
  let s := s.setPi k (fun x => { x with q := q, quarEnd := some (s.prism.tick + secs * 32000) })
  ((s.showQ k).putB (pjR k) HRD_PI_JSTAT_QUARN true).put (pjR k) HRD_PI_JSTAT_QLEFT secs

/-- What Prism did with a path fault (R508). A new one during quarantine restarts it whatever Prism does (R509). -/
def asymResult (s : State) (k code : Nat) : State :=
  match code with
  | 0 => (if (s.pi k).quarEnd.isSome then s.quarStart k else s).pathEvent k 0
  | 1 => (s.quarStart k).pathEvent k 1
  | 2 => (s.quarStart k).pathEvent k 2
  | _ => (s.putB (pjR k) HRD_PI_JSTAT_PATHS false).showOffset k

def asymResults (s : State) : State :=
  let l := s.prism.asymOut
  let s := { s with prism := { s.prism with asymOut := [] } }
  l.foldl (fun s e => s.asymResult e.1 e.2) s

/-- Quarantine ends with this tick (R509). -/
def quarDue (s : State) (k : Nat) : Bool := Option.any (fun (t : Nat) => t ≤ s.prism.tick + 1) (s.pi k).quarEnd

def quarEnd (s : State) (k : Nat) : State :=
  if !s.quarDue k then s else
  let q := (s.pi k).q
  let s := s.setPi k (fun x => { x with q := 0, quarEnd := none })
  let s := ((s.showQ k).putB (pjR k) HRD_PI_JSTAT_QUARN false).put (pjR k) HRD_PI_JSTAT_QLEFT 0
  let s := s.putB (pjR k) HRD_PI_JSTAT_PATHS false
  if 65536 ≤ q.natAbs then s.addRes (36 + k) 6 true else s

/-- A change of the asymmetry of the parent's port: o moves by the opposite amount, and in quarantine q with it
(R510). -/
def asymChanged (s : State) (k : Nat) (p : Option Nat) (delta : Int) : State :=
  let hit : Bool := match (s.pi k).parent with
    | some x => match p with | some q => x.port = q | none => true
    | none => false
  if !hit then s else
  let s := if (s.pi k).quarEnd.isSome then (s.setPi k (fun x => { x with q := x.q - delta * 256 })).showQ k else s
  s.showOffset k

/-! ## Commands -/

/-- ASYM_SET (R510). -/
def asymSet (s : State) (k p op : Nat) (amount : Int) : State :=
  let b := pjR k
  if op = 0 then
    let old := s.getI b (HRD_PI_ASYM_ASYM.at p)
    (s.putI b (HRD_PI_ASYM_ASYM.at p) amount).asymChanged k (some p) (amount - old)
  else
    let old := s.getI b HRD_PI_PCOR_PCOR
    (s.putI b HRD_PI_PCOR_PCOR 0).asymChanged k none (-old)

/-- The two instances may not be enabled together on a shared port (R468). -/
def piClash (s : State) (k ports trans domain : Nat) : Bool :=
  (List.range 8).any (fun j => j != k && s.on (piR j) HRD_PI_CFG_EN &&
    (s.get (piR j) HRD_PI_CFG_PORTS &&& ports) != 0 && s.get (piR j) HRD_PI_CFG_TRANS = trans &&
    s.get (piR j) HRD_PI_CFG_DOMAIN = domain)

/-- PTP_INST at its boundary (R487). -/
def ptpInst (s : State) (k : Nat) (pl : List Byte) : State × Bool :=
  let w := fun (i : Nat) => leAt pl (4 * i) 4
  let en := bitsOf (w 0) 0 1 = 1
  if en && s.piClash k (bitsOf (w 0) 9 4) (bitsOf (w 0) 7 2) (bitsOf (w 0) 13 8) then (s, false) else
  let old := fun (i : Nat) => (s.reg (piR k + i)).toNat
  let was := fun (i : Nat) => if i = 0 then old 0 / 2 else old i
  let before := (was 0, was 4, was 5)
  let s := (List.range 6).foldl (fun s i => s.putWord (piR k + i) (w i)) s
  let now := fun (i : Nat) => let v := (s.reg (piR k + i)).toNat; if i = 0 then v / 2 else v
  (if (s.pi k).on && before != (now 0, now 4, now 5) then s.piRestart k else s, true)

/-- SESS_ADD at its boundary (R513). -/
def sessAdd (s : State) (pl : List Byte) : State × Bool :=
  let b0 := leAt pl 0 1
  let k := bitsOf b0 2 3
  let p := bitsOf b0 5 2
  let req := bitsOf b0 1 1 = 1
  let x : Sess := { request := req, inst := k, port := p, origin := false, addr := leAt pl 8 16
                    clk := leAt pl 26 8, pnum := leAt pl 24 2
                    minl := (List.range 3).map (fun i => signed (leAt pl (36 + i) 1) 8) }
  let n := (s.hrd.sess.filter (fun e => e.2.request && e.2.inst = k && e.2.port = p)).length
  if !s.seOn || !s.piUnicast k || !s.piUses k p || (s.sessOf k p x.addr).isSome || (req && 8 ≤ n) then (s, false) else
  match s.sessPlace x with
  | none => (s.bump hrcR HRD_SE_CNT_ADDFAIL, false)
  | some (slot, s) => ((s.put hrcR HRD_SE_LAST_SLOT slot).putB hrcR HRD_SE_LAST_VALID true, true)

/-- SESS_DEL at its boundary (R514). -/
def sessDel (s : State) (slot : Nat) : State × Bool :=
  match s.sess? slot with
  | none => (s, false)
  | some x =>
    let s := (List.range 3).foldl (fun s t => if (x.grants.getD t none).isSome then s.signal slot x 2 ⟨t, 0, 0⟩ else s) s
    let s := (s.sessStore slot x false).setHrd (fun h => { h with sess := memDel h.sess slot })
    let s := if s.isParentSlot x.inst slot then s.loseParent x.inst else s
    let s := s.setPiPort x.inst x.port (fun q => { q with foreign := q.foreign.filter (fun f => f.slot != some slot) })
    (s.syncSess, true)

/-- ACCEPT_STEP other than a forward step: what it asks of the LTC, if anything (R506). -/
inductive Accept
  | step (sec ns : Nat) | ok | inval

/-- What ACCEPT_STEP comes to at its boundary, before its effect. -/
def acceptKind (s : State) (k act : Nat) : Accept :=
  if !s.on (pjR k) HRD_PI_JSTAT_REFUSED then .inval
  else if act = 1 then .ok
  else if !s.on glbR GLB_TIMECHAN_EN then .inval
  else
    let c := (s.pi k).c
    if 0 < c then .step ((toNs c).toNat / 1000000000) ((toNs c).toNat % 1000000000) else .ok

/-- Refusal ends. -/
def acceptEnd (s : State) (k : Nat) : State :=
  (s.putB (pjR k) HRD_PI_JSTAT_REFUSED false).setPi k (fun x => { x with good := 0 })

/-- ACCEPT_STEP without a forward step (R506): the accepted offset, or a backward correction slewed. -/
def acceptApply (s : State) (k act : Nat) : State × Bool :=
  let c := (s.pi k).c
  if act = 1 then (((s.setPi k (fun x => { x with a := x.a + c })).acceptEnd k).showA k, true) else
  match s.timeChan with
  | none => (s, false)
  | some t =>
    let (s, ok) := s.chanPhase t 1 c
    if !ok then (s, false) else (((s.setPi k (fun x => { x with a := 0 })).acceptEnd k).showA k, true)

end State

end Sys2Proof.Machine
end

