-- ==== Sys2Proof/Machine/HeraldTx.lean ====
section
/-! DEFINITION. Herald's transmissions: due messages, tokens, deferral, overrun, and its work at a boundary (R42, R63,
R471, R499, R500). -/

namespace Sys2Proof.Machine.State

/-- A message of a schedule falls due in this tick (R499): with its sequenceId. -/
def schedDue (s : State) (slot : Nat) (l : Int) : Option Nat :=
  let p : Int := ivlTicks l
  let d : Int := (s.tn : Int) - (slot : Int)
  if d % p = 0 then some (unsigned (d / p) 16) else none

/-- The scheduled messages of a multicast instance on a port, kind by kind (R471). -/
def portMsgs (s : State) (kind k p : Nat) : List Msg :=
  if !(s.pi k).on || !s.piUses k p then [] else
  let st := s.ps k p
  let b := piR k
  let on : Bool := match kind with
    | 2 => st = 6
    | 3 => st = 6
    | 4 => !s.piP2P k && (st = 8 || st = 9)
    | 5 => s.piP2P k && st != 0 && st != 2 && st != 3
    | _ => false
  let l : Int := match kind with
    | 2 => s.getI b HRD_PI_IVL_LSYNC
    | 3 => s.getI b HRD_PI_IVL_LANN
    | _ => s.getI b HRD_PI_IVL_LDREQ
  if !on || s.piUnicast k then [] else
  match s.schedDue 0 l with
  | some q => [{ kind := kind, inst := k, port := p, slot := none, seq := q }]
  | none => []

/-- A message by ascending slot among those of its kind, a multicast one first (R499). -/
def insertMsg (m : Msg) : List Msg → List Msg
  | [] => [m]
  | x :: l => if m.slot.getD 0 ≤ x.slot.getD 0 then m :: x :: l else x :: insertMsg m l

/-- The scheduled messages of a session (R471, R499): a serve session's Sync and Announce, the Delay_Req of a parent. -/
def sessMsgs (s : State) (kind slot : Nat) (x : Sess) : List Msg :=
  let t := match kind with | 2 => some 1 | 3 => some 0 | 4 => some 2 | _ => none
  match t with
  | none => []
  | some t =>
    let st := s.ps x.inst x.port
    let serves := !x.request && 4 ≤ st && !s.masterBarred x.inst
    let on : Bool := if kind = 4 then x.request && s.isParentSlot x.inst slot && (st = 8 || st = 9) else serves
    match x.grants.getD t none with
    | none => []
    | some g =>
      if !on || !(s.pi x.inst).on then [] else
      match Option.bind (if s.tn < g.start then g.old else some g.l) (s.schedDue slot) with
      | some q => [{ kind := kind, inst := x.inst, port := x.port, slot := some slot, seq := q }]
      | none => []

/-- The new messages of a kind in this tick, in ascending slot: answers and Signaling that wait, and the schedules. A port held
LISTENING for want of the key sends nothing (R470), and the session engine only while it is enabled (R516). -/
def newMsgs (s : State) (kind : Nat) : List Msg :=
  ((s.hrd.queue.filter (fun m => m.kind = kind && (m.kind != 0 || m.sig = 0)) ++
    ((List.range 8).map (fun k => ((List.range 4).map (fun p => s.portMsgs kind k p)).flatten)).flatten ++
    (s.hrd.sess.map (fun e => s.sessMsgs kind e.1 e.2)).flatten).filter (fun m =>
      !s.silent m.inst m.port && (m.slot.isNone || s.seOn))).foldr insertMsg []

/-- What is still to be sent in this tick, in the order of R42 and R499. -/
def dueMsgs (s : State) : List Msg :=
  if !s.heraldRuns then [] else
  ((List.range 7).map (fun kind =>
    let late := (s.hrd.deferred.map (·.1)).filter (fun m => m.kind = kind)
    (late ++ (s.newMsgs kind).filter (fun m => !late.contains m)).filter (fun m => !s.hrd.done.contains m))).flatten

/-- Messages a transmission puts on the wire: a two-step Sync and Pdelay_Resp bring their Follow_Up. -/
def msgCount (s : State) (m : Msg) : Nat := if (m.kind = 1 || m.kind = 2) && s.piTwoStep m.inst then 2 else 1

/-- The aggregate allowance of a tick (R20, R500). -/
def aggCap (s : State) : Nat := match s.variant with | .gsy8712 => 375 | _ => 500

def msgDone (s : State) (m : Msg) : State :=
  s.setHrd (fun h => { h with done := h.done ++ [m], queue := h.queue.erase m, deferred := h.deferred.filter (fun e => e.1 != m) })

/-- One's complement sum of 16-bit words, as the UDP checksum has it. -/
def onesSum (l : List Nat) : Nat := l.foldl (fun a w => (a + w) % 65536 + (a + w) / 65536) 0

/-- The words that t1 puts into a one-step Sync: seconds and nanoseconds of originTimestamp, the fraction in
correctionField (R461). -/
def t1Words (ns frac : Int) : List Nat :=
  let sec := ns.toNat / 1000000000
  let n := ns.toNat % 1000000000
  [sec / 2 ^ 32 % 65536, sec / 65536 % 65536, sec % 65536, n / 65536, n % 65536, frac.toNat]

/-- The message as it leaves: its stamp, the LTC time it carries, its VLAN tag, the correction of the UDP checksum (R459, R461,
R471). -/
def ptpOut (s : State) (m : Msg) (pos : Nat) : PtpOut :=
  let stamp := s.egress m.port pos
  let t : Int := match m.kind with
    | 0 => m.rx
    | 1 => m.rx
    | 2 => stamp
    | _ => 0
  { msg := m, two := (m.kind = 1 || m.kind = 2) && s.piTwoStep m.inst, ns := t / 65536, frac := t % 65536, stamp := stamp,
    vlan := if s.on (hrpR m.port) HRD_PORT_CFG_VEN then
        some (s.get (hrpR m.port) HRD_VLAN_VID, s.get (hrpR m.port) HRD_VLAN_PCP)
      else none
    udp := if m.kind = 2 && !s.piTwoStep m.inst && s.get (piR m.inst) HRD_PI_CFG_TRANS != 0 then
        some (onesSum (t1Words (t / 65536) (t % 65536)))
      else none }

/-- What a sent message does: what left, counters, the Announce it carries, the stamp a delay request keeps. -/
def msgSent (s : State) (m : Msg) (pos : Nat) : State :=
  let b := hrpR m.port
  let two := s.piTwoStep m.inst
  let out := s.ptpOut m pos
  let s := s.setHrd (fun h => { h with ptpTx := some out })
  let keep := fun (s : State) => s.setPi m.inst (fun x =>
    { x with dreqs := (⟨m.port, m.seq, out.stamp, none⟩ :: x.dreqs).take 16 })
  match m.kind with
  | 0 => s.bump b HRD_TX_DRESP_COUNT
  | 1 => s.bump b HRD_TX_PDLY_COUNT (if two then 2 else 1)
  | 2 => if two then (s.bump b HRD_TX_SYNC_COUNT).bump b HRD_TX_FUP_COUNT else s.bump b HRD_TX_SYNC_COUNT
  | 3 => (s.bump b HRD_TX_ANN_COUNT).setPi m.inst (fun x => { x with annOut := some (s.announceOut m.inst) })
  | 4 => keep (s.bump b HRD_TX_DREQ_COUNT)
  | 5 => keep (s.bump b HRD_TX_PDLY_COUNT)
  | _ => s.bump b HRD_TX_SIG_COUNT

/-- A due message is sent, deferred for want of tokens, or skipped for want of its entry (R495, R500). -/
def msgSend (s : State) (m : Msg) (pos : Nat) : State :=
  let needs : Bool := match m.slot with | some n => (s.sess? n).isSome && !s.hrd.cache.contains n | none => false
  if needs && m.kind != 6 then (s.bump (hrpR m.port) HRD_SKIP_SLOW_COUNT).msgDone m else
  let s := match m.slot with | some n => if s.hrd.cache.contains n then s.cacheTouch n else s | none => s
  let n := s.msgCount m
  if 2 * n ≤ s.hrd.tokens.getD m.port 0 && s.hrd.sent + n ≤ s.aggCap then
    let s := s.setHrd (fun h => { h with tokens := h.tokens.modify m.port (· - 2 * n), sent := h.sent + n })
    (s.msgSent m pos).msgDone m
  else if s.hrd.deferred.any (fun e => e.1 = m) then s.setHrd (fun h => { h with done := h.done ++ [m] })
  else
    (s.bump (hrpR m.port) HRD_DEFER_COUNT).setHrd (fun h =>
      { h with done := h.done ++ [m], queue := h.queue.erase m, deferred := h.deferred ++ [(m, s.prism.tick)] })

/-- MESSAGE_DUE: the message, if it is the next due in this tick in the order of R42 and R499. -/
def messageDue (s : State) (m : Msg) (pos : Nat) : State :=
  if s.dueMsgs.head? = some m then s.msgSend m (min pos (s.tickLeft * 65536 - 1)) else s

/-- A message deferred for 8 ticks (R500). -/
def skipDue (s : State) (m : Msg) : Bool := s.hrd.deferred.any (fun e => e.1 = m && e.2 + 8 ≤ s.prism.tick)

def messageSkip (s : State) (m : Msg) : State :=
  if s.skipDue m then (s.bump (hrpR m.port) HRD_SKIP_RATE_COUNT).msgDone m else s

/-! ## Frames from the host (R486) -/

/-- The oldest waiting frame leaves its port when it finds tokens and no PTP message of the port is still to be sent. -/
def txReady (s : State) (d : Desc) : Bool :=
  s.heraldRuns && s.portLink d.target && d.len * 256 ≤ s.hrd.txTok && s.dueMsgs.all (fun m => m.port != d.target)

def frameSent (s : State) (ring : Nat) : State :=
  match s.hrd.txq.find? (fun d => d.ring == ring) with
  | none => s
  | some d =>
    if !s.txReady d then s else
    let raw := (d.payload.getD []).take d.len
    let s := s.setHrd (fun h => { h with
      txTok := h.txTok - d.len * 256, txq := h.txq.erase d, hostTx := some (d.target, raw ++ leBytes 4 (crc32 raw)) })
    s.finish d .ok s.tn

/-- What is due in the tick that ends and no command has asked for; where in the tick it left is open (log entry 14). -/
def heraldDue (s : State) : State :=
  let s := (s.hrd.deferred.map (·.1)).foldl messageSkip s
  let s := (s.dueMsgs).foldl (fun s m =>
    let (x, s) := s.fresh 31
    s.msgSend m (x % (s.tickLeft * 65536))) s
  let s := (List.range 8).foldl (fun s k => ((s.announceTimeout k).syncTimeout k).quarEnd k) s
  let s := (List.range s.nHrd).foldl (fun s p => ((s.esmcTimeout p).esmcInfo p).esmcEvent p) s
  s.sessDue

/-- Herald overran (R63): what it had not reached is dropped; `rx` counts the received frames lost, by port. -/
def heraldOverrun (s : State) (rx : List Nat) : State :=
  let s := (s.dueMsgs).foldl (fun s m =>
    ((s.bump (hrpR m.port) HRD_SKIP_OVR_COUNT (s.msgCount m)).bump glbR GLB_OVR_HRD_TXSKIP (s.msgCount m)).msgDone m) s
  let s := (List.range s.nHrd).foldl (fun s p =>
    if s.esmcInfoDue p || s.esmcEventDue p then
      ((s.bump (hrpR p) HRD_SKIP_OVR_COUNT).bump glbR GLB_OVR_HRD_TXSKIP).setEsmc p (fun x => { x with
        event := false, lastTx := if s.esmcInfoDue p then some s.ltc.sec else x.lastTx })
    else s) s
  (List.range s.nHrd).foldl (fun s p =>
    let n := rx.getD p 0
    (s.bump (hrpR p) HRD_SKIP_OVR_COUNT n).bump glbR GLB_OVR_HRD_RXDROP n) s

/-- Qualities that Herald supplies (R198). An instance without a parent has its assigned clockClass (log entry 67). -/
def heraldQuality (s : State) : State :=
  let s := (List.range s.nHrd).foldl (fun s p =>
    let i := 32 + p
    s.setQuality i (if s.esmcOn p then s.get (hrpR p) HRD_ESMC_STATUS_RXQL else s.assignedQl i) (s.assignedCc i)) s
  (List.range s.nPi).foldl (fun s k =>
    let i := 36 + k
    s.setQuality i (s.assignedQl i) (match (s.pi k).parent with | some p => p.ann.cc | none => s.assignedCc i)) s

/-- The ports and the port states of the instances, as they come into force at a boundary. -/
def heraldStates (s : State) (held : Bool) : State :=
  (List.range 8).foldl (fun s k => s.piStates held k) ((List.range s.nHrd).foldl portStops s)

/-- Herald at a boundary: allowances, cancelled grants, instances, ESMC. -/
def heraldBoundary (s : State) : State :=
  if s.nHrd = 0 then s else
  let rate := bucketStep (s.get hrcR HRD_MGMT_RATE)
  let depth := s.get hrcR HRD_MGMT_BURST * 1024 * 256
  let s := s.setHrd (fun h => { h with
    tokens := h.tokens.map (fun t => min 750 (t + 375)), sent := 0, done := [], reads := 0, looked := [], looked' := h.looked
    rxTok := min depth (h.rxTok + rate), txTok := min depth (h.txTok + rate)
    queue := h.queue.map (fun (m : Msg) => if m.kind = 0 then { m with sig := 0 } else m) })
  let gone := s.hrd.cancels
  let s := s.setHrd (fun h => { h with cancels := [] })
  let s := gone.foldl (fun s e => s.setSess e.1 (fun x => setGrant x e.2 none)) s
  let s := (List.range 8).foldl piBoundary s
  let s := s.setHrd (fun h => { h with queue := h.queue.filter (fun (m : Msg) => !s.silent m.inst m.port && (m.slot.isNone || s.seOn)) })
  let s := (List.range 8).foldl (fun s k => match (s.pi k).quarEnd with
    | some t => s.put (pjR k) HRD_PI_JSTAT_QLEFT ((t - s.prism.tick + 31999) / 32000)
    | none => s) s
  (List.range s.nHrd).foldl (fun s p => (s.esmcBoundary p).putB (hrpR p) HRD_PORT_STATUS_TXLOOM (s.txLoomNow p)) s

/-- The restart of Herald (R608): every enabled instance restarts, ports stay up. -/
def heraldRestart (s : State) : State :=
  (List.range 8).foldl (fun s k => if (s.pi k).on then s.piRestart k else s) s

end Sys2Proof.Machine.State
end

