-- ==== Sys2Proof/Machine/Polsis.lean ====
section
/-! DEFINITION. The Polsis link: links, lanes, swaps, time frames, the tunnel (R518–R539). -/

namespace Sys2Proof

/-! ## Frames as bytes, in network order (R8, R521–R523, R555, R556) -/

/-- A frame's bytes with the CRC-32 over them behind (R521). -/
def withCrc (l : List Byte) : List Byte := l ++ beBytes 4 (Machine.crc32 l)

/-- CRC and VER are right (R521). -/
def frameValid (l : List Byte) : Bool :=
  let n := l.length - 4
  4 < l.length && beAt l 1 1 = 1 && beAt l n 4 = Machine.crc32 (l.take n)

def TimeFrame.bytes (f : TimeFrame) : List Byte :=
  withCrc (beBytes 1 1 ++ beBytes 1 1 ++ beBytes 3 f.origin ++ beBytes 1 f.hops ++ beBytes 8 f.otn ++ beBytes 6 f.sec ++
    beBytes 4 f.ns ++ beBytes 2 f.frac ++ beBytes 6 f.acclat ++ beBytes 1 f.ql ++ beBytes 1 f.cc ++ beBytes 1 f.qual ++
    beBytes 1 f.utcf ++ beBytes 2 f.utcoff ++ beBytes 6 0)

def TimeIn.valid (m : TimeIn) : Bool := frameValid m.raw

/-- The fields a received time frame spells. -/
def TimeIn.f (m : TimeIn) : TimeFrame :=
  let v := beAt m.raw
  { origin := v 2 3 % 2 ^ 20, hops := v 5 1, otn := v 6 8, sec := v 14 6, ns := v 20 4 % 2 ^ 30, frac := v 24 2,
    acclat := v 26 6, ql := v 32 1 % 16, cc := v 33 1, qual := v 34 1 % 128, utcf := v 35 1 % 8, utcoff := v 36 2 }

/-- The frame as it is forwarded: HOPS and ACCLAT are new, with the CRC, and every other field is unchanged (R532). -/
def TimeIn.forwarded (m : TimeIn) (acclat : Nat) : List Byte :=
  withCrc (m.raw.take 5 ++ beBytes 1 (min 255 (m.f.hops + 1)) ++ (m.raw.drop 6).take 20 ++ beBytes 6 acclat ++ (m.raw.drop 32).take 12)

/-- KIND, FNUM, LEN and EPOCH of a fragment (R556, R557). -/
def Frag.head : Frag → Nat × Nat × Nat × Nat
  | .ltc e .. => (0x10, 0, 48, e)
  | .refs e _ => (0x11, 0, 256, e)
  | .chan e c => (0x12, c.num, 112, e)
  | .hearth e n _ => (0x13, n, 256, e % 65536)

def Frag.bytes (f : Frag) : List Byte :=
  let (k, n, len, e) := f.head
  beBytes 1 k ++ beBytes 1 n ++ beBytes 2 len ++ beBytes 4 e ++ (List.range len).map (Config.fragByte f)

/-- The Mirror bytes of a link frame (R555). -/
def MirIn.bytes (m : MirIn) : List Byte :=
  beBytes 1 1 ++ beBytes 1 (m.key.toNat + 2 * m.prio.toNat + 4 * m.shosc.toNat + 16 * m.mode) ++ beBytes 1 m.frags.length ++
    beBytes 1 0 ++ beBytes 4 m.epoch ++ beBytes 2 m.hepoch ++ beBytes 6 0 ++ (m.frags.map Frag.bytes).flatten

def Machine.LinkOut.bytes (f : Machine.LinkOut) : List Byte :=
  let mir := match f.mir with | some h => h.bytes | none => []
  withCrc (beBytes 1 2 ++ beBytes 1 1 ++ beBytes 3 f.node ++
    beBytes 1 (f.role + 8 * f.orient.toNat + 16 * f.cal.toNat + 32 * f.step.toNat + 64 * f.leader.toNat) ++ beBytes 2 f.seq ++
    beBytes 8 f.txprev ++ beBytes 2 f.pseq ++ beBytes 8 f.rxpeer ++ beBytes 1 f.swapcnt ++ beBytes 1 0 ++
    beBytes 2 mir.length ++ beBytes 2 f.tun.length ++ mir ++ f.tun)

def LinkIn.valid (m : LinkIn) : Bool := frameValid m.raw
def LinkIn.node (m : LinkIn) : Nat := beAt m.raw 2 3 % 2 ^ 20
def LinkIn.role (m : LinkIn) : Nat := beAt m.raw 5 1 % 8
def LinkIn.step (m : LinkIn) : Bool := (beAt m.raw 5 1).testBit 5
def LinkIn.seq (m : LinkIn) : Nat := beAt m.raw 6 2
def LinkIn.txprev (m : LinkIn) : Nat := beAt m.raw 8 8
def LinkIn.pseq (m : LinkIn) : Nat := beAt m.raw 16 2
def LinkIn.rxpeer (m : LinkIn) : Nat := beAt m.raw 18 8
def LinkIn.swapcnt (m : LinkIn) : Nat := beAt m.raw 26 1
def LinkIn.mirBytes (m : LinkIn) : List Byte := (m.raw.drop 32).take (beAt m.raw 28 2)
def LinkIn.tun (m : LinkIn) : List Byte := (m.raw.drop (32 + beAt m.raw 28 2)).take (beAt m.raw 30 2)

/-- The Mirror header it carries, with its fragments (R555). -/
def LinkIn.mir (m : LinkIn) : Option MirIn :=
  let l := m.mirBytes
  let fl := beAt l 1 1
  if l.length < 16 then none
  else some ⟨fl.testBit 0, fl.testBit 1, fl.testBit 2, fl / 16, beAt l 4 4, beAt l 8 2, m.frags.take (beAt l 2 1)⟩

end Sys2Proof

namespace Sys2Proof.Machine

/-- Units of 2⁻¹⁶ ns in a second. -/
def sec16 : Int := 1000000000 * 65536

/-- A difference of stamps modulo 2⁶⁴, signed (R523). -/
def stampDiff (a b : Int) : Int := signed (unsigned (a - b) 64) 64

/-- The role pairs between which a link comes up (R519). -/
def plkCompatible (a b : Nat) : Bool := (a = 1 && b = 2) || (a = 2 && b = 1) || (a = 3 && b = 3) || (a = 4 && b = 4)

namespace State

def plkP (s : State) (p : Nat) : PlkPort := s.plk.ports.getD p {}
def setPlk (s : State) (p : Nat) (f : PlkPort → PlkPort) : State :=
  { s with plk := { s.plk with ports := s.plk.ports.modify p f } }

def plkNode (s : State) : Nat := s.get glb1R GLB_PLK_CFG_NODE
def plkRoleReg (s : State) (p : Nat) : Nat := s.get (plkR p) PLK_PORT_CFG_ROLE
def plkRole (s : State) (p : Nat) : Nat := if (s.plkP p).on then (s.plkP p).role else s.plkRoleReg p
def plkUp (s : State) (p : Nat) : Bool := s.on (plkR p) PLK_STATUS_LINK
def plkCal (s : State) (p : Nat) : Bool := s.on (plkR p) PLK_STATUS_CAL
def plkLeader (s : State) (p : Nat) : Bool := s.on (plkR p) PLK_STATUS_LEADER
def plkFit (s : State) : Nat := s.get glb1R GLB_PLK_SWAP_FIT

/-- LTC time in 2⁻¹⁶ ns at the last boundary. -/
def now16 (s : State) : Int := qdiv (s.ltcRaw 0) (2 ^ 16)

/-- The port receives on lane 0 (R525): the leader does in orientation 1, the follower in orientation 0. -/
def plkRx0 (s : State) (p : Nat) : Bool := s.plkLeader p == s.on (plkR p) PLK_STATUS_ORIENT

/-- d_rx (R524), 2⁻¹⁶ ns. -/
def plkDrx (s : State) (p : Nat) : Int :=
  let x := s.plkP p
  if x.dm.isEmpty then 0 else
  let mean : Rat := (x.dm.foldl (· + ·) 0 : Int) / (x.dm.length : Rat)
  Config.quant (if s.plkRx0 p then mean + (x.dhat : Rat) / 2 else mean - (x.dhat : Rat) / 2)

def showDelay (s : State) (p : Nat) : State :=
  (s.putSatI (plkR p) PLK_DELAY_DRX (qdiv (s.plkDrx p) 256)).putSatI (plkR p) PLK_ASYM_DHAT (qdiv (s.plkP p).dhat 256)

/-! ## Link state (R519, R520, R527) -/

/-- A link that is up goes down; whatever depended on it goes. -/
def plkDown (s : State) (p cause : Nat) : State :=
  let was := s.plkUp p
  let b := plkR p
  let s := ((s.putB b PLK_STATUS_LINK false).putB b PLK_STATUS_CAL false).putB b PLK_STATUS_ORIENT false
  let s := ((s.putB b PLK_STATUS_GAP false).putB b PLK_STATUS_OLOCK false).putB b PLK_STATUS_LEADER false
  let s := s.setPlk p (fun x => { x with
    good := 0, miss := 0, dm := [], theta := none, ths := [], swapAt := [], gap := none, before := none, after := none
    calib := false, pre := false, samp := none, rx := none, rxStep := false, pseq := none })
  let s := s.showDelay p
  if was then s.raise (104 + p) 0 (cause * 2) else s

/-- Calibration starts (R527): the leader holds orientation 0 for FIT seconds and then swaps; from orientation 1 it
swaps once to get there, and a gap that runs ends first (log entry 19). -/
def plkCalStart (s : State) (p : Nat) : State :=
  let s := s.putB (plkR p) PLK_STATUS_CAL false
  let o1 := s.on (plkR p) PLK_STATUS_ORIENT
  let t := s.prism.tick
  let gap := s.on (plkR p) PLK_STATUS_GAP
  let s := s.setPlk p (fun x => { x with
    calib := true, dhat := 0, ths := [], pre := gap || (o1 && s.plkLeader p)
    gap := if gap then x.gap else none, before := none, after := none
    swapAt := if gap || !s.plkLeader p then [] else [if o1 then t + 32 else t + max 1 s.plkFit * 32000] })
  s.showDelay p

/-- A gap that was no calibration's swap has ended: the leader holds orientation 0, or swaps to it first. -/
def plkHold (s : State) (p : Nat) : State :=
  let o1 := s.on (plkR p) PLK_STATUS_ORIENT
  let leads := s.plkLeader p
  let t := s.prism.tick
  s.setPlk p (fun x => { x with
    pre := o1 && leads, gap := none, ths := []
    swapAt := if !leads then x.swapAt else [if o1 then t + 32 else t + max 1 s.plkFit * 32000] })

/-- Enough has arrived for the link to come up; that both lanes are aligned is the command's own word (R519). -/
def plkUpDue (s : State) (p : Nat) : Bool := p < s.nPlk && (s.plkP p).on && !s.plkUp p && 32 ≤ (s.plkP p).good

def plkLinkUp (s : State) (p : Nat) : State :=
  if !s.plkUpDue p then s else
  let b := plkR p
  let leads : Bool := match s.plkRole p with
    | 2 => true
    | 1 => false
    | _ => s.plkNode < s.get b PLK_STATUS_PEER
  let s := (s.putB b PLK_STATUS_LINK true).putB b PLK_STATUS_LEADER leads
  let s := s.setPlk p (fun x => { x with up := s.prism.tick, miss := 0, got := true })
  ((s.plkCalStart p).setPlk p (fun x => { x with swapAt := x.swapAt.map (· + 1) })).raise (104 + p) 0 1

/-- With this tick, 16 in a row have passed without a valid link frame, gaps not counted (R519). -/
def plkDownDue (s : State) (p : Nat) : Bool :=
  s.plkUp p && !(s.plkP p).got && !s.on (plkR p) PLK_STATUS_GAP && 16 ≤ (s.plkP p).miss + 1

def plkLinkDown (s : State) (p : Nat) : State := if s.plkDownDue p then s.plkDown p 0 else s

/-! ## Swaps and asymmetry (R525, R526) -/

/-- A fit of θ_raw at the boundary that started the gap; none with fewer than 1,000 exchanges. -/
def plkFitAt (x : PlkPort) (at' : Int) : Option Rat :=
  if x.ths.length < 1000 then none else some (lsq (x.ths.map (fun e => (((e.1 - at' : Int) : Rat), ((e.2 : Int) : Rat))))).2

/-- The lanes turn during the silence. -/
def plkSwapDue (s : State) (p : Nat) : Bool := s.on (plkR p) PLK_STATUS_GAP && !(s.plkP p).turned

def laneSwap (s : State) (p : Nat) : State :=
  if !s.plkSwapDue p then s else
  let o := s.on (plkR p) PLK_STATUS_ORIENT
  (((s.putB (plkR p) PLK_STATUS_ORIENT (!o)).bump (plkR p) PLK_CNT2_SWAPS).setPlk p (fun x => { x with turned := true })).showDelay p

/-- The window after a swap ends with this tick (R526). -/
def plkWindowDue (s : State) (p : Nat) : Bool :=
  Option.any (fun (t : Nat) => t + s.plkFit * 32000 ≤ s.prism.tick + 1) (s.plkP p).after

/-- The jump of θ_raw at the swap, signed for lane 0 (R526). -/
def plkJump (s : State) (p : Nat) : Option Rat :=
  let x := s.plkP p
  match x.before, plkFitAt x x.gapT with
  | some b, some a => some (if x.rx0 then a - b else b - a)
  | _, _ => none

def plkWindowOver (s : State) (p : Nat) : State :=
  s.setPlk p (fun x => { x with after := none, gap := none, before := none })

/-- The update of Δ̂ of a calibrated port. -/
def asymmetryUpdate (s : State) (p : Nat) : State :=
  if !s.plkWindowDue p || !s.plkCal p then s else
  match s.plkJump p with
  | none => s.plkWindowOver p
  | some j =>
    let dev := j - (s.plkP p).dhat
    let step : Rat := (s.get glb1R GLB_PLK_SWAP_ASTEP : Rat) * 65536 / 10
    let s := s.plkWindowOver p
    let s := if step < ratAbs dev then
        ((s.setPlk p (fun x => { x with dhat := Config.quant j })).bump (plkR p) PLK_CNT2_AMISS).addRes (44 + p) 6 true
      else s.setPlk p (fun x => { x with dhat := x.dhat + Config.quant (dev / ((2 ^ s.get glb1R GLB_PLK_SWAP_AF : Nat) : Rat)) })
    s.showDelay p

/-- The end of a calibration: Δ̂ is set and the port is calibrated; a window too thin starts it again. -/
def calibrationEnd (s : State) (p : Nat) : State :=
  if !s.plkWindowDue p || s.plkCal p then s else
  match s.plkJump p with
  | none => (s.plkWindowOver p).plkCalStart p
  | some j =>
    let s := (s.plkWindowOver p).setPlk p (fun x => { x with dhat := Config.quant j, calib := false })
    (s.putB (plkR p) PLK_STATUS_CAL true).showDelay p

/-! ## Link frames (R523, R524, R536, R537) -/

/-- A tunnel message as the FIFO gives it (R537). -/
def tunnelIn (s : State) (p : Nat) (bytes : List Byte) (pos : Nat) : State :=
  let (sec, ns16) := recTime s.ltc.sec (s.ltc.ns * 2 ^ 32 + s.ltc.frac + pos * 65536)
  if 16 ≤ (s.plkP p).fifo.length then s.bump (plkR p) PLK_TUN_STATUS_RXLOST else
  let (q, s) := s.nextSeq (0x4C + p)
  let r := timeRec sec ns16 (0x4C + p) 3 0 s.qual q
  let words := (List.range 4).map (fun i => r / 2 ^ (32 * i) % 2 ^ 32)
  let data := (List.range ((bytes.length + 3) / 4)).map (fun i => leAt bytes (4 * i) 4)
  let s := s.setPlk p (fun x => { x with fifo := x.fifo ++ [words ++ [bytes.length] ++ data] })
  s.put (plkR p) PLK_TUN_STATUS_RXCNT (s.plkP p).fifo.length

/-- A read of `PLK_TUN_RX_POP` (R537). -/
def tunnelPop (s : State) (p : Nat) : Nat × State :=
  match (s.plkP p).fifo with
  | (w :: ws) :: rest =>
    let s := s.setPlk p (fun x => { x with fifo := if ws.isEmpty then rest else ws :: rest })
    (w, s.put (plkR p) PLK_TUN_STATUS_RXCNT (s.plkP p).fifo.length)
  | _ => (0, s)

/-- A write of `PLK_TUN_TX`: false when it is beyond 60 words or while BUSY. -/
def tunnelWrite (s : State) (p w : Nat) : State × Bool :=
  if s.on (plkR p) PLK_TUN_TXCTL_BUSY || 60 ≤ (s.plkP p).tunTx.length then (s, false)
  else (s.setPlk p (fun x => { x with tunTx := x.tunTx ++ [w] }), true)

/-- SEND (R536): the message written so far, LEN bytes of it, waits for a link frame. What it carries beyond the bytes written
is open (log entry 65); while BUSY it has no effect (DESIGN CHOICE: log entry 19). -/
def tunnelSend (s : State) (p : Nat) : State :=
  let n := s.get (plkR p) PLK_TUN_TXCTL_LEN
  if n = 0 || s.on (plkR p) PLK_TUN_TXCTL_BUSY then s else
  let written := ((s.plkP p).tunTx.map (leBytes 4)).flatten.take n
  let (rest, s) := s.freshBytes (n - written.length)
  let bytes := written ++ rest
  (s.setPlk p (fun x => { x with tunOut := some bytes, tunTx := [] })).putB (plkR p) PLK_TUN_TXCTL_BUSY true

/-- The exchange that a link frame completes: its PSEQ is fresh, and the frame before it is the peer's last. A step of the peer
shows in this frame, or in that one where the peer heard this end before it (R524). -/
def plkExchange (s : State) (p : Nat) (m : LinkIn) (t : Int) : State :=
  let x := s.plkP p
  match x.tx.find? (fun e => e.1 == m.pseq), x.rx with
  | some (_, t1), some (q, t4) =>
    if (q + 1) % 65536 != m.seq || x.pseq = some m.pseq || m.step || (x.rxStep && stampDiff m.rxpeer m.txprev < 0) ||
      s.stepBetween t1 t4 then s else
    let a := stampDiff m.rxpeer t1
    let c := stampDiff t4 m.txprev
    let th := qdiv (a - c) 2
    let s := s.setPlk p (fun x => { x with
      pseq := some m.pseq, dm := (qdiv (a + c) 2 :: x.dm).take 32, theta := some th
      ths := (if x.gap.isSome && x.after.isNone then x.ths else
        x.ths.filter (fun e => t - s.plkFit * sec16 ≤ e.1) ++ [(t, th)]) })
    s.showDelay p
  | _, _ => s

/-- A link frame, but for its Mirror bytes (R519, R521, R523). -/
def linkFrame (s : State) (m : LinkIn) : State :=
  let p := m.port
  if s.nPlk ≤ p || !(s.plkP p).on then s else
  let b := plkR p
  if !m.valid then (s.bump b PLK_CNT0_CRCERR).setPlk p (fun x => { x with good := 0 }) else
  let s := (s.put b PLK_STATUS_PROLE m.role).put b PLK_STATUS_PEER m.node
  let same := m.node = s.plkNode
  if same || !plkCompatible (s.plkRole p) m.role then
    let s := (s.putB b PLK_STATUS_MISMATCH true).setPlk p (fun x => { x with good := 0 })
    if s.plkUp p then s.plkDown p (if same then 2 else 1) else s
  else
    let s := (s.putB b PLK_STATUS_MISMATCH false).setPlk p (fun x => { x with good := min 32 (x.good + 1), got := true, miss := 0 })
    let t := s.now16 + m.pos
    let s := s.plkExchange p m t
    let s := s.setPlk p (fun x => { x with rx := some (m.seq, t.toNat), rxStep := m.step })
    let s := if s.plkUp p && !s.plkLeader p then
        s.setPlk p (fun x => { x with swapAt := if m.swapcnt ≤ 31 then [s.prism.tick + m.swapcnt + 1] else [] }) else s
    if s.plkUp p && !m.tun.isEmpty then s.tunnelIn p m.tun m.pos else s

/-! ## Time frames (R529–R533) -/

/-- Ports a frame is forwarded or originated on (R529, R532). -/
def plkOut (s : State) (p : Nat) : Bool :=
  p < s.nPlk && s.plkUp p && s.plkCal p && (s.plkRole p = 2 || s.plkRole p = 3) && !s.on (plkR p) PLK_STATUS_GAP

def syncOrigs (s : State) : State := s.put glb1R GLB_PLK_STATUS_ORIGS s.plk.origs.length

/-- The residence of a forwarded frame: the path set in M5 holds it to 88 ns ± 2 ns (R528). -/
def residence (s : State) (r : Nat) : Nat := if s.plk.path then min (90 * 65536) (max (86 * 65536) r) else r

/-- A frame accepted is forwarded (R532). -/
def plkForward (s : State) (m : TimeIn) (acc : Nat) : State :=
  let outs := (List.range 4).filter (fun q => q != m.port && s.plkOut q)
  let known := s.plk.origs.find? (fun o => o.origin == m.f.origin)
  let outs := outs.filter (fun q => match known with
    | some o => match o.last.find? (fun e => e.1 == q) with | some (_, n) => n < m.f.otn | none => true
    | none => true)
  if outs.isEmpty then s
  else if known.isNone && 16 ≤ s.plk.origs.length then s.bump glb1R GLB_PLK_STATUS_DEDUPFULL
  else
    let o := known.getD ⟨m.f.origin, [], 0⟩
    let o := { o with last := outs.map (fun q => (q, m.f.otn)) ++ o.last.filter (fun e => !outs.contains e.1), tick := s.prism.tick }
    let s := { s with plk := { s.plk with origs := o :: s.plk.origs.filter (fun x => x.origin != m.f.origin) } }
    let s := outs.foldl (fun s q =>
      let r := s.residence (m.resid.getD q (88 * 65536))
      let s := s.setPlk q (fun x => { x with sentTime := some (m.forwarded (acc + r)) })
      s.put (plkR q) PLK_RES_RES (min 65535 (r / 256))) s
    s.syncOrigs

/-- The sample a frame of the locked origin gives, once a tick (R530). -/
def plkSample (s : State) (m : TimeIn) (acc : Nat) : State :=
  let p := m.port
  let b := plkR p
  if (s.plkP p).samp.isSome then s else
  let t := s.now16 + m.pos
  let ref : Int := m.f.sec * sec16 + m.f.ns * 65536 + m.f.frac + acc
  let s := s.setPlk p (fun x => { x with samp := some ⟨t - ref, t⟩, q := some (m.f.ql, m.f.cc) })
  let s := (s.put b PLK_ORIGIN_HOPS m.f.hops).put64 b PLK_ACC_LO_ACC PLK_ACC_HI_ACC acc
  s.utcCarried (44 + p) { offset := some m.f.utcoff, valid := some (m.f.utcf % 2 = 1),
                          leap61 := some (m.f.utcf / 2 % 2 = 1), leap59 := some (m.f.utcf / 4 % 2 = 1) }

/-- An origin is locked; a change of it fails the external monitor (R531). -/
def plkLock (s : State) (p origin : Nat) : State :=
  let b := plkR p
  if s.on b PLK_STATUS_OLOCK && s.get b PLK_ORIGIN_ORIGIN = origin then s else
  let changed : Bool := Option.any (fun (o : Nat) => o != origin) (s.plkP p).lastOrig
  let s := (s.putB b PLK_STATUS_OLOCK true).put b PLK_ORIGIN_ORIGIN origin
  let s := s.setPlk p (fun x => { x with lastOrig := some origin, origMiss := 0 })
  if changed then s.addRes (44 + p) 6 true else s

/-- A time frame arrives (R521, R530, R538). -/
def timeFrame (s : State) (m : TimeIn) : State :=
  let p := m.port
  let b := plkR p
  if s.nPlk ≤ p || !(s.plkP p).on then s else
  if !m.valid then s.bump b PLK_CNT0_CRCERR else
  if s.plkRole p = 2 || s.plkRole p = 4 then s.bump b PLK_CNT1_ROLEDISC else
  if !s.plkUp p || !s.inRun || !s.plkCal p then s else
  let acc := ((m.f.acclat : Int) + s.plkDrx p).toNat
  if m.f.origin = s.plkNode then s.bump b PLK_CNT1_OWNDISC
  else if s.get glb1R GLB_PLK_CFG1_LIFE * 65536 < acc then s.bump b PLK_CNT0_LIFEDISC
  else
    let forced := s.on b PLK_PORT_CFG_OSEL
    let s := if forced || s.on b PLK_STATUS_OLOCK then s else s.plkLock p m.f.origin
    let s := if s.on b PLK_STATUS_OLOCK && s.get b PLK_ORIGIN_ORIGIN = m.f.origin then
        (s.plkSample m acc).setPlk p (fun x => { x with origMiss := 0 })
      else s
    s.plkForward m acc

/-- With this tick, FLOSS in a row have passed without a sample (R533). -/
def frameLossDue (s : State) (p : Nat) : Bool :=
  p < s.nPlk && s.inRun && !(s.plkP p).lossDone && (s.plkP p).samp.isNone &&
    s.get (plkR p) PLK_PORT_CFG_FLOSS ≤ (s.plkP p).noSamp + 1

def frameLoss (s : State) (p : Nat) : State :=
  if s.frameLossDue p then (s.addRes (44 + p) 0 true).setPlk p (fun x => { x with lossDone := true }) else s

/-- FLOSS ticks without a frame of an unforced locked origin (R531). -/
def originReleaseDue (s : State) (p : Nat) : Bool :=
  p < s.nPlk && s.on (plkR p) PLK_STATUS_OLOCK && !s.on (plkR p) PLK_PORT_CFG_OSEL &&
    s.get (plkR p) PLK_PORT_CFG_FLOSS ≤ (s.plkP p).origMiss

def originRelease (s : State) (p : Nat) : State :=
  if s.originReleaseDue p then s.putB (plkR p) PLK_STATUS_OLOCK false else s

/-- 64 ticks in which no frame of a tracked origin was forwarded (R532). -/
def originFreeDue (s : State) (o : Nat) : Bool := s.plk.origs.any (fun x => x.origin = o && x.tick + 64 ≤ s.prism.tick)

def originFree (s : State) (o : Nat) : State :=
  if s.originFreeDue o then { s with plk := { s.plk with origs := s.plk.origs.filter (fun x => x.origin != o) } }.syncOrigs else s

/-! ## Ticks -/

/-- What is due in the tick that ends. -/
def plkDue (s : State) : State :=
  let s := (List.range s.nPlk).foldl (fun s p =>
    ((((s.plkLinkDown p).asymmetryUpdate p).calibrationEnd p).frameLoss p).originRelease p) s
  (s.plk.origs.map (·.origin)).foldl originFree s

/-- Samples and results of the Polsis indices for the tick that ends (R530, R533). -/
def plkSamples (s : State) : State :=
  if s.mode < 6 then s else
  (List.range s.nPlk).foldl (fun s p =>
    let i := 44 + p
    let s := match (s.plkP p).samp with
      | some x =>
        let v : Rat := s.ltc.ph * 500000000000 - s.carryAt i x.o x.t * 500 / 65536
        (s.addRes i 0 false).setRef i (fun r => { r with vs := some ((Config.quant v : Int) : Rat) })
      | none => s
    if s.plkUp p && s.plkCal p then s else s.addRes i 6 true) s

def plkQuality (s : State) : State :=
  (List.range s.nPlk).foldl (fun s p =>
    let (q, c) := (s.plkP p).q.getD (15, 248)
    s.setQuality (44 + p) q c) s

/-- Enables and the lanes at a boundary (R525, R538). -/
def plkPortBoundary (s : State) (p : Nat) : State :=
  let b := plkR p
  let role := s.plkRoleReg p
  let want := s.on b PLK_PORT_CFG_EN && role != 0 && 6 ≤ s.mode
  let x := s.plkP p
  let s := if want && !x.on then
      s.setPlk p (fun x => { (({} : PlkPort)) with on := true, role := role, step := x.step, lastOrig := x.lastOrig, fifo := x.fifo })
    else if !want && x.on then (s.plkDown p 3).setPlk p (fun x => { x with on := false })
    else if x.on && x.role != role then (s.plkDown p 3).setPlk p (fun x => { x with role := role })
    else s
  let t := s.prism.tick
  let s := s.setPlk p (fun x => { x with
    miss := if s.on b PLK_STATUS_GAP then x.miss else if x.got then 0 else x.miss + 1
    got := false, origMiss := x.origMiss + 1
    noSamp := if x.samp.isSome then 0 else x.noSamp + 1, lossDone := if x.samp.isSome then false else x.lossDone
    samp := none, theta := none })
  let s := if s.plkUp p && s.on b PLK_PORT_CFG_OSEL then s.plkLock p (s.get b PLK_ORIG_ORIG) else s
  let s := match (s.plkP p).gap with
    | some g =>
      if s.on b PLK_STATUS_GAP && g + 2 ≤ t then
        let s := (s.laneSwap p).putB b PLK_STATUS_GAP false
        if (s.plkP p).pre then s.plkHold p
        else s.setPlk p (fun x => { x with after := some t, ths := [] })
      else s
    | none => s
  let s := if s.plkUp p && (s.plkP p).swapAt.contains t && !s.on b PLK_STATUS_GAP then
      (s.putB b PLK_STATUS_GAP true).setPlk p (fun x => { x with
        gap := some t, gapT := s.now16, before := plkFitAt { x with ths := x.ths.filter (fun e => s.now16 - s.plkFit * sec16 ≤ e.1) } s.now16, rx0 := s.plkRx0 p, turned := false
        after := none })
    else s
  let s := s.setPlk p (fun x => { x with swapAt := x.swapAt.filter (t < ·) })
  let intv := s.get glb1R GLB_PLK_SWAP_INTV
  if s.plkUp p && s.plkLeader p && s.plkCal p && intv != 0 && s.tix = 31968 && (s.ltc.sec + 1) % intv = 0 then
    s.setPlk p (fun x => { x with swapAt := (t + 32) :: x.swapAt })
  else s

/-- The link frame of a boundary (R523, R536): `stamp` is how long after the boundary it left, 2⁻¹⁶ ns. -/
def linkSend (s : State) (p stamp : Nat) (mir : Option MirIn) : State :=
  let b := plkR p
  let x := s.plkP p
  let (out, s) := match x.tunOut with
    | some bytes =>
      if !s.plkUp p then ([], (s.setPlk p (fun x => { x with tunOut := none })).putB b PLK_TUN_TXCTL_BUSY false)
      else if s.on b PLK_STATUS_GAP then ([], s)
      else (bytes, (s.setPlk p (fun x => { x with tunOut := none })).putB b PLK_TUN_TXCTL_BUSY false)
    | none => ([], s)
  if !x.on || s.on b PLK_STATUS_GAP then s else
  let q := (x.seq + 1) % 65536
  let prev := match x.tx with | e :: _ => e.2 | [] => 0
  let (rs, rt) := x.rx.getD (0, 0)
  let cnt := x.swapAt.foldl (fun n t => if s.prism.tick < t && t ≤ s.prism.tick + 32 then min n (t - s.prism.tick - 1) else n) 255
  let f : LinkOut := ⟨s.plkNode, s.plkRole p, s.on b PLK_STATUS_ORIENT, s.plkCal p, x.step, s.plkLeader p, q, prev % 2 ^ 64, rs,
    rt % 2 ^ 64, cnt, if s.plkRole p = 4 then mir else none, out⟩
  s.setPlk p (fun x => { x with seq := q, tx := ((q, (s.now16 + stamp).toNat) :: x.tx).take 65536, step := false, sentLink := some f.bytes })

/-- QL and CC of originated frames (R529); the row of M13 goes first (DESIGN CHOICE: log entry 19). -/
def plkOwnQuality (s : State) : Nat × Nat :=
  let hold := s.get glb1R GLB_PLK_CFG_HOLDQL
  if s.mode = 13 then (hold, 248) else
  match s.timeChan with
  | none => (15, 248)
  | some c =>
    let st := s.milState c
    if 2 ≤ st && st ≤ 4 then
      match s.selCur c with
      | some i => (s.get (priR i) PRS_QUAL_EQL, s.get (priR i) PRS_QUAL_ECC)
      | none => (15, 248)
    else if st = 5 || st = 6 then (hold, s.get glb1R GLB_PLK_CFG1_CCHOLD)
    else (15, 248)

/-- The frames a root originates at a boundary (R529); `dep` gives the departure after the boundary by port. -/
def timeOriginate (s : State) (dep : List Nat) : State :=
  let ok : Bool := s.on glb1R GLB_PLK_CFG_ROOT && s.holdsKey && s.inRun && s.mode != 11
  if !ok then s else
  let (ql, cc) := s.plkOwnQuality
  let utcf := (s.utcOn LTC_UTCOFF_VALID).toNat + 2 * (s.utcOn LTC_UTCOFF_LEAP61).toNat + 4 * (s.utcOn LTC_UTCOFF_LEAP59).toNat
  (List.range s.nPlk).foldl (fun s p =>
    if !s.plkOut p then s else
    let (sec, ns16) := recTime s.ltc.sec (s.ltc.ns * 2 ^ 32 + s.ltc.frac)
    let f : TimeFrame := ⟨s.plkNode, 0, s.tn, sec, ns16 / 65536, ns16 % 65536, dep.getD p 0, ql, cc, s.qual, utcf,
      s.utcOf LTC_UTCOFF_OFFSET⟩
    s.setPlk p (fun x => { x with sentTime := some f.bytes })) s

/-! ## Roles and PLK_CTL (R518, R539) -/

/-- Whether the roles of R518 stay allowed with port `p` in `role`. -/
def plkRoleOk (s : State) (p role : Nat) : Bool :=
  let n := fun (r : Nat) => ((List.range s.nPlk).filter (fun q => (if q = p then role else s.plkRoleReg q) = r)).length
  role ≤ 4 && n 1 ≤ 1 && n 3 ≤ 2 && n 4 ≤ 1 && (role != 4 || s.hasMir)

/-- PLK_CTL at its boundary. -/
def plkCtl (s : State) (p : Nat) (pl : List Byte) : State × Bool :=
  match leAt pl 0 1 with
  | 0 =>
    if !s.plkUp p || !s.plkLeader p || (s.plkP p).calib then (s, false)
    else (s.setPlk p (fun x => { x with swapAt := (s.prism.tick + 32) :: x.swapAt }), true)
  | 1 => (if s.plkUp p then s.plkCalStart p else (s.setPlk p (fun x => { x with dhat := 0 })).showDelay p, true)
  | _ =>
    let role := leAt pl 1 1
    if !s.plkRoleOk p role then (s, false) else
    let s := (s.put (plkR p) PLK_PORT_CFG_ROLE role).put (plkR p) PLK_PORT_CFG_OSEL (leAt pl 5 1)
    let s := s.put (plkR p) PLK_ORIG_ORIG (leAt pl 2 3)
    ((if s.plkUp p then s.plkDown p 3 else s).setPlk p (fun x => { x with role := role }), true)

end State

end Sys2Proof.Machine
end

