-- ==== Sys2Proof/Machine/Modes.lean ====
section
/-! DEFINITION. What a change of the device mode does to the blocks, and the work a boundary does again when a mode
changes right after it (R46, R262, R629). -/

namespace Sys2Proof.Machine

namespace State

def setPwr (s : State) (f : PwrSt → PwrSt) : State := { s with pwr := f s.pwr }
def setMir (s : State) (f : MirSt → MirSt) : State := { s with mir := f s.mir }

/-- Miller's work of the running tick taken back, so that it can be done again on what a boundary brought late. -/
def milUndo (s : State) : State :=
  { s with mil := s.milBak.zipWith (fun (b x : Chan) =>
      { b with latch := x.latch, frwNext := x.frwNext, ovr := x.ovr, means := x.means, ivOk := x.ivOk, ivSum := x.ivSum }) s.mil }

/-- The SPI bus goes back to firmware (R671): what is queued behind the byte in progress is dropped. -/
def spiLose (s : State) : State :=
  let s := (s.putB rveR RVE_SPI_CTL_EN false).putB rveR RVE_STATUS_SPIOWN false
  let s := { s with spi := { s.spi with tx := s.spi.tx.take 1, cs := s.spi.cs && !s.spi.tx.isEmpty } }
  (s.put rveR RVE_SPI_CTL_TXFREE (256 - s.spi.tx.length)).putB rveR RVE_SPI_CTL_BUSY (!s.spi.tx.isEmpty)

/-- The new mode stands (R629): Miller and the Hearth stop or start with it, bursts follow R425, EV116 reports it except
for M0–M2 and on leaving M13. -/
def enterMode (s : State) (m : Nat) : State :=
  let old := s.mode
  if old = m then s else
  let was := s.millerRuns
  let s := if was && !(7 ≤ m && m ≤ 12) then s.millerStop.hearthHalt else s
  let s := s.setMode m
  let s := if !was && s.millerRuns then (((s.resumeMeans).millerStart).emberResume).tamperReport else s
  let s := s.lensMode old s.ltc.ended
  let s := if (old = 6 && m = 12) || (old = 12 && m = 6) then s else s.spiLose
  if m < 3 || old = 13 then s else s.raise 116 m 0

/-- Paired (R542). -/
def paired (s : State) : Bool := s.hasMir && s.on mirR MIR_CFG_EN

/-- This part's pull on the line: the key is held (R546). -/
def hasKey (s : State) : Bool := s.paired && s.on mirR MIR_KEY_HOLD

end State

end Sys2Proof.Machine
end

