-- ==== Sys2Proof/Machine/Mirror.lean ====
section
/-! DEFINITION. Mirror: the key line, drivers, override, snapshots, the shadow loops and the takeover (R542–R571). -/

namespace Sys2Proof.Machine

/-- The Hearth snapshot in 32 fragments of numbers (R559, log entry 19): 0 the model, 1–16 the means of the channels. -/
def hearthFrag (h : HearthSt) (mil : List Chan) (n : Nat) : List Rat :=
  if n = 0 then
    match h.model with
    | none => [h.count]
    | some m => [h.count, m.c0, m.c1, m.k1, m.k2, m.tf, m.tref, m.tmin, m.tmax, m.sy2, m.sa2, m.n,
        (m.afit.toNat : Rat), (m.tfit.toNat : Rat)]
  else if n ≤ 16 then
    ((mil.getD (n - 1) {}).means.map (fun e => [(e.1 : Rat), e.2.1, e.2.2.1, (e.2.2.2.toNat : Rat)])).flatten
  else []

/-- The model a committed fragment 0 spells. -/
def fragModel (l : List Rat) : Option Model :=
  match l with
  | [_, c0, c1, k1, k2, tf, tref, tmin, tmax, sy2, sa2, n, a, t] =>
    some ⟨c0, c1, k1, k2, tf.floor.toNat, tref, tmin, tmax, sy2, sa2, n.floor.toNat, a = 1, t = 1⟩
  | _ => none

/-- The means a committed fragment spells. -/
def fragMeans : List Rat → List (Nat × Rat × Rat × Bool)
  | a :: b :: c :: d :: r => (a.floor.toNat, b, c, decide (d = 1)) :: fragMeans r
  | _ => []

/-- The four bytes of an index in a 0x11 fragment (R557, log entry 19). -/
def refWord (v cause : Nat) (soak : Option Nat) : Nat :=
  v + 4 * cause + 2 ^ 15 * soak.isSome.toNat + 2 ^ 16 * min 65535 (soak.getD 0)

def Frag.epoch : Frag → Nat
  | .ltc e .. => e
  | .refs e _ => e
  | .chan e _ => e
  | .hearth e .. => e

namespace State

/-! ## Link, priority, drivers (R542, R545, R550) -/

/-- The mirror port and its link (R542). -/
def mirPort (s : State) : Option Nat := (List.range s.nPlk).find? (fun p => s.plkRole p == 4)
def mirUp (s : State) : Bool := Option.any s.plkUp s.mirPort

/-- The part is in M11 and has not begun to leave it for M6 (R630, DEDUCED: log entry 47). -/
def standsBy (s : State) : Bool := s.mode = 11 && !s.on pwrR PWR_STATUS_CHG

/-- The effective priority, with PRIOEQ (R545). -/
def syncPrio (s : State) : State :=
  if !s.hasMir then s else
  let strap := s.pwr.prio
  let peer := match s.mirPort with | some p => s.get (plkR p) PLK_STATUS_PEER | none => 0
  let eq := s.paired && s.mirUp && s.mir.pprio = some strap
  let ep := if eq then Decidable.decide (s.plkNode < peer) else strap
  ((s.putB mirR MIR_KEY_PRIO strap).putB mirR MIR_KEY_EPRIO ep).putB mirR MIR_STATUS_PRIOEQ eq

/-- The override drives now (R554). -/
def ovrDrives (s : State) : Bool := Option.any (fun (o : Nat × Nat) => o.1 ≤ s.prism.tick && s.prism.tick < o.2) s.mir.ovr

/-- Whether the output drivers are enabled (R391, R550). -/
def drivers (s : State) : Bool :=
  6 ≤ s.mode && !s.on pwrR PWR_STATUS_SAFEBOOT && (!s.paired || (s.hasKey && s.mir.claim.isNone) || (s.mode = 13 && s.mir.safeDrv) || s.ovrDrives)

def syncDrv (s : State) : State := if s.hasMir then s.putB mirR MIR_STATUS_DRV s.drivers else s

/-! ## Standby and release (R543, R547, R549) -/

/-- The shadow loops start (R560, R561). -/
def shadowStart (s : State) : State :=
  let s := (List.range s.nMil).foldl (fun s c =>
    if !(s.chan c).on then s else
    (s.dropSpec c true).setChan c (fun x => { x with c := { x.c with lockN := 0, unlockN := 0, since := none } })) s
  (s.setMir (fun m => { m with first := true, err := List.replicate 16 none, own := [], recv := none, got := false })).putB
    mirR MIR_STATUS_SLOCK false

def enterStandby (s : State) : State := if s.mode = 11 then s else (s.enterMode 11).shadowStart

/-- The key goes, with its code (R547); the mode that follows is the caller's. -/
def dropKey (s : State) (code : Nat) : State :=
  if !s.hasKey then s else
  let s := ((s.putB mirR MIR_KEY_HOLD false).put mirR MIR_STATUS_RCAUSE code).raise 109 0 code
  let s := s.heldEnd 40
  let off := if code = 0 || code = 3 then some (s.prism.tick + s.get mirR MIR_CFG_HOLDOFF) else none
  s.setMir (fun m => { m with claim := none, holdoff := off, partner := false, line := true, highs := 0, rel := none, clashN := 0,
                              safeDrv := code = 1 && m.claim.isNone })

/-- A release that takes the part to M11 (R543). -/
def releaseKey (s : State) (code : Nat) : State :=
  if !s.hasKey then s else ((s.dropKey code).enterStandby).syncDrv

/-! ## KEY_SENSE (R544–R549) -/

/-- The line as it is seen: what a holdoff learns from it, and what a SAFE part does (R549, R550). -/
def seeLine (s : State) (high : Bool) : State :=
  s.setMir (fun m => { m with
    line := high, partner := m.partner || !high
    holdoff := if high && m.partner then none else m.holdoff
    safeDrv := m.safeDrv && high })

/-- A change of level (R550). -/
def keySense (s : State) (high : Bool) : State := if !s.paired then s else (s.seeLine high).syncDrv

/-- The conditions of a claim (R546). -/
def claimDue (s : State) : Bool :=
  s.paired && !s.hasKey && s.standsBy && !s.on mirR MIR_CFG_NOCLAIM && s.mir.holdoff.isNone &&
    (s.on mirR MIR_STATUS_LINK || !s.on mirR MIR_CFG_BLIND) &&
    (if s.on mirR MIR_KEY_EPRIO then 4 else 5) ≤ s.get mirR MIR_KEY_FREE

/-- The sample of a tick (R544, R546, R548). -/
def keySample (s : State) (high : Bool) : State :=
  if !s.paired || s.mode < 6 || s.mir.sampled = some s.prism.tick then s else
  let s := (s.seeLine high).setMir (fun m => { m with sampled := some s.prism.tick })
  let s := (s.putB mirR MIR_KEY_SENSE high).put mirR MIR_KEY_FREE (if high then min 7 (s.get mirR MIR_KEY_FREE + 1) else 0)
  let s := if s.hasKey then
      if high then
        let n := s.mir.highs + 1
        let s := s.setMir (fun m => { m with highs := n })
        if n = 2 then ((s.putB mirR MIR_STATUS_LSTUCK true).raise 109 0 7).heldStart 40 else s
      else (s.setMir (fun m => { m with highs := 0 })).heldEnd 40
    else s
  let s := if high then s else s.putB mirR MIR_STATUS_LSTUCK false
  let s := if s.claimDue then
      (s.putB mirR MIR_KEY_HOLD true).setMir (fun m => { m with
        claim := some s.prism.tick, claimLink := s.on mirR MIR_STATUS_LINK, line := false, highs := 0, clashN := 0 })
    else s
  s.syncDrv

def holdoffDue (s : State) : Bool := Option.any (fun (t : Nat) => t ≤ s.prism.tick) s.mir.holdoff
def holdoffExpiry (s : State) : State := if s.holdoffDue then s.setMir (fun m => { m with holdoff := none }) else s

/-! ## Override (R553, R554) -/

/-- A write of KEY_OVERRIDE; false where R553 refuses it. -/
def keyOverride (s : State) (v : Bool) : State × Bool :=
  let t := s.prism.tick
  if !v then (s.setMir (fun m => { m with ovr := m.ovr.map (fun o => (o.1, min o.2 (t + 1))) }), true) else
  let waited : Bool := match s.mir.ovrEnd with | some e => e + 32000 ≤ t | none => true
  if !s.paired || s.hasKey || !(s.mode = 6 || s.mode = 12 || s.mode = 13) || s.mir.ovr.isSome || !waited then (s, false)
  else ((s.setMir (fun m => { m with ovr := some (t + 1, t + 3) })).putB mirR MIR_KEY_KEY_OVERRIDE true, true)

def overrideDue (s : State) : Bool := Option.any (fun (o : Nat × Nat) => o.2 ≤ s.prism.tick) s.mir.ovr

/-- The timer ends the override. -/
def overrideEnd (s : State) : State :=
  if !s.overrideDue then s else
  ((s.setMir (fun m => { m with ovr := none, ovrEnd := some s.prism.tick })).putB mirR MIR_KEY_KEY_OVERRIDE false).syncDrv

/-! ## Snapshots: the sender (R555–R559) -/

def snapChan (s : State) (c : Nat) : SnapChan :=
  let x := s.chan c
  { num := c, st := s.milState c, lseen := s.on (milR c) MIL_STATUS_LSEEN, force := s.milForce c, cur := s.selCur c
    oc := s.prism.oc.getD c 0, d := x.c.d, dt := x.c.dt, i := x.c.i, pk := x.c.pk, lockN := x.c.lockN, unlockN := x.c.unlockN
    r := x.ph - s.ltc.ph }

/-- The fragment of a channel: a FROZEN one did not deliver, so its previous fragment goes out (R558). -/
def chanFrag (s : State) (c ep : Nat) : Frag :=
  let old := s.mir.latch.bind (fun m => m.frags.find? (fun f => match f with | .chan _ x => x.num == c | _ => false))
  match s.milState c, old with
  | 6, some f => f
  | _, _ => .chan ep (s.snapChan c)

/-- The committed state latched at a boundary by a holder in M7–M10 or M12 (R555). -/
def mirLatch (s : State) : State :=
  if !s.hasMir then s else
  let holder := s.hasKey && s.mir.claim.isNone && ((7 ≤ s.mode && s.mode ≤ 10) || s.mode = 12)
  let s := s.setMir (fun m => { m with out := m.latch })
  if !holder then s.setMir (fun m => { m with latch := none }) else
  let ep := s.tn % 2 ^ 32
  let lf : Frag := .ltc ep s.ltc.sec s.ltc.ns s.ltc.frac (s.reg (ltcR + LTC_UTCOFF_OFFSET.idx)).toNat s.qual
    (s.reg (glbR + GLB_TIMECHAN_EN.idx)).toNat
  let rf : Frag := .refs ep ((List.range 64).map (fun i =>
    refWord (s.verdictOf i) (s.get (priR i) PRS_VERDICT_CAUSE) ((s.ref i).soak.map (fun t => (s.prism.tick - t) / 32000))))
  let fn := s.tn % 32
  let hf : Frag := .hearth s.mir.hepoch fn (hearthFrag s.hearth s.mil fn)
  let cf := (List.range s.nMil).map (fun c => s.chanFrag c ep)
  s.setMir (fun m => { m with latch := some ⟨true, s.pwr.prio, s.on mirR MIR_CFG_SHOSC, s.mode, ep, m.hepoch, [lf, rf] ++ cf ++ [hf]⟩ })

/-- The Mirror bytes of the frame that starts at this boundary: what the boundary before latched, or the header alone (R555). -/
def mirOut (s : State) : MirIn :=
  let head : MirIn := s.mir.out.getD ⟨false, false, false, 0, 0, 0, []⟩
  let full := s.hasKey && ((7 ≤ s.mode && s.mode ≤ 10) || s.mode = 12)
  let frags := if full then head.frags else []
  ⟨s.holdsKey, s.pwr.prio, s.on mirR MIR_CFG_SHOSC, s.mode, if full then head.epoch else 0, if full then head.hepoch else 0, frags⟩

/-! ## Snapshots: the receiver (R552, R558, R559) -/

/-- The clash rule (R552): two headers in a row that claim the key this part holds. -/
def keyClash (s : State) (key : Bool) : State :=
  if !s.hasKey || s.mir.claim.isSome || !key then s.setMir (fun m => { m with clashN := 0 }) else
  let n := s.mir.clashN + 1
  let s := s.setMir (fun m => { m with clashN := min n 2 })
  if n != 2 then s else
  let s := s.putB mirR MIR_STATUS_CLASH true
  if s.on mirR MIR_KEY_EPRIO then s else (s.setMir (fun m => { m with rel := some 3 })).occur 41

/-- A Hearth fragment joins the collection, or starts a new one (R559). -/
def collect (s : State) (ep fn : Nat) (vals : List Rat) : State :=
  let s := match s.mir.coll with
    | some (e, _) => if e = ep then s else (s.setMir (fun m => { m with coll := none })).bump mirR MIR_CNT1_HDISC
    | none => s
  let l := match s.mir.coll with | some (_, l) => l | none => []
  let l := l.filter (fun x => x.1 != fn) ++ [(fn, vals)]
  (s.setMir (fun m => { m with coll := some (ep, l) })).put mirR MIR_HEPOCH_HFRAGS (min 31 l.length)

/-- The Mirror bytes of an accepted link frame (R552, R555). -/
def mirFrame (s : State) (m : LinkIn) : State :=
  let p := m.port
  if !s.paired || s.plkRole p != 4 || !s.plkUp p || !m.valid || m.role != 4 || m.node = s.plkNode then s else
  match m.mir with
  | none => s
  | some h =>
    let s := ((s.putB mirR MIR_STATUS_PKEY h.key).put mirR MIR_STATUS_PMODE h.mode).setMir (fun m => { m with pprio := some h.prio })
    let s := (s.syncPrio).keyClash h.key
    if !s.standsBy || s.hasKey || h.frags.isEmpty then s else
    let s := s.setMir (fun m => { m with recv := some (h, s.prism.tick) })
    h.frags.foldl (fun s f => match f with | .hearth e n v => s.collect e n v | _ => s) s

/-- The snapshot holds one 0x10, one 0x11 and one 0x12 fragment for each present channel (R558). -/
def snapWhole (s : State) (h : MirIn) : Bool :=
  h.frags.any (fun f => match f with | .ltc .. => true | _ => false) &&
  h.frags.any (fun f => match f with | .refs .. => true | _ => false) &&
  (List.range s.nMil).all (fun c => h.frags.any (fun f => match f with | .chan _ x => x.num == c | _ => false))

/-- Its first fragment of another epoch, as EV111 names it (R571). -/
def snapBad (h : MirIn) : Option Nat :=
  h.frags.findSome? (fun f => match f with
    | .chan e x => if e = h.epoch then none else some x.num
    | .ltc e .. => if e = h.epoch then none else some 31
    | .refs e _ => if e = h.epoch then none else some 31
    | .hearth .. => none)

/-- The LTC of the standby at its first commit (R561). |d| stays within 1,000 s (R256). -/
def firstCommit (s : State) : State :=
  match s.mir.theta, s.timeChan with
  | some th, some c =>
    let thr : Rat := (s.get (milR c) MIL_LOCK_THR : Rat) / 1000000000
    let s := s.setMir (fun m => { m with first := false })
    if thr < th then
      let ns := (Config.quant (th * 1000000000)).toNat
      if s.ltc.landed then s.setMir (fun m => { m with first := true })
      else
        let s := (s.stepTake (ns / 1000000000) (ns % 1000000000)).1
        s.setMir (fun m => { m with theta := none })
    else if th < 0 then s.setChan c (fun x => { x with c := { x.c with
      d := clampQ (-1000) 1000 (q80 (x.c.d + th)), dp := clampQ (-1000) 1000 (q80 (x.c.dp + th)) } })
    else s
  | _, _ => s

/-- The errors the shadow loops take from a committed snapshot (R560). -/
def shadowErrors (s : State) (h : MirIn) : State :=
  let own := (s.mir.own.find? (fun e => e.1 % 2 ^ 32 == h.epoch)).map (·.2)
  let err := (List.range 16).map (fun c =>
    if s.isTimeChan c then s.mir.theta else
    match own, h.frags.findSome? (fun f => match f with | .chan _ x => if x.num = c then some x.r else none | _ => none) with
    | some l, some r => some (r - l.getD c 0)
    | _, _ => none)
  s.setMir (fun m => { m with err := err })

/-- What MIL_STATUS and the quality of the LTC show of a committed snapshot (R562). -/
def showCommit (s : State) : State :=
  match s.mir.com with
  | none => s
  | some h =>
    h.frags.foldl (fun s f => match f with
      | .chan _ x =>
        if s.nMil ≤ x.num || !(s.chan x.num).on then s else
        let s := ((s.put (milR x.num) MIL_STATUS_STATE x.st).put (milR x.num) MIL_STATUS_REF (x.cur.getD 0)).putB
          (milR x.num) MIL_STATUS_REF_V x.cur.isSome
        let s := s.putB (milR x.num) MIL_STATUS_SLEW (x.d != x.dt)
        if s.timeChan = some x.num then s.putB ltcR LTC_STATUS_SLEW (x.d != x.dt) else s
      | .ltc _ _ _ _ _ q _ => (s.put ltcR LTC_STATUS_STATE (q / 32)).put ltcR LTC_STATUS_ERR (q % 32)
      | _ => s) s

/-- The shadow loop of a channel in a tick (R560): the committed loop, with no budget. -/
def shadowTick (s : State) (c : Nat) : State :=
  let x := s.chan c
  if !x.on || x.frozen.isSome then s.millerTick c else
  let smp := s.mir.err.getD c none
  let b := x.c.step (s.loopSet c 2 none) smp
  let b := if smp.isSome then s.countLock c 2 (s.countLock c 1 b) else b
  (s.setChan c (fun x => { x with c := b, changes := [], ending := none })).specWord c false

/-- SLOCK (R562). -/
def syncSlock (s : State) : State :=
  s.putB mirR MIR_STATUS_SLOCK (s.mode = 11 && (List.range s.nMil).all (fun c =>
    !(s.chan c).on || s.get (milR c) MIL_LOCK_CNT ≤ (s.chan c).c.lockN))

/-- The increment of the LTC in the running tick (R69, R70, R78): the Hearth NCO's in ember mode, the time channel's
committed word, or nominal. -/
def syncInc (s : State) : State :=
  let y : Rat := if s.hearth.emberOn then s.hearth.ember else
    match s.timeChan with
    | some c => ofWord (s.chan c).fw
    | none => 0
  { s with ltc := { s.ltc with inc := clampQ (-(1 / 1000)) (1 / 1000) y } }

/-- Miller's work of a tick: the shadow loops in M11, the loops otherwise. -/
def millerWork (s : State) : State :=
  let s := { s.syncInc with milBak := s.mil }
  if !s.millerRuns then s
  else if s.mode = 11 && s.paired then ((List.range s.nMil).foldl shadowTick s).syncSlock
  else s.millerTickAll

/-- The work of the running tick done again after something that a boundary brings came as a step of its own. -/
def again (s : State) (f : State → State) : State := (f s.milUndo).millerWork

/-- A received snapshot waits, and a boundary has passed (R558). -/
def commitDue (s : State) : Bool := s.standsBy && Option.any (fun (r : MirIn × Nat) => r.2 < s.prism.tick) s.mir.recv

/-- The tests and the commit of a snapshot (R558, R560–R562). -/
def commitTake (s : State) : State :=
  match s.mir.recv with
  | none => s
  | some (h, _) =>
    let s := s.setMir (fun m => { m with recv := none })
    let newer := match s.mir.epoch with | some e => 0 < signed ((h.epoch + 2 ^ 32 - e) % 2 ^ 32) 32 | none => true
    if !newer || !s.snapWhole h then s else
    match snapBad h with
    | some k => (s.raise 111 0 k).bump mirR MIR_CNT0_MISMATCH
    | none =>
      let s := s.setMir (fun m => { m with com := some h, epoch := some h.epoch, got := true })
      let s := (s.put mirR MIR_EPOCH_EPOCH h.epoch).putSat mirR MIR_LAG_LAG ((s.tn + 2 ^ 32 - h.epoch) % 2 ^ 32)
      let s := if s.mir.first then s.firstCommit else s
      (s.shadowErrors h).showCommit

def snapshotCommit (s : State) : State := if s.commitDue then s.again commitTake else s

/-- All 32 fragments of one HEPOCH are there (R559). -/
def hearthCommitDue (s : State) : Bool := s.standsBy && Option.any (fun (c : Nat × List (Nat × List Rat)) => 32 ≤ c.2.length) s.mir.coll

def hearthCommit (s : State) : State :=
  if !s.hearthCommitDue then s else
  match s.mir.coll with
  | some (e, l) =>
    let s := s.setMir (fun m => { m with coll := none, hcom := some l })
    ((s.putB mirR MIR_STATUS_HSNAP true).put mirR MIR_HEPOCH_HEPOCH e).put mirR MIR_HEPOCH_HFRAGS 0
  | none => s

/-! ## The mirror link (R568) -/

def linkLostDue (s : State) : Bool := s.on mirR MIR_STATUS_LINK && !(s.paired && s.mirUp)

def mirrorLinkLost (s : State) : State :=
  if !s.linkLostDue then s else
  let s := (s.putB mirR MIR_STATUS_LINK false).raise 110 0 s.hasKey.toNat
  (s.setMir (fun m => { m with coll := none, clashN := 0 })).put mirR MIR_HEPOCH_HFRAGS 0
    |>.syncPrio

def mirrorLinkUp (s : State) : State :=
  if s.paired && s.mirUp && !s.on mirR MIR_STATUS_LINK then
    (s.setMir (fun m => { m with first := true })).putB mirR MIR_STATUS_LINK true |>.syncPrio else s

/-! ## Takeover (R564–R566) -/

def comChan (s : State) (c : Nat) : Option SnapChan :=
  s.mir.com.bind (fun m => m.frags.findSome? (fun f => match f with | .chan _ x => if x.num = c then some x else none | _ => none))

/-- One channel takes the state of its last committed fragment (R565); without one it runs free (log entry 19). -/
def takeChan (s : State) (c : Nat) : State :=
  if !(s.chan c).on then s else
  let b := milR c
  match s.comChan c with
  | none => (s.setChan c (fun x => { x with ref := none, c := { x.c with d := 0, dt := 0, dp := 0 } })).applyChange c ⟨0, 4, none⟩
  | some f =>
    let casc := s.casc c
    let cur := if casc then none else f.cur
    let s := s.put b MIL_STATUS_FORCE f.force
    let s := if casc then s else s.showSel c cur
    let valid := casc || Option.any (s.plValid c) cur
    let off : Rat := match cur with | some j => if valid then ((s.preLock c j).off : Rat) / 65536 else 0 | none => 0
    let s := if casc then s else s.setPrism (fun p => { p with oc := p.oc.set c off, ocV := p.ocV.set c valid })
    let st := if 2 ≤ f.st && f.st ≤ 4 then (if valid then 2 else 1) else if f.st = 1 then 1 else if f.st = 5 then 5 else 0
    let run := st = 1 || st = 2
    let h := if st = 5 then s.holdFrom c s.tn else none
    let s := s.setChan c (fun x => { x with
      c := { x.c with d := 0, dp := 0, dt := clampQ (-1000) 1000 (q80 (f.dt - f.d)) }, ref := if run then cur else none, hold := h, holdTn := s.prism.tick
      winN := none, specSeen := [], changes := [], ending := none })
    (s.applyChange c ⟨st, 4, if run then cur else none⟩).putB b MIL_STATUS_LSEEN f.lseen

/-- The indices the active had condemned (R566). -/
def takeVerdicts (s : State) : State :=
  let words := match s.mir.com.bind (fun m => m.frags.findSome? (fun f => match f with | .refs _ w => some w | _ => none)) with
    | some w => w | none => []
  (List.range 64).foldl (fun s i =>
    if (words.getD i 0) % 4 != 2 || s.verdictOf i = 2 then s else
    let s := s.setRef i (fun r => { r with v := 2, cause := 2 ^ 6, win := none, pend := [], soak := some s.prism.tick })
    let s := ((s.put (priR i) PRS_VERDICT_V 2).put (priR i) PRS_VERDICT_CAUSE (2 ^ 6)).putB (priR i) PRS_VERDICT_SOAK true
    let s := s.putB prsR (summaryBit PRS_GOOD_LO_GOOD PRS_GOOD_HI_GOOD i) false
    let s := s.putB prsR (summaryBit PRS_SUSP_LO_SUSP PRS_SUSP_HI_SUSP i) false
    if i < 32 then s.raise (16 + i) 0 (2 + 2 ^ 6 * 4) else s) s

/-- The claim of an earlier tick is acted on. -/
def takeoverDue (s : State) : Bool := s.paired && Option.any (fun (t : Nat) => t < s.prism.tick) s.mir.claim

/-- The boundary that follows the claim (R564). -/
def takeOver (s : State) : State :=
  let age := match s.mir.epoch with | some e => min 255 ((s.tn + 2 ^ 32 - e) % 2 ^ 32) | none => 255
  let into := s.get mirR MIR_CFG_TAKE
  let s := match s.on mirR MIR_CFG_SHOSC, s.mir.hcom with
    | true, some l =>
      let s := match l.find? (fun (e : Nat × List Rat) => e.1 == 0) with | some (_, v) => s.applyModel (fragModel v) | none => s
      { s with mil := s.mil.zipWith (fun (x : Chan) c =>
          match l.find? (fun (e : Nat × List Rat) => e.1 == c + 1) with | some (_, v) => { x with means := fragMeans v } | none => x) (List.range 16) }
    | _, _ => s
  let s := (List.range s.nMil).foldl takeChan s
  let s := s.takeVerdicts
  let s := s.setMir (fun m => { m with claim := none, got := false, err := List.replicate 16 none })
  let s := s.raise 108 0 (into + 16 * s.mir.claimLink.toNat + 32 * age)
  let s := (s.enterMode into).putB mirR MIR_STATUS_SLOCK false
  let s := (s.bump mirR MIR_CNT1_TAKES).put64 mirR MIR_TAKE_TN_LO_TN MIR_TAKE_TN_HI_TN s.tn
  s.syncDrv

def takeover (s : State) : State := if s.takeoverDue then s.again takeOver else s

/-! ## A boundary (R544, R552, R558) -/

/-- What the tick that ends still owes: its sample, a Hearth commit, the count of missed commits. -/
def mirDue (s : State) : State :=
  let s := ((s.mirrorLinkLost).hearthCommit).keySample s.mir.line
  if s.standsBy && s.paired && s.on mirR MIR_STATUS_LINK && !s.mir.got then s.bump mirR MIR_CNT0_MISSED else s

/-- Mirror at a boundary, before the commands: what ends, pending releases, θ of the ended tick, own phases, the commit of a
snapshot received before (R558), and the takeover that follows a claim (R564). -/
def mirBoundary (s : State) : State :=
  if !s.hasMir then s else
  let s := (s.overrideEnd).holdoffExpiry
  let s := match s.mir.rel with
    | some c => (s.releaseKey c).setMir (fun m => { m with rel := none })
    | none => s
  let th : Option Rat := s.mirPort.bind (fun p => (s.plkP p).theta.map (fun (t : Int) =>
    let u : Rat := if s.plkRx0 p then (t : Rat) + ((s.plkP p).dhat : Rat) / 2 else (t : Rat) - ((s.plkP p).dhat : Rat) / 2
    u / 65536 / 1000000000))
  let phs := (List.range 16).map (fun c => (s.chan c).ph - s.ltc.ph)
  let s := s.setMir (fun m => { m with
    theta := th, got := false, err := List.replicate 16 none
    own := if s.mode = 11 then ((s.tn, phs) :: m.own).take 64 else [] })
  let s := s.mirrorLinkUp.syncPrio
  let s := if s.commitDue then s.commitTake else s
  if s.takeoverDue then s.takeOver else s

/-! ## KEY_CTL (R570) -/

/-- The command at its boundary; false is DENIED. -/
def keyCtl (s : State) (act : Nat) : State × Bool :=
  let s := if s.takeoverDue then s.takeOver else s
  match act with
  | 0 => (s.releaseKey 0, true)
  | 1 => (s.putB mirR MIR_CFG_NOCLAIM true, true)
  | 2 => (s.putB mirR MIR_CFG_NOCLAIM false, true)
  | _ => s.keyOverride true

end State

end Sys2Proof.Machine
end

