-- ==== Sys2Proof/Machine/Power.lean ====
section
/-! DEFINITION. Supplies, resets, start-up, mode changes and M13 SAFE (R615–R637). -/

namespace Sys2Proof.Machine

/-- A core rail (R618): CORE, MEM, SDS, SDSH, ANA stand first in `PWR_RAIL`. -/
def coreRail (r : Nat) : Bool := r < 5

namespace State

/-! ## What a reset leaves (R71, R637, R666) -/

/-- Granary after a supply or reset change: the shadow, the system area and, where retained, the SRAM with its dirty
bits. -/
def granKeep (s : State) (retained : Bool) : GranSt :=
  { s.gran with
    sram := if retained then s.gran.sram else [], dirty := if retained then s.gran.dirty else []
    queue := [], reqs := [], busy := none, held := [], unl := List.replicate 8 false, pf := false
    wear := s.gran.wear.map (fun (w : WearSt) => { w with now := 0, pend := 0 }), retained := retained, lost := [] }

/-- The state with every core-domain register and block as after reset; the LTC, the Hearth NCO, the SRAM, the ember
latches and the keeper copies stay (R637), and so does the level of the power-fail warning. -/
def coreReset (s : State) : State :=
  let n : State := {
    variant := s.variant, pending := s.pending, free := s.free, hostMem := s.hostMem, bus := s.bus, gran := s.granKeep true, hearth := s.hearthKeep
    ltc := { sec := s.ltc.sec, ns := s.ltc.ns, frac := s.ltc.frac, inc := s.ltc.inc, ph := s.ltc.ph, stepped := s.ltc.stepped }
    tmp := { seq := s.tmp.seq, wrapped := s.tmp.wrapped }
    tcd := { kWidth := s.tcd.kWidth, kOff := s.tcd.kOff, last := s.tcd.last, pulseEnd := s.tcd.pulseEnd, ember := s.hearth.kPps }
    prism := { now := s.prism.now, tick := s.prism.tick }
    pwr := { rstLow := s.pwr.rstLow, prio := s.pwr.prio, coldStart := false, coreFail := s.pwr.coreFail }
    mir := { line := s.mir.line } }
  let n := (n.putB ltcR LTC_STATUS_COLD (s.on ltcR LTC_STATUS_COLD)).putB ltcR LTC_STATUS_SET (s.on ltcR LTC_STATUS_SET)
  let n := [GLB_TMP_STATUS_LVL0, GLB_TMP_STATUS_LVL1, GLB_TMP_STATUS_EMB0, GLB_TMP_STATUS_EMB1].foldl
    (fun n f => n.putB glbR f (s.on glbR f)) n
  let n := n.put pwrR PWR_CNT_RESETS (s.get pwrR PWR_CNT_RESETS)
  let n := (n.put pwrR PWR_RAIL_OK (s.get pwrR PWR_RAIL_OK)).put pwrR PWR_BOOT_STRAP (s.get pwrR PWR_BOOT_STRAP)
  (n.putB pwrR PWR_STATUS_EMBRET true).putB pwrR PWR_STATUS_PFW (s.on pwrR PWR_STATUS_PFW)

/-- The part without power: the non-volatile store and host memory remain (R625). -/
def powerOff (s : State) : State :=
  let n : State := {
    variant := s.variant, pending := s.pending, free := s.free, hostMem := s.hostMem, bus := s.bus, gran := s.granKeep false
    hearth := { ({} : HearthSt) with saved := s.hearth.saved }
    tmp := { wrapped := s.tmp.wrapped }
    pwr := { rstLow := s.pwr.rstLow } }
  ((n.put pwrR PWR_STATUS_MODE 0).put pwrR PWR_RAIL_OK 0).putB pwrR PWR_STATUS_PFW (s.on pwrR PWR_STATUS_PFW)

/-! ## Resets (R637) -/

/-- RST_N or `PWR_RESET.GO`: from M3–M13 into M2, the LTC on the Hearth NCO. -/
def resetPart (s : State) : State :=
  if s.mode < 3 then s else
  let s := if !s.hearth.emberOn then s.emberEnter else s
  let s := s.coreReset
  (s.bump pwrR PWR_CNT_RESETS).put pwrR PWR_STATUS_MODE 2

/-- The level of RST_N, held for 1 µs. -/
def rstPin (s : State) (low : Bool) : State :=
  let s := s.setPwr (fun p => { p with rstLow := low })
  if low then s.resetPart else s

/-! ## Rails (R618–R620) -/

def railBit (f : Fld) (r : Nat) : Fld := f.bit r

def railOut (s : State) (r : Nat) : State :=
  if 15 ≤ r then s else
  let s := (s.putB pwrR (railBit PWR_RAIL_OK r) false).putB pwrR (railBit PWR_RAIL_OUT r) true
  if coreRail r && !s.on pwrR PWR_STATUS_PFW then s.heldStart 18 else s

def railBack (s : State) (r : Nat) : State :=
  if 15 ≤ r then s else
  let s := s.putB pwrR (railBit PWR_RAIL_OK r) true
  if coreRail r && (List.range 5).all (fun k => s.on pwrR (railBit PWR_RAIL_OK k)) then s.heldEnd 18 else s

/-- The core rails are in range (R629): from M1 with the time kept, from M0 cold (R71). -/
def railsIn (s : State) (ok : Nat) : State :=
  match s.mode with
  | 0 => (s.put pwrR PWR_STATUS_MODE 2).put pwrR PWR_RAIL_OK ok
  | 1 =>
    let secs := s.ltc.sec - s.hearth.emberStart
    let s := ((s.coreReset).setPwr (fun p => { p with fromEmber := true, coreFail := none })).put pwrR PWR_STATUS_MODE 2
    ((s.put pwrR PWR_RAIL_OK ok).putB glb1R GLB_HRT_EMBST_EMB true).putSat glb1R GLB_HRT_EMBST_SECS secs
  | _ => s

/-- POR is released: straps are sampled, M3 (R620, R634, R644). -/
def porRelease (s : State) (boot : Nat) (prio : Bool) : State :=
  if s.mode != 2 || s.pwr.rstLow then s else
  (((s.put pwrR PWR_BOOT_STRAP boot).setPwr (fun p => { p with prio := prio })).enterMode 3).syncPrio

/-! ## Losing the supply (R621, R624–R627) -/

/-- A warning `ns` into the tick, from PFW_N or from VHOLD. -/
def powerWarn (s : State) (pin : Bool) (ns : Nat) : State :=
  if s.mode < 2 || (!pin && !s.on pwrR PWR_HOLD_EN) then s else
  let s := ((s.bump pwrR PWR_CNT_PFWARN).putB pwrR PWR_STATUS_PFW true).heldEnd 18
  let s := if pin then
      let t := s.ltc.ns + ns
      (s.put pwrR PWR_PFW_NS_NS (t % 1000000000)).put pwrR PWR_PFW_S_S_LO (s.ltc.sec + t / 1000000000)
    else s
  let s := s.setPwr (fun p => { p with clearing := false })
  if s.on pwrR PWR_STATUS_PF then s else
  let s := s.putB pwrR PWR_STATUS_PF true
  let s := if 6 ≤ s.mode then s.setPwr (fun p => { p with warned := true }) else s
  if 6 ≤ s.mode || s.pwr.recovered then s.pfStore else s

/-- The warning has been over for 10 ms (R627). A core rail that is out of range has no warning any more (WF18). -/
def powerClear (s : State) : State :=
  if !s.on pwrR PWR_STATUS_PFW then s else
  let s := (s.putB pwrR PWR_STATUS_PFW false).setPwr (fun p => { p with clearing := true })
  if (List.range 5).all (fun k => s.on pwrR (railBit PWR_RAIL_OK k)) then s else s.heldStart 18

/-- A core rail failed; `vbak` says that VBAK is at or above 2.7 V (R57, R625). -/
def coreFailure (s : State) (vbak : Bool) : State :=
  if s.mode < 2 || s.pwr.coreFail.isSome then s else
  let s := s.discardStaged (fun _ => true)
  (s.setPwr (fun p => { p with coreFail := some s.prism.tick })).setHearth (fun h => { h with emberDue := vbak })

def emberEntryDue (s : State) : Bool := s.hearth.emberDue && Option.any (fun (t : Nat) => t < s.prism.tick) s.pwr.coreFail

/-- M1 EMBER begins (R322, R625): Looms and outputs are without power (R334, R392). -/
def emberEntry (s : State) : State :=
  if !s.emberEntryDue then s else
  let s := if s.hearth.emberOn then
      s.setHearth (fun h => { h with emberDue := false, emberStart := s.ltc.sec, emberTn := s.tn })
    else s.emberEnter
  let s := { s with loom := s.loom.map (fun _ => {}), out := s.out.map (fun _ => {}) }
  let s := (List.range s.nLom).foldl (fun s n => s.put (lomR n) LOM_STATUS_STATE 0) s
  let s := (List.range s.nOut).foldl (fun s o => s.put (outR o) OUT_STATUS_STATE 0) s
  ((s.setPwr (fun p => { p with coreFail := none })).setTcd (fun x => { x with ember := s.hearth.kPps })).put pwrR PWR_STATUS_MODE 1

/-- At the LTC boundary after a core failure without VBAK the part is off (R625). -/
def offAtBoundary (s : State) : State :=
  if !s.hearth.emberDue && Option.any (fun (t : Nat) => t < s.prism.tick) s.pwr.coreFail then s.powerOff else s

def vbakLoss (s : State) : State := if s.mode = 1 then s.powerOff else s

/-! ## Start-up (R634, R635) -/

/-- The ROM is complete; `osc` says that it recognised the oscillator (R652). -/
def romComplete (s : State) (osc : Bool) : State := if s.mode = 3 && osc then s.enterMode 4 else s

/-- Granary recovery (R588), before any other unit reads Granary. -/
def recovery (s : State) : State :=
  if s.mode != 4 || s.pwr.recovered then s else
  ((s.granRecover).setPwr (fun p => { p with recovered := true })).put rveR RVE_STATUS_STATE 1

/-- The check of a firmware image (R635): the failure code, or its version and CRC. An all-zero header holds no image; the
checks are taken in the order length, CRC, stepping (log entry 20). -/
def imageCheck (step : Nat) (b : List Byte) : Nat ⊕ (Nat × Nat) :=
  let len := leAt b 0 4
  if (b.take 16).all (· == 0) || b.length < 16 then .inl 1
  else if len = 0 || 98288 < len then .inl 4
  else if crc32 ((b.drop 16).take len) != leAt b 4 4 then .inl 2
  else if leAt b 8 1 != step then .inl 3
  else .inr (leAt b 10 2, leAt b 4 4)

/-- The image in CFG pages 128–319. -/
def granImage (s : State) : List Byte := s.sramRead 65536 98304

/-- Firmware has started: M5, and what it counts (R597). -/
def fwStart (s : State) (src ver crc : Nat) : State :=
  let s := (s.put pwrR PWR_BOOT_SRC src).put pwrR PWR_BOOT_VERSION ver
  let s := (s.put rveR RVE_STATUS_STATE 2).put rveR RVE_FWCRC_CRC crc
  let s := if s.pwr.coldStart then s.wearInc 1 else s
  let s := if s.pwr.fromEmber then s.wearInc 2 else s
  (s.setPwr (fun p => { p with coldStart := false, fromEmber := false })).enterMode 5

/-- One source tried: a failure leaves its code in ERR. -/
def tryImage (s : State) (src : Nat) (r : Nat ⊕ (Nat × Nat)) : State :=
  if s.mode != 4 then s else
  match r with
  | .inl e => s.put pwrR PWR_BOOT_ERR e
  | .inr (v, c) => s.fwStart src v c

/-- The ROM tries the sources of the strap; `flash` is what the SPI flash gave, none where it did not answer. -/
def firmwareLoad (s : State) (flash : Option (List Byte)) : State :=
  if s.mode != 4 || !s.pwr.recovered || s.pwr.tried then s else
  let s := s.setPwr (fun p => { p with tried := true })
  let step := s.get glbR GLB_ID_STEP
  let g := imageCheck step s.granImage
  let f : Nat ⊕ (Nat × Nat) := match flash with | some b => imageCheck step b | none => .inl 5
  match s.get pwrR PWR_BOOT_STRAP with
  | 0 => (s.tryImage 1 g).tryImage 2 f
  | 1 => (s.tryImage 2 f).tryImage 1 g
  | 2 => s
  | _ => s.tryImage 1 g

/-- The load that `PWR_BOOT.HOSTGO` asks for. -/
def hostLoad (s : State) : State :=
  if s.mode != 4 || !s.pwr.recovered then s
  else (s.setPwr (fun p => { p with tried := true })).tryImage 3 (imageCheck (s.get glbR GLB_ID_STEP) s.granImage)

/-- The pages of a calibration table recovered with a valid copy. -/
def calPages (s : State) (first last : Nat) : Bool := s.gran.lost.all (fun p => p < first || last < p)

/-- Calibration ends: tables are judged, and M6 begins (R593, R634). `crc` gives the tables whose CRC matches the header:
Lens, Loom, output, temperature, DAC in bits 0–4. -/
def calComplete (s : State) (crc : Nat) : State :=
  if s.mode != 5 then s else
  let hd := s.calPages 0 0
  let t := fun (k a b : Nat) => hd && crc / 2 ^ k % 2 = 1 && s.calPages a b
  let v := [hd, t 0 1 16, t 1 17 48, t 2 49 54, t 3 55 55, t 4 56 56]
  let mask := v.foldr (fun (b : Bool) (n : Nat) => b.toNat + 2 * n) 0
  let s := s.put grnR GRN_CALST_VALID mask
  let s := s.putB lnsR LNS_CAL_VALID (v.getD 1 false && v.getD 5 false)
  let s := (List.range s.nLom).foldl (fun s n => s.putB (lomR n) LOM_STATUS_BV (v.getD 2 false)) s
  let s := if v.all id then s else s.occur 46
  let s := { s with plk := { s.plk with path := true } }
  (s.setPwr (fun p => { p with imageDone := false, imageFrom := some s.prism.tick })).enterMode 6

/-! ## Entry to M6 and the modes after start-up (R595, R630, R634) -/

/-- The register image has been applied: the entry to M6 completes at the next boundary; at start-up the automatic mode
follows. -/
def imageApplied (s : State) : State :=
  s.setPwr (fun p => { p with
    imageDone := true, imageFrom := none, autoAt := if p.starting then some (s.prism.tick + 1) else p.autoAt })

/-- Entry to M6 from a run mode begins (R630): every block counts as disabled, Miller and Lens halt. -/
def leaveRun (s : State) : State :=
  let s := ((s.millerStop).hearthHalt).lensStop s.ltc.ended
  ((s.putB pwrR PWR_STATUS_CHG true).put pwrR PWR_STATUS_TARGET 6).setPwr (fun p => { p with
    imageDone := false, imageFrom := some s.prism.tick })

/-- The entry to M6 completes. -/
def m6Completes (s : State) : State :=
  if !s.on pwrR PWR_STATUS_CHG || !s.pwr.imageDone then s else
  let s := s.enterMode 6
  (s.putB pwrR PWR_STATUS_CHG false).put pwrR PWR_STATUS_TARGET 0

def autoDue (s : State) : Bool := s.pwr.starting && s.mode = 6 && Option.any (fun (t : Nat) => t ≤ s.prism.tick) s.pwr.autoAt

/-- The mode of `PWR_AUTO` is entered (R629, R631, R634). -/
def autoTake (s : State) : State :=
  let m := s.get pwrR PWR_AUTO_MODE
  let s := s.setPwr (fun p => { p with starting := false, autoAt := none })
  if m = 6 then s
  else if s.paired && 7 ≤ m && m ≤ 10 then s.enterStandby.syncDrv
  else (s.enterMode m).syncDrv

/-- The same as a step of its own, after the boundary. -/
def autoMode (s : State) : State := if s.autoDue then s.again autoTake else s

/-! ## MODE_SET (R630–R632) -/

/-- Why a MODE_SET completes as it does. -/
inductive ModeEnd
  | ok | inval | denied
deriving DecidableEq, Repr

/-- MODE_SET at its boundary. -/
def modeSet (s : State) (m : Nat) : State × ModeEnd :=
  let s := if s.takeoverDue then s.takeOver else s
  let cur := s.mode
  let run := 7 ≤ m && m ≤ 10
  if s.on pwrR PWR_STATUS_CHG || s.on pwrR PWR_STATUS_PF then (s, .inval)
  else if m = cur then (s, .ok)
  else if s.paired then
    if s.hasKey then
      if run then (if m = s.get mirR MIR_CFG_TAKE then ((s.enterMode m).syncDrv, .ok) else (s, .denied))
      else if m = 11 then (s.releaseKey 0, .ok)
      else if m = 12 then ((s.enterMode 12).syncDrv, .ok)
      else ((s.dropKey 4).leaveRun.syncDrv, .ok)
    else if run then (s, .denied)
    else if m = 11 then (s.enterStandby.syncDrv, .ok)
    else if m = 12 then ((s.enterMode 12).syncDrv, .ok)
    else (s.leaveRun.syncDrv, .ok)
  else if m = 11 then (s, .denied)
  else if m = 6 then (s.leaveRun, .ok)
  else ((s.enterMode m).syncDrv, .ok)

/-! ## M13 SAFE (R112, R615, R633) -/

/-- Entry to M13 at its boundary. -/
def safeEntry (s : State) : State :=
  if !s.safeDue then s else
  let s := s.setWd (fun w => { w with safeAt := none })
  if s.mode < 3 || s.mode = 13 then s else
  let early := s.mode < 6
  let s := s.discardStaged (fun _ => true)
  let s := s.raise 115 (s.get wchR WCH_FIRST_SRC) 0
  let s := s.dropKey 1
  let s := (s.putB pwrR PWR_STATUS_CHG false).put pwrR PWR_STATUS_TARGET 0
  let s := (s.enterMode 13).setHost (fun h => { h with haltAt := some s.prism.tick })
  let s := s.setPwr (fun p => { p with imageFrom := none, starting := false, autoAt := none })
  (if early then s.putB pwrR PWR_STATUS_SAFEBOOT true else s).syncDrv

/-- An accepted request leaves M13 at the next boundary (R633). -/
def safeExit (s : State) : State :=
  if !s.pwr.exit then s else
  let s := s.setPwr (fun p => { p with exit := false })
  if s.mode != 13 then s else
  let s := (s.enterMode 6).setHost (fun h => { h with haltAt := none })
  (((s.putB pwrR PWR_STATUS_CHG true).put pwrR PWR_STATUS_TARGET 6).setPwr (fun p => { p with
    imageDone := false, imageFrom := some s.prism.tick })).syncDrv

/-! ## Keeper copies (R681) -/

/-- Copies at a boundary of M6 to M13 after firmware has applied the image; a non-holder's ember output stays dark
(R551). -/
def keeperCopies (s : State) : State :=
  if s.mode < 6 || !s.pwr.imageDone then s else
  let was := s.tcd.ember && s.hearth.kPps
  let s := s.setHearth (fun h => { h with
    kPps := s.on glb1R GLB_HRT_EMB_PPS && s.holdsKey, kEmby := s.get glb1R GLB_HRT_EMB_EMBY })
  s.setTcd (fun x => { x with
    kWidth := s.get tcdR TCD_PPS_CFG_WIDTH, kOff := s.getI tcdR TCD_PPS_OFF_OFF, ember := false,
    tail := if was then x.pulseEnd else x.tail })

/-- What the power-fail sequence does at a boundary (R624, R627). -/
def powerBoundary (s : State) : State :=
  let s := if s.pwr.warned then
      let s := (s.setPwr (fun p => { p with warned := false })).raise 117 0 0
      if s.on mirR MIR_CFG_PFREL then s.releaseKey 2 else s
    else s
  if s.pwr.clearing then (s.setPwr (fun p => { p with clearing := false })).putB pwrR PWR_STATUS_PF false else s

/-! ## Functions (R98, R99, R637) -/

/-- A function level reset waits for the boundary; one of PF0 takes every VF with it. -/
def flrAsk (s : State) (f : Nat) : State :=
  if s.host.nvf < f then s else
  let fs := if f = 0 then List.range (s.host.nvf + 1) else [f]
  s.setHost (fun h => { h with flr := h.flr ++ fs.filter (fun x => !h.flr.contains x) })

/-- A ring of a function that is reset, or gone, stops at once. -/
def ringStop (s : State) (b : Nat) : State :=
  (s.put b GLB_RING_CFG_LOG2SIZE 0).setRing b (fun r =>
    { r with closing := none, fence := none, bells := [], wrote := false, above := false, rose := 0 })

/-- The rings, event routing and doorbell record of a function (R99). -/
def clearFunc (s : State) (f : Nat) : State :=
  let s := (List.range 17).foldl (fun s k => s.ringStop (fringR f k)) s
  let s := (List.range 24).foldl (fun s k =>
    if s.get (dringR k) GLB_RING_CFG_OWNER = f then s.ringStop (dringR k) else s) s
  let s := s.discardStaged (fun x => x.d.func = f)
  let s := if f = 0 then
      let s := (s.hrd.txq ++ s.hrd.bufs).foldl discard s
      s.setHrd (fun h => { h with txq := [], bufs := [] })
    else s
  let s := (List.range 32).foldl (fun s k => s.setReg (fglbR f + GLB_EV_ROUTE_EN.idx + k) 0) s
  s.setReg (fglbR f + GLB_DB_ERR_COUNT.idx) 0

/-- Function level resets at the boundary (R99); one of PF0 locks the Granary again (R580). -/
def flrBoundary (s : State) : State :=
  let fs := s.host.flr
  let s := fs.foldl clearFunc (s.setHost (fun h => { h with flr := [] }))
  if fs.contains 0 then s.granLockAll else s

/-- PERST_N (R637): the PCIe interface of every function. -/
def perst (s : State) : State :=
  let s := s.flrAsk 0
  s.setHost (fun h => { h with msix := [], pba := [], vecs := [] })

/-- The number of enabled VFs changes (R98): the rings of removed ones no longer exist. -/
def vfChange (s : State) (n : Nat) : State :=
  let n := min n 15
  let gone := (List.range 16).filter (fun f => n < f)
  let s := gone.foldl (fun s f => if f ≤ s.host.nvf then s.clearFunc f else s) s
  s.setHost (fun h => { h with nvf := n })

end State

end Sys2Proof.Machine
end

