-- ==== Sys2Proof/Machine/RegRules.lean ====
section
/-! DEFINITION. Which register field an access reaches and what governs it: decode (R142–R147), absent units (R22, R23),
locks (R155, R157) and the values that fields accept alone and together (R153). -/

namespace Sys2Proof.Machine

/-! ## Decode -/

/-- What an offset names. -/
inductive Place
  | unmapped
  | hole
  | msix (dword : Nat)
  | pba (dword : Nat)
  /-- A register by key, in the file of function `f` where it is function-relative. -/
  | at (key : Nat)
deriving DecidableEq, Repr

/-- A key of the file that is function-relative (R166). -/
def funcRelative (k : Nat) : Bool := k = 70 || k = 71 || k = 72 || k = 73 || (0x100 ≤ k && k < 0x188) || (0x300 ≤ k && k < 0x320)

/-- The window of a number (R663). -/
def windowOf (w : Nat) : Option WinSpec := RegMap.windows.find? (fun ws => ws.base ≤ w && w < ws.base + ws.nwin)

/-- Decode of a 4-byte-aligned BAR0 offset for function `f` (R142–R147, R665). -/
def decodeOff (f off : Nat) : Place :=
  if 0x3F0000 ≤ off then
    if off < 0x3F0400 then .msix ((off - 0x3F0000) / 4)
    else if 0x3F8000 ≤ off && off < 0x3F8008 then .pba ((off - 0x3F8000) / 4)
    else .hole
  else
    let w := off / 2 ^ 14
    match windowOf w with
    | none => .unmapped
    | some ws =>
      let k := w * 1024 + off / 4 % 1024 % 2 ^ ws.dw
      match RegMap.lookup k with
      | none => .hole
      | some _ => .at (if funcRelative k then f * 2 ^ 20 + k else k)

/-- A ring block register, and its index in the block; capture rings take sizes to 2²⁸ (R104, R105). -/
def isRing (k : Nat) : Bool := let i := k % 2 ^ 20; (0x100 ≤ i && i < 0x188) || (0x200 ≤ i && i < 0x2C0)
def isDring (k : Nat) : Bool := let i := k % 2 ^ 20; 0x200 ≤ i && i < 0x2C0
def ringLogMax (k : Nat) : Nat := let i := k % 2 ^ 20; if 0x200 ≤ i && i < 0x280 then 28 else 24
/-- A packet ring block (R106). -/
def isPacketRing (k : Nat) : Bool := let i := k % 2 ^ 20; 0x148 ≤ i && i < 0x188

/-- A bit field of a word. -/
def fOf (v : Nat) (f : Fld) : Nat := bitsOf v f.lo f.width

/-- The ranges of R464: TRANS, DOMAIN and the three intervals that a profile allows. -/
def profileOk (prof trans dom : Nat) (lsync lann ldreq : Int) : Bool :=
  match prof with
  | 0 => dom ≤ 127 && -7 ≤ lsync && lsync ≤ 1 && -3 ≤ lann && lann ≤ 4 && -7 ≤ ldreq && ldreq ≤ 5
  | 1 => dom ≤ 127 && -7 ≤ lsync && lsync ≤ 1 && -3 ≤ lann && lann ≤ 4 && -7 ≤ ldreq && ldreq ≤ 5
  | 2 => trans = 0 && dom ≤ 127 && lsync = 0 && lann = 0 && ldreq = 0
  | 3 => trans = 0 && lsync = 0 && lann = 0 && ldreq = 0
  | 4 => trans = 0 && 24 ≤ dom && dom ≤ 43 && lsync = -4 && lann = -3 && ldreq = -4
  | _ => (trans = 1 || trans = 2) && 44 ≤ dom && dom ≤ 63 && -7 ≤ lsync && lsync ≤ 0 && -3 ≤ lann && lann ≤ 0 &&
      -7 ≤ ldreq && ldreq ≤ 0

/-- The same on the words of `HRD_PI_CFG` and `HRD_PI_IVL`. -/
def profileWordsOk (cfg ivl : Nat) : Bool :=
  let i := fun (f : Fld) => signed (fOf ivl f) 4
  profileOk (fOf cfg HRD_PI_CFG_PROFILE) (fOf cfg HRD_PI_CFG_TRANS) (fOf cfg HRD_PI_CFG_DOMAIN)
    (i HRD_PI_IVL_LSYNC) (i HRD_PI_IVL_LANN) (i HRD_PI_IVL_LDREQ)

/-- A source of R606 whose severity field is written: WF00 and reserved sources ignore writes (R605). -/
def sevSource (k lo : Nat) : Nat := 16 * (k % 1024 - 16) + lo / 2

namespace State

/-! ## Absent units (R22) -/

/-- An event source of a unit that the variant lacks (R133). -/
def evAbsent (s : State) (ev : Nat) : Bool :=
  (ev < 16 && s.nMil ≤ ev) || (56 ≤ ev && ev < 64 && s.nLom ≤ ev - 56) || (64 ≤ ev && ev < 70 && s.nOut ≤ 8 * (ev - 64)) ||
  (80 ≤ ev && ev < 96 && s.nPi = 0) || (96 ≤ ev && ev < 104 && s.nHrd ≤ (ev - 96) % 4) ||
  (104 ≤ ev && ev < 108 && s.nPlk ≤ ev - 104) || (108 ≤ ev && ev < 112 && !s.hasMir) || (ev = 126 && s.nHrd = 0)

/-- A register of a unit that the variant lacks. -/
def regAbsent (s : State) (k : Nat) : Bool :=
  let w := k % 2 ^ 20 / 1024
  let i := k % 1024
  if w = 5 then (64 ≤ i && i < 128 && s.nMil ≤ (i - 64) / 4) || (128 ≤ i && s.nPlk = 0)
  else if w = 8 then 0x200 ≤ i && (let j := (i - 0x200) / 8; !s.indexPresent j && (j < 49 || 56 ≤ j))
  else if w = 9 then s.nMil ≤ i / 16
  else if 12 ≤ w && w < 28 then s.nMil ≤ w - 12
  else if 28 ≤ w && w < 36 then s.nLom ≤ w - 28
  else if 36 ≤ w && w < 42 then
    s.nOut ≤ 8 * (w - 36) || (i < 32 && s.nOut ≤ 8 * (w - 36) + i / 4)
  else if w = 44 then i < 64 && s.nLns ≤ i / 4
  else if 52 ≤ w && w < 56 then s.nHrd ≤ w - 52
  else if w = 56 then
    s.nPi = 0 || (72 ≤ i && i < 76 && s.nHrd ≤ i - 72) || (76 ≤ i && i < 80 && s.nHrd ≤ i - 76) ||
    (128 ≤ i && i < 256 && 10 ≤ i % 16 && i % 16 < 14 && s.nHrd ≤ i % 16 - 10)
  else if 60 ≤ w && w < 64 then s.nPlk ≤ w - 60
  else if w = 64 then !s.hasMir
  else false

/-- A field that reads zero and ignores writes in a present register: severity of a reserved or absent source, enable of
an absent unit's event, OWNER of a ring that has none. -/
def fieldAbsent (s : State) (k lo : Nat) : Bool :=
  let i := k % 2 ^ 20
  if 2 * 1024 + 16 ≤ i && i < 2 * 1024 + 22 then sevSource k lo = 0 || !s.wfPresent (sevSource k lo)
  else if 0x300 ≤ i && i < 0x320 then lo % 8 = 7 && s.evAbsent (4 * (i - 0x300) + lo / 8)
  else isRing k && !isDring k && i % 8 = 2 && lo = 16

/-! ## Locks (R155, R157) -/

/-- Every block counts as disabled: M6, and from the start of an entry to it (R155, R630). -/
def cfgOpen (s : State) : Bool := s.mode = 6 || s.on pwrR PWR_STATUS_CHG

/-- The cause with which a field is locked now: 0 while enabled, 2 locked. `GLB_TMP_LOG` is no RWD field: R11 locks it by EN0
and EN1, which M6 does not make 0, so it stays locked in M6 and its refusal is cause 2 (log entry 59). -/
def lockCause (s : State) (k b lo : Nat) (l : Lock) : Option Nat :=
  if isRing k then
    let r := k - b
    if (r = 0 || r = 1 || r = 4 || r = 5 || (r = 2 && lo = 16)) && s.ringOn b then some 0 else none
  else match l with
  | .free => none
  | .enable idx bit => if s.cfgOpen || bitsOf (s.reg (b + idx)).toNat bit 1 = 0 then none else some 0
  | .ensemble => if s.cfgOpen || !s.on (ensR ((k - 0x380) / 16)) GLB_ENS_CFG_EN then none else some 0
  | .m6 => if s.cfgOpen then none else some 0
  | .tamper => if s.on glbR GLB_TMP_CFG_EN0 || s.on glbR GLB_TMP_CFG_EN1 then some 2 else none

/-! ## Values (R23, R153) -/

/-- A field accepts a value: the ranges of its table or of its rule, and what the state allows. A value outside a range is
refused also where the rule gives the range without saying so (log entry 66). -/
def valueOk (s : State) (k b lo old v : Nat) : Bool :=
  let w := k % 2 ^ 20 / 1024
  let i := k % 1024
  let r := k - b
  if isRing k then
    if r = 2 && lo = 0 then v = old || v = 0 || (old = 0 && 6 ≤ v && v ≤ ringLogMax k)
    else if r = 2 && lo = 16 then v ≤ s.host.nvf
    else true
  else if w = 0 then
    if i = GLB_TIMECHAN_CHAN.idx && lo = GLB_TIMECHAN_CHAN.lo then v < s.nMil
    else if 0x380 ≤ i && r = 0 && lo = 0 then v < 32 || (36 ≤ v && v < 49)
    else true
  else if w = 2 && 16 ≤ i then v != 2 || wfIsolates (sevSource k lo)
  else if w = 5 then
    if i = GLB_HRT_CFG_LCHAN.idx && lo = 0 then v < s.nMil else true
  else if 12 ≤ w && w < 28 then
    if r = 0 && lo = MIL_CFG_CSRC.lo then v < s.nMil else true
  else if 28 ≤ w && w < 36 then
    if r = 0 && lo = LOM_CFG_CHAN.lo then v < s.nMil else true
  else if 36 ≤ w && w < 42 && i < 32 then
    if r = 0 && lo = OUT_CFG_SRC.lo then v < s.nLom || (8 ≤ v && v < 11)
    else if r = 0 && lo = OUT_CFG_FMT.lo then v < 5
    else true
  else if w = 45 && r = 0 then
    if lo = LNS_BST_CFG_START.lo then v < s.nLns
    else if lo = LNS_BST_CFG_STOPS.lo then v < 2 ^ s.nLns
    else true
  else if w = 48 then
    if r = 0 && lo = TLY_CFG_KIND.lo then v < 3
    else if r = 0 && lo = TLY_CFG_CHAN.lo then v < s.nMil
    else if r = 3 then v != 0 && 1000000000 % v = 0
    else if r = 512 && lo = TLY_SEN_CFG_IN.lo then v < s.nLns
    else if i = TLY_SEN_DLY_DLY.idx then v ≤ 10000000 || 2 ^ 32 - 10000000 ≤ v
    else true
  else if 52 ≤ w && w < 56 then
    if r = 0 && lo = HRD_PORT_CFG_MODE.lo then v < 5
    else if r = 0 && lo = HRD_PORT_CFG_TXLOOM.lo then v < s.nLom
    else if r = 48 && lo = HRD_ESMC_CFG_CHAN.lo then v < s.nMil
    else if i = HRD_LAT_EGR.idx then v != 2 ^ 15
    else true
  else if w = 56 && 384 ≤ i && r = 0 then
    if lo = HRD_PI_CFG_PROFILE.lo then v < 6
    else if lo = HRD_PI_CFG_ROLE.lo || lo = HRD_PI_CFG_TRANS.lo then v < 3
    else if lo = HRD_PI_CFG_PORTS.lo then v < 2 ^ s.nHrd
    else true
  else if w = 68 then
    if r = 1 && lo = PWR_MODE_CTL_REQ.lo then v = 6 || v = old else true
  else if w = 72 then
    if r = 1 then v < 500000000 || 2 ^ 30 - 500000000 ≤ v else true
  else true

/-- Fields that a write must leave as they were because of what it would leave together (R153); `want` is the word as
written, before any refusal. -/
def together (s : State) (k b old new want : Nat) : List Fld :=
  let w := k % 2 ^ 20 / 1024
  let i := k % 1024
  let r := k - b
  let v := fOf new
  let only := fun (c : Bool) (l : List Fld) => if c then l else []
  if k = glbR + GLB_TMP_LOG_FIRST.idx then
    only (v GLB_TMP_LOG_COUNT != 0 && (v GLB_TMP_LOG_FIRST < 320 || 768 < v GLB_TMP_LOG_FIRST + v GLB_TMP_LOG_COUNT))
      [GLB_TMP_LOG_FIRST, GLB_TMP_LOG_COUNT]
  else if k = rveR + RVE_SPI_CTL_EN.idx then
    only (v RVE_SPI_CTL_EN = 1 && fOf old RVE_SPI_CTL_EN = 0 && s.mode != 6 && s.mode != 12) [RVE_SPI_CTL_EN] ++
    only (v RVE_SPI_CTL_CS = 1 && fOf old RVE_SPI_CTL_CS = 0 && fOf old RVE_SPI_CTL_EN = 0) [RVE_SPI_CTL_CS]
  else if k = grnR + GRN_UNLOCK_CTL_ACT.idx then
    -- a Set without write access is a write to a locked field (R580, DEDUCED, log entry 25)
    only (v GRN_UNLOCK_CTL_ACT = 3) [GRN_UNLOCK_CTL_ACT, GRN_UNLOCK_CTL_GO] ++
    only (v GRN_UNLOCK_CTL_ACT = 2 && v GRN_UNLOCK_CTL_GO = 1 && !s.granOpen (v GRN_UNLOCK_CTL_REGION) 1) [GRN_UNLOCK_CTL_GO]
  else if k = ltcR + LTC_UTCOFF_LEAP61.idx then
    only (v LTC_UTCOFF_LEAP61 = 1 && v LTC_UTCOFF_LEAP59 = 1) [LTC_UTCOFF_LEAP61, LTC_UTCOFF_LEAP59]
  else if k = ltcR + LTC_STEP_CTL_GO.idx then
    only (s.on ltcR LTC_STATUS_STEP_PEND) [LTC_STEP_CTL_GO]
  else if k = glb1R + GLB_HRT_LOC_FIRST.idx then
    only (!(320 ≤ v GLB_HRT_LOC_FIRST && v GLB_HRT_LOC_FIRST + 129 ≤ 768)) [GLB_HRT_LOC_FIRST]
  else if w = 8 && 0x200 ≤ i && r = 5 then
    only (v PRS_PW_PWMAX < v PRS_PW_PWMIN) [PRS_PW_PWMIN, PRS_PW_PWMAX]
  else if 12 ≤ w && w < 28 && r = 0 then
    let bad := fun (x : Nat) => fOf x MIL_CFG_CASC = 1 && Decidable.decide (w - 12 ≤ fOf x MIL_CFG_CSRC)
    only (bad new || bad want) [MIL_CFG_CASC, MIL_CFG_CSRC]
  else if 28 ≤ w && w < 36 then
    let n := w - 28
    if r = 1 then only (!targetOk (v LOM_N_N * s.fcReg n)) [LOM_N_N]
    else if r = 3 then
      let fc := s.get (lomR n) LOM_FC_LO_FC + 2 ^ 32 * v LOM_FC_HI_FC
      only (!targetOk (s.get (lomR n) LOM_N_N * fc) || !fcOk fc) [LOM_FC_HI_FC]
    else []
  else if 36 ≤ w && w < 42 then
    let g := w - 36
    if i < 32 then
      let o := 8 * g + i / 4
      if r = 0 then
        let noHalf := v OUT_CFG_HALF = 1 && s.get (outR o) OUT_DIV_DIV < 16
        let noFmt := v OUT_CFG_FMT = 2 && s.get (bankR g) OUT_BANK_STATUS_VDDO = 1
        -- the limit is that of what these refusals leave (R373)
        let half := if noHalf then fOf old OUT_CFG_HALF else v OUT_CFG_HALF
        let tooFast := v OUT_CFG_EN = 1 && v OUT_CFG_SRC < 9 &&
          !s.withinLimit g (v OUT_CFG_SRC) (if noFmt then fOf old OUT_CFG_FMT else v OUT_CFG_FMT) (s.get (outR o) OUT_DIV_DIV) (half = 1)
        only noHalf [OUT_CFG_HALF] ++
        only noFmt [OUT_CFG_FMT] ++
        only tooFast [OUT_CFG_EN, OUT_CFG_SRC, OUT_CFG_FMT, OUT_CFG_HALF]
      else if r = 1 then
        let c := outR o
        let tooFast := s.on c OUT_CFG_EN && s.outReg o < 9 &&
          !s.withinLimit g (s.outReg o) (s.get c OUT_CFG_FMT) (v OUT_DIV_DIV) (s.on c OUT_CFG_HALF)
        only ((s.on c OUT_CFG_HALF && v OUT_DIV_DIV < 16) || tooFast) [OUT_DIV_DIV]
      else []
    else if i = OUT_BANK_CFG_BYP.idx then
      let n := (s.get (priR (v OUT_BANK_CFG_BYP)) PRS_NOM_HZ : Rat) * s.get (priR (v OUT_BANK_CFG_BYP)) PRS_IN_CFG_DIV
      only ((List.range 8).any (fun j =>
        let o := 8 * g + j
        let c := outR o
        o < s.nOut && s.on c OUT_CFG_EN && s.outReg o = 8 &&
        Decidable.decide (outLimit (s.get c OUT_CFG_FMT) <
          2 * n / ((2 * s.get c OUT_DIV_DIV + s.get c OUT_CFG_HALF : Nat) : Rat)))) [OUT_BANK_CFG_BYP]
    else []
  else if w = 48 && r = 0 && i < 512 then
    -- SRC is the selector that R23 keeps; SRCK stays as well only where the kept SRC names an index and no input
    only (v TLY_CFG_SRCK = 0 && s.nLns ≤ v TLY_CFG_SRC)
      (TLY_CFG_SRC :: (if s.nLns ≤ fOf old TLY_CFG_SRC then [TLY_CFG_SRCK] else [])) ++
    only (v TLY_CFG_KIND = 2 && v TLY_CFG_SRCK = 2) [TLY_CFG_KIND, TLY_CFG_SRCK]
  else if 52 ≤ w && w < 56 && r = 0 then
    only (v HRD_PORT_CFG_FEC = 1 && v HRD_PORT_CFG_MODE != 4) [HRD_PORT_CFG_FEC, HRD_PORT_CFG_MODE] ++
    only (v HRD_PORT_CFG_AN = 1 && v HRD_PORT_CFG_MODE != 1) [HRD_PORT_CFG_AN, HRD_PORT_CFG_MODE]
  else if w = 56 && 384 ≤ i then
    let k := (i - 384) / 16
    let c := piR k
    if r = 0 then
      if !profileWordsOk new (s.reg (c + HRD_PI_IVL_LSYNC.idx)).toNat then
        [HRD_PI_CFG_EN, HRD_PI_CFG_PROFILE, HRD_PI_CFG_ROLE, HRD_PI_CFG_ONESTEP, HRD_PI_CFG_TRANS, HRD_PI_CFG_PORTS,
          HRD_PI_CFG_DOMAIN, HRD_PI_CFG_NFWD]
      else if v HRD_PI_CFG_EN = 1 &&
          (s.piClash k (v HRD_PI_CFG_PORTS) (v HRD_PI_CFG_TRANS) (v HRD_PI_CFG_DOMAIN) ||
            (s.get c HRD_PI_ID_LO_ID = 0 && s.get c HRD_PI_ID_HI_ID = 0)) then
        if fOf old HRD_PI_CFG_EN = 0 then [HRD_PI_CFG_EN] else [HRD_PI_CFG_PORTS, HRD_PI_CFG_TRANS, HRD_PI_CFG_DOMAIN]
      else []
    else if r = 3 then
      only (!profileWordsOk (s.reg c).toNat new)
        [HRD_PI_IVL_LSYNC, HRD_PI_IVL_LANN, HRD_PI_IVL_LDREQ, HRD_PI_IVL_ATMO, HRD_PI_IVL_STMO, HRD_PI_IVL_MPDF]
    else []
  else if 60 ≤ w && w < 64 && r = 0 then
    only (v PLK_PORT_CFG_ROLE != fOf old PLK_PORT_CFG_ROLE && !s.plkRoleOk (w - 60) (v PLK_PORT_CFG_ROLE))
      [PLK_PORT_CFG_ROLE]
  else if w = 64 then
    if r = 0 then only (v MIR_CFG_EN = 1 && fOf old MIR_CFG_EN = 0 && s.mirPort.isNone) [MIR_CFG_EN]
    else if r = 1 then
      only (v MIR_KEY_KEY_OVERRIDE = 1 && fOf old MIR_KEY_KEY_OVERRIDE = 0 && !(s.keyOverride true).2) [MIR_KEY_KEY_OVERRIDE]
    else []
  else if w = 68 then
    if r = 1 then
      only (v PWR_MODE_CTL_GO = 1 && fOf want PWR_MODE_CTL_REQ != 6) [PWR_MODE_CTL_GO] ++
      only (v PWR_MODE_CTL_GO = 1 && s.mode = 13 && (s.on wchR WCH_STATUS_SAFEHOLD || s.on pwrR PWR_STATUS_SAFEBOOT))
        [PWR_MODE_CTL_REQ, PWR_MODE_CTL_GO]
    else if r = 3 then only (v PWR_BOOT_HOSTGO = 1 && s.mode != 4) [PWR_BOOT_HOSTGO]
    else []
  else []

/-- A strobe that is refused as a write to a locked field: tunnel data (R536), a host increment of WC0–WC3 (R597), an SPI
byte (R671), an FC pair that breaks R329. -/
def strobeRefused (s : State) (who : Who) (k mask data : Nat) (lane0 : Bool) : Bool :=
  let w := k % 2 ^ 20 / 1024
  let i := k % 1024
  if 60 ≤ w && w < 64 && i = PLK_TUN_TX_DATA.idx then mask != 0 && !(s.tunnelWrite (w - 60) 0).2
  else if k = grnR + GRN_WC_INC_CTR.idx then mask % 16 != 0 && !who.rve && (mask &&& data) % 16 < 4
  else if k = rveR + RVE_SPI_TX_DATA.idx then
    lane0 && mask % 256 != 0 && (who.rve || who.func = 0) && (!s.on rveR RVE_SPI_CTL_EN || s.get rveR RVE_SPI_CTL_TXFREE = 0)
  else if 28 ≤ w && w < 36 && i = LOM_FC_HI_FC.idx then
    let hi := (s.get (lomR (w - 28)) LOM_FC_HI_FC &&& (2 ^ 14 - 1 - mask % 2 ^ 14)) ||| (mask &&& data) % 2 ^ 14
    let fc := s.get (lomR (w - 28)) LOM_FC_LO_FC + 2 ^ 32 * hi
    mask % 2 ^ 14 != 0 && (!targetOk (s.get (lomR (w - 28)) LOM_N_N * fc) || !fcOk fc)
  else false

end State

end Sys2Proof.Machine
end

