-- ==== Sys2Proof/Machine/Bus.lean ====
section
/-! DEFINITION. BAR0 accesses (R142–R167): personalities, merging, protection, flagging, and what a write of a register
makes its block do. -/

namespace Sys2Proof.Machine

namespace State

/-! ## Flagging (R159, R160) -/

/-- The record of a flagged access, device-wide and of the function that made it. -/
def flagRecord (s : State) (who : Who) (off cause : Nat) : State :=
  let s := (s.put glbR GLB_VIOL_ADDR_OFFSET off).put glbR GLB_VIOL_INFO_CAUSE cause
  let s := (s.put glbR GLB_VIOL_INFO_FUNC (if who.rve then 0 else who.func)).putB glbR GLB_VIOL_INFO_RVE who.rve
  let s := (s.putB glbR GLB_VIOL_INFO_CMD who.cmd).bump glbR GLB_VIOL_INFO_COUNT
  if who.rve then s else
  let b := fglbR who.func
  ((s.bump b GLB_ACC_ERR_COUNT).put b GLB_ACC_ERR_CAUSE cause).put b GLB_ACC_ADDR_OFFSET off

/-- A flagged access: WR_IGN for causes 0–2, WF08 for causes 0–3, WF07 for a crossing access. -/
def flag (s : State) (who : Who) (off cause : Nat) : State :=
  let s := s.flagRecord who off cause
  let w := off / 2 ^ 14
  let s := if cause ≤ 2 then s.putB glbR ((GLB_WR_IGN_WR_IGN.at (w / 32)).bit (w % 32)) true else s
  s.occur (if cause ≤ 3 then 8 else 7)

/-! ## What a field takes (R151–R158) -/

/-- A function that may read and write PFO fields (R156). -/
def privileged (who : Who) : Bool := who.rve || who.func = 0

/-- A register in a ring block that the requester does not reach (R106). -/
def ringDenied (s : State) (who : Who) (k : Nat) : Bool :=
  !privileged who && ((isPacketRing k && 0 < k / 2 ^ 20) ||
    (isDring k && s.get (k / 8 * 8) GLB_RING_CFG_OWNER != who.func))

/-- W1C fields that are bit maps, not counts: overrun channels, latch and consequential bits, rail bits (R152). -/
def isBitMap (k lo : Nat) : Bool :=
  (k = glbR + GLB_OVR_MIL_CHAN.idx && lo = 0) || (k = pwrR + PWR_RAIL_OUT.idx && lo = PWR_RAIL_OUT.lo) ||
  (wchR + WCH_LAT_LAT.idx ≤ k && k < wchR + WCH_CONS_CONS.idx + 3)

/-- A `_POP` register. -/
def isPop (k : Nat) : Bool :=
  k = rveR + RVE_SPI_RX_POP_DATA.idx || (60 * 1024 ≤ k && k < 64 * 1024 && k % 1024 = PLK_TUN_RX_POP_DATA.idx)

/-- The new value of one field with the causes for which it is refused. -/
def fieldWrite (s : State) (who : Who) (k b : Nat) (f : FieldSpec) (mask data old : Nat) : Nat × List Nat :=
  let m := bitsOf mask f.lo f.width
  let d := bitsOf data f.lo f.width &&& m
  let o := bitsOf old f.lo f.width
  if m = 0 || s.fieldAbsent k f.lo then (o, []) else
  match f.acc with
  | .ro => (o, [])
  | .wo => (o, [])
  | .w1c =>
    if f.width = 1 || isBitMap k f.lo then (o - (o &&& d), [])
    else if d = 2 ^ f.width - 1 then (0, []) else (o, [])
  | a =>
    if a = .pfo && !privileged who then (o, if d = 0 then [] else [1]) else
    let n := (o - (o &&& m)) ||| d
    if n = o then (o, [])
    else match s.lockCause k b f.lo f.lock with
    | some c => (o, [c])
    | none =>
      let inRange := f.ok.isEmpty || f.ok.any (fun r => r.1 ≤ n && n ≤ r.2)
      if inRange && s.valueOk k b f.lo o n then (n, []) else (o, [2])

/-- The word that a write asks of the software-written fields, before any refusal. -/
def wanted (fs : List FieldSpec) (mask data old : Nat) : Nat :=
  fs.foldl (fun w f =>
    let m := bitsOf mask f.lo f.width
    let o := bitsOf old f.lo f.width
    match f.acc with
    | .rw | .rwd | .pfo => putBits w f.lo f.width ((o - (o &&& m)) ||| (bitsOf data f.lo f.width &&& m))
    | _ => w) old

/-- All fields of a register: the new word and the causes of refusals. -/
def fieldsWrite (s : State) (who : Who) (k b : Nat) (fs : List FieldSpec) (mask data old : Nat) : Nat × List Nat :=
  let r := fs.foldl (fun (acc : Nat × List Nat) f =>
    let x := s.fieldWrite who k b f mask data old
    (putBits acc.1 f.lo f.width x.1, acc.2 ++ x.2)) (old, [])
  (s.together k b old r.1 (wanted fs mask data old)).foldl (fun (acc : Nat × List Nat) (f : Fld) =>
    if fOf acc.1 f = fOf old f then acc
    else (putBits acc.1 f.lo f.width (fOf old f), acc.2 ++ [2])) r

/-! ## What a write sets going -/

/-- An SPI byte is queued; the status fields follow the FIFOs (R671). -/
def spiSync (s : State) : State :=
  (s.put rveR RVE_SPI_CTL_TXFREE (256 - s.spi.tx.length)).putB rveR RVE_SPI_CTL_BUSY (!s.spi.tx.isEmpty)

def spiQueue (s : State) (v : Nat) : State := ({ s with spi := { s.spi with tx := s.spi.tx ++ [v % 256] } }).spiSync

/-- SPI_CS_N after a write of `RVE_SPI_CTL`: a release waits for the last queued byte. -/
def spiSelect (s : State) : State :=
  let en := s.on rveR RVE_SPI_CTL_EN
  let cs := s.on rveR RVE_SPI_CTL_CS
  let low := en && (cs || (s.spi.cs && !s.spi.tx.isEmpty))
  ({ s with spi := { s.spi with cs := low } }).putB rveR RVE_STATUS_SPIOWN en

/-- A byte has been shifted: one leaves the transmit FIFO, one enters the receive FIFO or is lost (R671). -/
def spiShift (s : State) (v : Nat) : State :=
  match s.spi.tx with
  | [] => s
  | _ :: tx =>
    let s := { s with spi := { s.spi with tx := tx, cs := s.spi.cs && (s.on rveR RVE_SPI_CTL_CS && s.on rveR RVE_SPI_CTL_EN || !tx.isEmpty) } }
    let s := if s.spi.rx.length < 256 then { s with spi := { s.spi with rx := s.spi.rx ++ [v % 256] } }
      else s.bump rveR RVE_SPI_CTL_LOST
    s.spiSync

/-- Actions of the GRN window (R580, R597, R599). -/
def grnWritten (s : State) (i new mask data : Nat) : State :=
  if i = GRN_UNLOCK_CTL_GO.idx then
    if fOf new GRN_UNLOCK_CTL_GO = 0 then s else
    let s := s.putB grnR GRN_UNLOCK_CTL_GO false
    let region := fOf new GRN_UNLOCK_CTL_REGION
    let kind := fOf new GRN_UNLOCK_CTL_KIND
    let pw := s.get grnR GRN_UNLOCK_LO_PW + 2 ^ 32 * s.get grnR GRN_UNLOCK_HI_PW
    match fOf new GRN_UNLOCK_CTL_ACT with
    | 0 => s.granUnlock region kind pw
    | 1 => s.granLock region kind
    | _ => s.granSetPw region kind pw
  else if i = GRN_WC_INC_CTR.idx then if mask % 16 = 0 then s else s.wearInc (data &&& mask % 16)
  else if i = GRN_WC_SEL_CTR.idx then if mask % 16 = 0 then s else s.wearLatch
  else s

/-- Actions of the WCH window: latch bits cleared, the first-fault record, parity (R602, R613, R614). -/
def wchWritten (s : State) (who : Who) (i old new mask : Nat) : State :=
  if WCH_LAT_LAT.idx ≤ i && i < WCH_LAT_LAT.idx + 3 then
    (List.range 32).foldl (fun s n =>
      if bitsOf old n 1 = 1 && bitsOf new n 1 = 0 then s.latchCleared (32 * (i - WCH_LAT_LAT.idx) + n) else s) s
  else if i = WCH_FIRST_VALID.idx then
    if fOf old WCH_FIRST_VALID = 1 && fOf new WCH_FIRST_VALID = 0 then s.firstCleared
    else s
  else if (i = 0 || 16 ≤ i) && mask != 0 && privileged who then
    let n := if i = 0 then 0 else i - 15
    if !s.wd.badPar.contains n then s else
    let s := s.setWd (fun w => { w with badPar := w.badPar.filter (· != n) })
    if s.wd.badPar.isEmpty then (s.putB wchR WCH_STATUS_PAR false).heldEnd 0 else s
  else s

/-- Actions of the PWR window (R633, R635, R637). -/
def pwrWritten (s : State) (i new : Nat) : State :=
  if i = PWR_MODE_CTL_GO.idx then
    if fOf new PWR_MODE_CTL_GO = 0 then s else
    let s := s.putB pwrR PWR_MODE_CTL_GO false
    if s.mode = 13 then s.setPwr (fun p => { p with exit := true }) else s
  else if i = PWR_BOOT_HOSTGO.idx then
    if fOf new PWR_BOOT_HOSTGO = 0 then s else (s.putB pwrR PWR_BOOT_HOSTGO false).hostLoad
  else if i = PWR_RESET_GO.idx then
    if fOf new PWR_RESET_GO = 0 then s else (s.putB pwrR PWR_RESET_GO false).resetPart
  else s

/-- Actions of an output's block: a divider setting waits, the fine delay moves (R365, R367). -/
def outWritten (s : State) (o r old new pos : Nat) : State :=
  let s := if r < 3 then s.syncPend o else s
  let s := if r = 0 && !(s.outSt o).en && 8 ≤ fOf new OUT_CFG_SRC then s.putB (outR o) OUT_STATUS_PLOST false else s
  if r = OUT_DLY_FDLY.idx && fOf old OUT_DLY_FDLY != fOf new OUT_DLY_FDLY then
    s.outFine o (fOf old OUT_DLY_FDLY) (s.oscS 0 + (pos : Rat) / (1 + s.ltc.inc) / 2 ^ 32 / 1000000000) else s

/-- A ring is enabled or disabled by its LOG2SIZE (R107). -/
def ringWritten (s : State) (b old new : Nat) : State :=
  let was := fOf old GLB_RING_CFG_LOG2SIZE
  let is := fOf new GLB_RING_CFG_LOG2SIZE
  if was = 0 && is != 0 then s.ringEnabled b else if was != 0 && is = 0 then s.ringDisabled b was else s

/-- What the write of register `k` of the block at `b` sets going: `mask` and `data` as presented, the words before and
after. -/
def written (s : State) (who : Who) (k b mask data old new pos : Nat) : State :=
  let w := k % 2 ^ 20 / 1024
  let i := k % 1024
  let r := k - b
  let touched := fun (f : Fld) => bitsOf mask f.lo f.width != 0
  let strobe := fun (f : Fld) => bitsOf (mask &&& data) f.lo f.width != 0
  if isRing k then if r = GLB_RING_CFG_LOG2SIZE.idx then s.ringWritten b old new else s
  else if w = 0 then
    if 0x340 ≤ i && i < 0x380 then
      let e := (i - 0x340) / 8
      if r = GLB_ENS_CFG_EN.idx && fOf old GLB_ENS_CFG_EN = 0 && fOf new GLB_ENS_CFG_EN = 1 then s.ensEnabled e
      else if r = GLB_ENS_LATCH_SLOT.idx && touched GLB_ENS_LATCH_SLOT then s.setEns e (fun x => { x with latch := true })
      else s
    else s
  else if w = 1 then
    if i = RVE_SPI_CTL_EN.idx then s.spiSelect.spiSync else s
  else if w = 2 then s.wchWritten who i old new mask
  else if w = 3 then s.grnWritten i new mask data
  else if w = 4 then
    if i = LTC_CAPTURE_GO.idx && strobe LTC_CAPTURE_GO then s.ltcCapture pos
    else if i = LTC_STEP_CTL_GO.idx && fOf new LTC_STEP_CTL_GO = 1 then (s.putB ltcR LTC_STEP_CTL_GO false).stepRequest
    else s
  else if w = 5 then
    if i = GLB_HRT_LATCH_GO.idx && strobe GLB_HRT_LATCH_GO then s.setHearth (fun h => { h with latch := true })
    else if i = GLB_HRT_CFG_INTV.idx && fOf old GLB_HRT_CFG_INTV != fOf new GLB_HRT_CFG_INTV then
      (s.setHearth (fun h => { h with hist := [], count := 0, grid := none, closed := none })).putCount
    else s
  else if w = 9 then
    if r = PRS_PL_IDX_IDX.idx && touched PRS_PL_IDX_IDX then
      let c := i / 16
      s.setPrism (fun p => { p with plReq := if p.plReq.contains c then p.plReq else p.plReq ++ [c] })
    else s
  else if 12 ≤ w && w < 28 then
    if r = MIL_LATCH_GO.idx && strobe MIL_LATCH_GO then s.setChan (w - 12) (fun x => { x with latch := true })
    else if r = MIL_FRW_HI_FRW.idx && touched MIL_FRW_HI_FRW then
      let v := signed (s.get64 b MIL_FRW_LO_FRW MIL_FRW_HI_FRW) 64
      s.setChan (w - 12) (fun x => { x with frwNext := some v })
    else s
  else if 28 ≤ w && w < 36 then
    let n := w - 28
    if r = LOM_FC_HI_FC.idx && touched LOM_FC_HI_FC then
      let s := s.setLoom n (fun l => { l with held := false })
      if s.strobeRefused who k mask data true then
        (s.put b LOM_FC_LO_FC ((s.loomSt n).fc % 2 ^ 32)).put b LOM_FC_HI_FC ((s.loomSt n).fc / 2 ^ 32)
      else s.setLoom n (fun l => { l with fcNext := some (s.get64 b LOM_FC_LO_FC LOM_FC_HI_FC) })
    else if r = LOM_N_N.idx && touched LOM_N_N then
      let asked := fOf (wanted [⟨0, 8, .rw, 0, .free, []⟩] mask data old) LOM_N_N
      if (s.lockCause k b 0 (.enable 0 0)).isNone && !targetOk (asked * s.fcReg n) then
        ((s.setLoom n (fun l => { l with held := false })).put b LOM_FC_LO_FC ((s.loomSt n).fc % 2 ^ 32)).put b LOM_FC_HI_FC ((s.loomSt n).fc / 2 ^ 32)
      else s
    else if r = LOM_FC_LO_FC.idx && touched LOM_FC_LO_FC then s.setLoom n (fun l => { l with held := true })
    else if r = LOM_BIDX_BIDX.idx && touched LOM_BIDX_BIDX then s.setLoom n (fun l => { l with latch := true })
    else s
  else if 36 ≤ w && w < 42 then if i < 32 then s.outWritten (8 * (w - 36) + i / 4) r old new pos else s
  else if w = 48 && r = 0 && i < 512 then
    if fOf old TLY_CFG_EN = 1 && fOf new TLY_CFG_EN = 0 then s.tmOff (i / 8) else s
  else if w = 48 && i = TLY_SEN_CFG_EN.idx then
    if fOf old TLY_SEN_CFG_EN = 1 && fOf new TLY_SEN_CFG_EN = 0 then s.senOff else s
  else if w = 56 && HRD_SE_CFG_EN.idx ≤ i && i ≤ HRD_SE_SIZE_LOG2.idx then
    -- the engine is enabled on a zeroed table; in M6 another table is named (R490)
    if (i = HRD_SE_CFG_EN.idx && fOf old HRD_SE_CFG_EN = 0 && fOf new HRD_SE_CFG_EN = 1) || (i != HRD_SE_CFG_EN.idx && old != new) then s.sessForget
    else s
  else if w = 56 && 128 ≤ i && i < 256 then
    let p := r - HRD_PI_ASYM_ASYM.idx
    if HRD_PI_ASYM_ASYM.idx ≤ r && p < 4 && old != new then
      s.asymChanged ((i - 128) / 16) (some p) (signed new 32 - signed old 32)
    else s
  else if 60 ≤ w && w < 64 then
    if r = PLK_TUN_TX_DATA.idx && mask != 0 then (s.tunnelWrite (w - 60) (mask &&& data)).1
    else if r = PLK_TUN_TXCTL_SEND.idx && strobe PLK_TUN_TXCTL_SEND then s.tunnelSend (w - 60)
    else s
  else if w = 64 then
    if r = MIR_KEY_KEY_OVERRIDE.idx && privileged who && touched MIR_KEY_KEY_OVERRIDE then
      if fOf old MIR_KEY_KEY_OVERRIDE = 1 then
        let s := s.putB mirR MIR_KEY_KEY_OVERRIDE true
        if fOf new MIR_KEY_KEY_OVERRIDE = 0 then (s.keyOverride false).1 else s
      else if fOf new MIR_KEY_KEY_OVERRIDE = 1 then (s.keyOverride true).1 else s
    else if r = MIR_CFG_EN.idx && fOf old MIR_CFG_EN = 1 && fOf new MIR_CFG_EN = 0 && s.on mirR MIR_KEY_HOLD then
      ((s.putB mirR MIR_CFG_EN true).dropKey 4).putB mirR MIR_CFG_EN false
    else s
  else if w = 68 then s.pwrWritten i new
  else s

/-! ## One 32-bit write (R150–R159) -/

/-- A write presented to the register at an offset, bit by bit; whether it was refused and flagged. Reeve has no function
of its own: it reaches function 0's file of a function-relative register, which R166 leaves open (log entry 59). An unprivileged
write of ones to GLB_VIOL_ADDR, GLB_VIOL_INFO or GLB_WR_IGN, whose bits no write can set, is flagged with cause 1 (log entry
66). -/
def present (s : State) (who : Who) (off mask data pos : Nat) (lane0 : Bool) : State × Bool :=
  match decodeOff (if who.rve then 0 else who.func) (off / 4 * 4) with
  | .unmapped => (s.flag who off 3, true)
  | .hole => (s, false)
  | .msix _ => (s, false)
  | .pba _ => (s, false)
  | .at k =>
    if s.regAbsent k || isPop k || mask = 0 then (s, false) else
    match RegMap.lookup k with
    | none => (s, false)
    | some (b0, fs) =>
      let b := b0 + k / 2 ^ 20 * 2 ^ 20
      if s.ringDenied who k then
        if fs.any (fun f => f.acc != .ro && bitsOf (mask &&& data) f.lo f.width != 0) then (s.flag who off 1, true) else (s, false)
      else if k = glbR + GLB_VIOL_ADDR_OFFSET.idx then
        if privileged who || bitsOf (data &&& mask) 0 22 = 0 then (s, false) else (s.flag who off 1, true)
      else if k = glbR + GLB_VIOL_INFO_COUNT.idx then
        if privileged who then
          (if mask = 2 ^ 32 - 1 && data = 2 ^ 32 - 1 then
            (s.setReg k 0).setReg (glbR + GLB_VIOL_ADDR_OFFSET.idx) 0 else s, false)
        else if bitsOf (mask &&& data) 0 3 + bitsOf (mask &&& data) 8 6 + bitsOf (mask &&& data) 16 16 = 0 then (s, false)
        else (s.flag who off 1, true)
      else if glbR + GLB_WR_IGN_WR_IGN.idx ≤ k && k < glbR + GLB_WR_IGN_WR_IGN.idx + 3 then
        if privileged who then
          let o := (s.reg k).toNat
          (s.setReg k (BitVec.ofNat 32 (o - (o &&& (mask &&& data)))), false)
        else if bitsOf (mask &&& data) 0 (if k = glbR + GLB_WR_IGN_WR_IGN.idx + 2 then 16 else 32) = 0 then (s, false)
        else (s.flag who off 1, true)
      else
        let old := (s.reg k).toNat
        let r := s.fieldsWrite who k b fs mask data old
        let strobe := s.strobeRefused who k mask data lane0
        let causes := r.2 ++ (if strobe then [2] else [])
        let isTx := k = rveR + RVE_SPI_TX_DATA.idx
        let t := if isTx then
            if strobe || !lane0 || mask % 256 = 0 || !privileged who then s else s.spiQueue (mask &&& data)
          else if strobe && k != lomR ((k / 1024) - 28) + LOM_FC_HI_FC.idx then s
          else (s.setReg k (BitVec.ofNat 32 r.1)).written who k b mask data old r.1 pos
        if causes.contains 1 then (t.flag who off 1, true)
        else if causes.contains 0 then (t.flag who off 0, true)
        else if causes.contains 2 then (t.flag who off 2, true)
        else (t, false)

/-! ## Accesses of any width (R161–R165) -/

/-- An access that crosses a 4-byte boundary other than an aligned 64-bit one (R164). -/
def crossing (a : Access) : Bool := 4 < a.off % 4 + a.len && !(a.len = 8 && a.off % 8 = 0)

/-- The lanes of a word as a bit mask. -/
def laneMask (be : Nat) : Nat :=
  (List.range 4).foldl (fun m j => if bitsOf be j 1 = 1 then m + 255 * 2 ^ (8 * j) else m) 0

/-- Mask and data of a personality (R150), for the written lanes `lm` (R162). -/
def personality (p v lm : Nat) : Nat × Nat :=
  let v := v &&& lm
  match p with
  | 0 => (lm, v)
  | 1 => (v, 2 ^ 32 - 1)
  | 2 => (v, 0)
  | _ => (v / 2 ^ 16 &&& lm, v % 2 ^ 16)

/-- One half of a write: the aligned word at `off`, byte enables by lane, the word's value. A write with no byte enabled does
nothing and is not flagged, an unmapped window's included (R143 leaves it open; log entry 59). -/
def writeHalf (s : State) (who : Who) (off be v pos : Nat) : State :=
  if be % 16 = 0 then s
  else match decodeOff (if who.rve then 0 else who.func) (off / 4 * 4) with
  | .msix d =>
    let f := who.func * 256 + d
    let old := (assocD (if d % 4 = 3 then 1 else 0) s.host.msix f : Word)
    let lm := laneMask be
    let new := BitVec.ofNat 32 ((old.toNat &&& (2 ^ 32 - 1 - lm)) ||| (v &&& lm))
    let new := if d % 4 = 3 then new &&& 1 else if d % 4 = 0 then new &&& 0xFFFFFFFC else new
    let s := s.setHost (fun h => { h with msix := memPut (fun k => some (if k % 4 = 3 then (1 : Word) else 0)) h.msix f new })
    if d % 4 = 3 && new = 0 && s.host.pba.contains (who.func, d / 4) then s.msixSend who.func (d / 4) else s
  | _ =>
    let (m, d) := personality (bitsOf off 12 2) v (laneMask be)
    (s.present who off m d pos (be % 2 = 1)).1

/-- BAR0 answers this requester: from M3 on, for an enabled function (R98, R634). -/
def answers (s : State) (who : Who) : Bool := 3 ≤ s.mode && (who.rve || who.func ≤ s.host.nvf)

/-- A crossing access: Completer Abort, no effect, flagged with cause 4, WF07 (R164). -/
def crossed (s : State) (a : Access) : State :=
  let s := s.flag a.who a.off 4
  { s with bus := { s.bus with rdata := [], abort := true } }

/-- The low or high 32-bit half of a 64-bit access (R163). -/
def half (a : Access) (hi : Bool) : Access :=
  { a with
    off := a.off + (if hi then 4 else 0), len := 4
    be := a.be / (if hi then 16 else 1) % 16, val := a.val / (if hi then 2 ^ 32 else 1) % 2 ^ 32 }

/-- A write of at most four lanes within one word (R162). -/
def laneWrite (s : State) (a : Access) : State :=
  let o := a.off % 4
  ({ s with bus := { s.bus with abort := false } }).writeHalf a.who a.off (a.be % 2 ^ a.len * 2 ^ o)
    (a.val % 2 ^ (8 * a.len) * 2 ^ (8 * o)) a.pos

/-- A BAR0 write; a 64-bit one is two 32-bit ones, low word first. -/
def regWrite (s : State) (a : Access) : State :=
  if !s.answers a.who || a.len = 0 then s
  else if crossing a then s.crossed a
  else if a.len = 8 then
    let t := s.laneWrite (half a false)
    if t.answers a.who then t.laneWrite (half a true) else t
  else s.laneWrite a

/-! ## Reads (R149, R156, R165) -/

/-- The pop of a `_POP` register: the word read and the FIFO after it. -/
def popWord (s : State) (who : Who) (k : Nat) : Nat × State :=
  let w := k / 1024
  if 60 ≤ w then s.tunnelPop (w - 60)
  else if !privileged who then (0, s)
  else match s.spi.rx with
  | [] => (0, s)
  | v :: rx => (v + 2 ^ 8 + min rx.length 255 * 2 ^ 16, { s with spi := { s.spi with rx := rx } })

/-- The plain value of a register that follows hardware state, where the register file does not hold it. -/
def computed (s : State) (k : Nat) : Option Nat :=
  if k < 8 && 2 ≤ k then
    some (if k = 2 then Config.uid.toNat % 2 ^ 32 else if k = 3 then Config.uid.toNat / 2 ^ 32 else s.cap (k - 4))
  else if k = glbR + GLB_TN_LO_TN_LO.idx then some (s.tn % 2 ^ 32)
  else if k = glbR + GLB_TN_HI_TN_HI.idx then some (s.tn / 2 ^ 32)
  else if k = glbR + GLB_TIX_TIX.idx then some s.tix
  else if k = wchR + WCH_CNT_COUNT.idx then
    let n := s.get wchR WCH_CNT_SEL_SEL
    some (assocD 0 s.wd.cnt n + 2 ^ 16 * assocD 0 s.wd.ccnt n)
  else if k = grnR + GRN_UNLOCK_LO_PW.idx || k = grnR + GRN_UNLOCK_HI_PW.idx then some 0
  else none

/-- The word a requester reads from a register without a FIFO. -/
def regRead (s : State) (who : Who) (k : Nat) : Nat :=
  if s.regAbsent k || s.ringDenied who k then 0 else
  match RegMap.lookup k with
  | none => 0
  | some (_, fs) =>
    let v := (s.computed k).getD (s.reg k).toNat
    fs.foldl (fun acc f =>
      if (f.acc = .pfo && !privileged who) || f.acc = .wo || (s.fieldAbsent k f.lo && f.lo + k != wchR + 16) then acc
      else acc + bitsOf v f.lo f.width * 2 ^ f.lo) 0

/-- One half of a read. -/
def readHalf (s : State) (who : Who) (off : Nat) : Nat × State :=
  match decodeOff (if who.rve then 0 else who.func) (off / 4 * 4) with
  | .unmapped => (0, s)
  | .hole => (0, s)
  | .msix d => ((assocD (if d % 4 = 3 then 1 else 0) s.host.msix (who.func * 256 + d) : Word).toNat, s)
  | .pba d =>
    ((List.range 32).foldl (fun v n => if s.host.pba.contains (who.func, 32 * d + n) then v + 2 ^ n else v) 0, s)
  | .at k => if s.regAbsent k then (0, s) else if isPop k then s.popWord who k else (s.regRead who k, s)

/-- A BAR0 read: the bytes read stand in `bus.rdata`. -/
def busRead (s : State) (a : Access) : State :=
  if !s.answers a.who || a.len = 0 then s else
  if crossing a then s.crossed a else
  let (lo, s) := s.readHalf a.who a.off
  let (hi, s) := if a.len = 8 then s.readHalf a.who (a.off + 4) else (0, s)
  { s with bus := { s.bus with rdata := ((leBytes 8 (lo + 2 ^ 32 * hi)).drop (a.off % 4)).take a.len, abort := false } }

end State

end Sys2Proof.Machine
end

