-- ==== Sys2Proof/Machine/Faults.lean ====
section
/-! DEFINITION. Fault occurrences from outside, isolation actions, the ends of reactions and suppressions, overruns
(R58–R66, R600–R614). -/

namespace Sys2Proof.Machine

namespace State

/-! ## Occurrences -/

/-- A held source (R606). -/
def wfHeld (n : Nat) : Bool :=
  n == 0 || n == 5 || (14 ≤ n && n ≤ 18) || (32 ≤ n && n ≤ 37) || n == 40

/-- Occurrences recorded in one core-clock cycle: `srcs` arise, the conditions `ended` end, the configuration registers
`bad` hold bad parity (R600–R602, R614). -/
def faultOccurrence (s : State) (srcs ended bad : List Nat) : State :=
  if s.mode < 2 then s else
  let s := ended.foldl heldEnd s
  let s := if bad.isEmpty then s else
    (s.setWd (fun w => { w with badPar := w.badPar ++ bad.filter (fun b => b < 7 && !w.badPar.contains b) })).putB wchR WCH_STATUS_PAR true
  let l := (if bad.isEmpty then [] else [0]) ++ srcs.filter (fun n => n != 0)
  let new := (l.filter (fun n => s.wfPresent n && !(wfHeld n && s.wd.held.contains n))).eraseDups
  let s := s.setWd (fun w => { w with held := w.held ++ new.filter wfHeld })
  s.occurMany new

/-- Four ticks without the firmware signal, in a mode in which Reeve runs (R606). -/
def watchdogDue (s : State) : Bool := s.reeveRuns && 4 ≤ s.wd.missed && s.wd.barked != some s.prism.tick

/-- WF01, once in each tick that the condition holds at the start of (R600, log entry 21). -/
def watchdog (s : State) : State :=
  if s.watchdogDue then (s.setWd (fun w => { w with barked := some s.prism.tick })).heldBoundary 1 else s

/-! ## Isolation actions (R608) -/

/-- Reeve is held: what it had staged is discarded without completions. -/
def reeveRestart (s : State) (src done : Nat) : State :=
  let s := s.discardStaged (fun _ => true)
  let s := s.setWd (fun w => { w with reeveHold := some (max done (w.reeveHold.getD 0)) })
  ((s.bump rveR RVE_RESTART_COUNT).put rveR RVE_RESTART_SRC src).put rveR RVE_STATUS_STATE 3

/-- The action of a source begins. -/
def isolate (s : State) (x : Isol) : State :=
  let n := x.src
  if wfRestartsReeve n then s.reeveRestart n x.done
  else if n = 10 then
    (s.wd.ovrChan.filter (fun e => e.2 == x.tick)).foldl (fun s e => (s.chanState e.1 3).1) s
  else if n = 11 then s.heraldRestart
  else if n = 12 then
    (List.range 64).foldl (fun s m =>
      if s.wd.ovrCore.contains (m / 32) then s.tmCtl m (List.replicate 15 0 ++ [1]) else s) s
  else if 24 ≤ n && n ≤ 31 then s.putB (lomR (n - 24)) LOM_CFG_EN false
  else if 32 ≤ n && n ≤ 37 then
    (List.range 8).foldl (fun s k =>
      let o := 8 * (n - 32) + k
      if o < s.nOut then s.putB (outR o) OUT_CFG_EN false else s) s
  else s

/-- Actions whose first boundary has come. -/
def isolations (s : State) : State :=
  let t := s.prism.tick
  let now := s.wd.isol.filter (fun x => !x.began && x.start ≤ t)
  let s := s.setWd (fun w => { w with isol :=
    (w.isol.map (fun x => if x.start ≤ t then { x with began := true } else x)).filter (fun x => !(x.began && x.done ≤ t)) })
  now.foldl isolate s

/-- Reeve resumes at the end of its hold. -/
def reeveResume (s : State) : State :=
  match s.wd.reeveHold with
  | some t =>
    if t ≤ s.prism.tick then (s.setWd (fun w => { w with reeveHold := none })).put rveR RVE_STATUS_STATE 2 else s
  | none => s

/-! ## Ends (R607, R612) -/

def reactionDue (s : State) : Bool := Option.any (fun (r : React) => r.ends ≤ s.prism.tick) s.wd.cur

def reactionEnd (s : State) : State := if s.reactionDue then s.endReaction else s

/-- The suppression of source `n`'s dependants is over. -/
def suppressionEnd (s : State) (n : Nat) : State :=
  s.setWd (fun w => { w with supp := w.supp.filter (fun e =>
    !(e.1 == n && Option.any (fun (b : Nat) => b ≤ s.prism.tick) e.2.2)) })

/-! ## Overruns and load (R58, R66) -/

/-- What the processors did not finish in the tick that ends, with the occurrences it gives (R58). `mil` are channels,
`hrd` received frames lost by port, `tly` measurements (64 the sentinel), `rve` the steps of R42 that Reeve had finished. -/
def overruns (s : State) (mil : List Nat) (hrd : Option (List Nat)) (tly : List Nat) (rve : Option Nat) : State :=
  let t := s.prism.tick
  let mil := if s.millerRuns then mil.filter (fun c => c < s.nMil && (s.chan c).on) else []
  let tly := if s.tallyRuns then (tly.filter (· ≤ 64)).eraseDups else []
  let s := mil.foldl (fun s c => s.setChan c (fun x => { x with ovr := true })) s
  let s := s.setWd (fun w => { w with
    ovrChan := if mil.isEmpty || s.latched 10 then w.ovrChan else mil.map (fun c => (c, t))
    ovrCore := if tly.isEmpty || s.latched 12 then w.ovrCore else ((tly.map (fun m => if m = 64 then 0 else m / 32)).eraseDups) })
  let s := tly.foldl tmDrop s
  let s := if tly.isEmpty then s else s.bump glbR GLB_OVR_TLY_TICKS
  let s := match hrd with
    | some rx => if s.heraldRuns then s.heraldOverrun rx else s
    | none => s
  let rv : Bool := rve.isSome && s.reeveRuns
  let s := if rv then (s.bump glbR GLB_OVR_RVE_TICKS).setHost (fun h => { h with overrun := rve }) else s
  let s := mil.foldl (fun s _ => s.occur 10) s
  let s := if hrd.isSome && s.heraldRuns then s.occur 11 else s
  let s := if tly.isEmpty then s else s.occur 12
  if rv then s.occur 13 else s

/-- Largest cycles of the tick by kind of processor (R66). -/
def peaks (s : State) (mil tly rve hrd : Nat) : State :=
  let s := if s.millerRuns then s.peak glbR GLB_PEAK0_MIL mil else s
  let s := if s.tallyRuns then s.peak glbR GLB_PEAK0_TLY tly else s
  let s := if s.reeveRuns then s.peak glbR GLB_PEAK1_RVE rve else s
  if s.heraldRuns then s.peak glbR GLB_PEAK1_HRD hrd else s

/-- The firmware signal of the tick that ends (R606, `RVE_BEAT`). -/
def beat (s : State) (signal : Bool) : State :=
  if !s.reeveRuns || s.get rveR RVE_STATUS_STATE < 2 then s.setWd (fun w => { w with missed := 0 })
  else if signal && s.wd.reeveHold.isNone then
    (s.put rveR RVE_BEAT_COUNT (s.get rveR RVE_BEAT_COUNT + 1)).setWd (fun w => { w with missed := 0 })
  else s.setWd (fun w => { w with missed := w.missed + 1 })

/-! ## Sensors (R372, R606, R623) -/

/-- Junction temperature, 1/256 °C, with the two degrees of hysteresis of WF16 and WF17. -/
def junction (s : State) (tj : Int) : State :=
  let s := s.putI pwrR PWR_TEMP_TJ tj
  let s := if s.getI pwrR PWR_TEMP_PEAK < tj then s.putI pwrR PWR_TEMP_PEAK tj else s
  let limit := fun (s : State) (n : Nat) (deg : Int) =>
    if deg * 256 < tj then s.heldStart n else if tj < (deg - 2) * 256 then s.heldEnd n else s
  limit (limit s 16 115) 17 125

/-- Sensed bank supplies (R372), with WF32–WF37 while an output of the bank is enabled; `vddo` holds the codes of
`OUT_BANK_STATUS.VDDO`. The condition ends when the supply is there and unchanged, or no output is enabled. -/
def supplies (s : State) (vddo : List Nat) : State :=
  (List.range ((s.nOut + 7) / 8)).foldl (fun s g =>
    let old := s.get (bankR g) OUT_BANK_STATUS_VDDO
    let new := vddo.getD g old % 4
    let s := s.put (bankR g) OUT_BANK_STATUS_VDDO new
    let en := (List.range 8).any (fun k => 8 * g + k < s.nOut && s.on (outR (8 * g + k)) OUT_CFG_EN)
    if en && (new = 0 || (old != new && old != 0)) then s.heldStart (32 + g) else s.heldEnd (32 + g)) s

end State

end Sys2Proof.Machine
end

