-- ==== Sys2Proof/Machine/Upstream.lean ====
section
/-! DEFINITION. The upstream link: its arbiter, and what leaves in the arbiter's order (R137–R141, R422); the register image
that firmware applies (R595). -/

namespace Sys2Proof.Machine

/-- The turns of the contenders until one sends: `heads` gives the bytes each would send, `q` its quantum. A contender
keeps its turn while its deficit covers what it sends; one without backlog keeps no deficit. -/
def Drr.turns (q : Nat → Nat) (heads : List (Option Nat)) : Nat → Drr → Option (Nat × Drr)
  | 0, _ => none
  | fuel + 1, d =>
    let c := d.cur % heads.length
    let next := (c + 1) % heads.length
    let turn := fun (l : List (Nat × Nat)) => (Drr.mk next
      (if (heads.getD next none).isSome then assocPut 0 l next (assocD 0 l next + q next) else l) : Drr)
    match heads.getD c none with
    | some len =>
      if len ≤ assocD 0 d.deficit c then some (c, ⟨c, assocPut 0 d.deficit c (assocD 0 d.deficit c - len)⟩)
      else Drr.turns q heads fuel (turn d.deficit)
    | none => Drr.turns q heads fuel (turn (assocPut 0 d.deficit c 0))

/-- Turns that are enough for any transaction: at the least quantum, 256 bytes, a contender of 16 reaches 9,216 bytes in
36 rounds. -/
def drrFuel : Nat := 1024

/-- The next choice among `n` contenders; none where none of them has anything to send. -/
def Drr.pick (n : Nat) (q : Nat → Nat) (head : Nat → Option Nat) (d : Drr) : Option (Nat × Drr) :=
  let heads := (List.range n).map head
  if heads.all Option.isNone then none else Drr.turns q heads drrFuel d

/-- The bytes the next transaction of a ring is charged. -/
def ringHead (l : List Backlog) (f k r : Nat) : Option Nat :=
  (l.find? (fun b => b.func == f && b.cls == k && b.ring == r)).map (·.len)

/-- The rings of a class (R137): 4 completion rings and the event ring; 4 command and 4 packet TX rings; 8 statistics rings; 16
capture rings; 4 packet RX rings; one stream. -/
def classRings (k : Nat) : Nat := match k with | 0 => 5 | 1 => 8 | 2 => 8 | 3 => 16 | 4 => 4 | _ => 1

/-- The ring a class of a function sends from next, with the bytes. -/
def ArbSt.nextRing (a : ArbSt) (l : List Backlog) (f k : Nat) : Option (Nat × Nat × Drr) :=
  match Drr.pick (classRings k) (fun _ => 512) (ringHead l f k) (assocD {} a.ring (8 * f + k)) with
  | none => none
  | some (r, d) => (ringHead l f k r).map (fun n => (r, n, d))

/-- The class a function sends from next. -/
def ArbSt.nextClass (a : ArbSt) (l : List Backlog) (f : Nat) : Option (Nat × Nat × Drr) :=
  match Drr.pick 6 (fun _ => 512) (fun k => (a.nextRing l f k).map (·.2.1)) (assocD {} a.cls f) with
  | none => none
  | some (k, d) => (a.nextRing l f k).map (fun x => (k, x.2.1, d))

/-- Quantum of a function (R138). -/
def ArbSt.quantum (a : ArbSt) (f : Nat) : Nat :=
  if a.ctl % 2 = 0 then 4096 else bitsOf (a.w.getD (f / 4) 0) (8 * (f % 4)) 8 * 256

/-- Bytes of the last `room` sent that went through the lane, newest first. -/
def laneBytes : Nat → List (Nat × Bool) → Nat
  | _, [] => 0
  | room, (n, lane) :: r => (if lane then min room n else 0) + (if room ≤ n then 0 else laneBytes (room - n) r)

/-- The transactions that make up the last 4,096 bytes. -/
def lastSent : Nat → List (Nat × Bool) → List (Nat × Bool)
  | _, [] => []
  | room, (n, lane) :: r => if room = 0 then [] else (n, lane) :: lastSent (room - n) r

/-- One choice of the arbiter among what waits; none where nothing does. The lane's share is over the last 4,096 bytes sent;
while fewer have been sent since reset, of which the spec says nothing, those missing count as sent outside the lane (log
entry 60). -/
def ArbSt.choose (a : ArbSt) (l : List Backlog) : ArbSt :=
  let laneHead := fun (r : Nat) => (l.find? (fun b => b.cls == 3 && b.ring == r)).map (·.len)
  let send := fun (a : ArbSt) (lane : Bool) (f k r n : Nat) =>
    { a with sent := lastSent 4096 ((n, lane) :: a.sent), last := some (lane, f, k, r) }
  let viaLane : Option (Nat × Drr) :=
    if laneBytes 4096 a.sent * 100 < bitsOf a.ctl 8 7 * 4096 then Drr.pick 16 (fun _ => 512) laneHead a.lane else none
  match viaLane with
  | some (r, d) => send { a with lane := d } true 0 3 r ((laneHead r).getD 0)
  | none =>
    match Drr.pick 16 a.quantum (fun f => (a.nextClass l f).map (·.2.1)) a.fn with
    | none => { a with last := none }
    | some (f, df) =>
      match a.nextClass l f with
      | none => { a with last := none }
      | some (k, n, dk) =>
        match a.nextRing l f k with
        | none => { a with last := none }
        | some (r, _, dr) =>
          send { a with fn := df, cls := assocPut {} a.cls f dk, ring := assocPut {} a.ring (8 * f + k) dr } false f k r n

namespace State

/-- What waits to go upstream (R137): what the part's writes and payload reads were charged, the capture records of the burst
buffer, each of its ring's owner, and the read requests `reads`. -/
def backlog (s : State) (reads : List Backlog) : List Backlog :=
  s.host.up ++ (if s.drains then (s.lens.buf.filter (fun e => e.1 < 16)).map (fun e => ⟨(s.ringUse (dringR e.1)).owner, 3, e.1, 16⟩) else []) ++ reads

/-- A transaction of a class and ring that is charged already. A choice of the lane names no function. -/
def charged (lane : Bool) (f k r : Nat) (b : Backlog) : Bool := b.cls == k && b.ring == r && (lane || b.func == f)

/-- The transaction chosen leaves: one that was charged is on its way, a capture record leaves the burst buffer. -/
def sent (s : State) (lane : Bool) (f k r : Nat) : State :=
  if s.host.up.any (charged lane f k r) then s.setHost (fun h => { h with up := h.up.eraseP (charged lane f k r) })
  else if k = 3 then s.drainRing r else s

/-- One transaction leaves upstream (R138), among what waits and the read requests `reads`. -/
def arbitrate (s : State) (reads : List Backlog) : State :=
  let a := s.host.arb.choose (s.backlog reads)
  let s := s.setHost (fun h => { h with arb := a })
  match a.last with
  | some (lane, f, k, r) => s.sent lane f k r
  | none => s

/-- The link carries what waits, in the arbiter's order, up to `link` bytes. -/
def carry (s : State) : Nat → Nat → State
  | 0, _ => s
  | n + 1, link =>
    if link = 0 || (s.backlog []).isEmpty then s else
    let t := s.arbitrate []
    carry t n (link - (match t.host.arb.sent with | (b, _) :: _ => b | [] => 0))

/-- Transactions that wait. -/
def waiting (s : State) : Nat := s.host.up.length + s.lens.buf.length

/-- The upstream of a tick (R139, R422). -/
def carryTick (s : State) (link : Nat) : State := s.carry s.waiting link

/-- Transactions leave in the arbiter's order until `n` capture records have left the burst buffer. -/
def drainSteps (s : State) : Nat → Nat → State
  | 0, _ => s
  | fuel + 1, n =>
    if n = 0 || !s.drains then s else
    let t := s.arbitrate []
    drainSteps t fuel (n - (s.lens.buf.length - t.lens.buf.length))

/-- The burst buffer writes `n` records to host memory (R422). -/
def drain (s : State) (n : Nat) : State := s.drainSteps s.waiting n

/-- Transactions leave in the arbiter's order until it comes to one of the read requests `reads`: the state then, where that
is the one wanted. -/
def readTurn (s : State) (reads : List Backlog) (f k r : Nat) : Nat → Option State
  | 0 => none
  | n + 1 =>
    let a := s.host.arb.choose (s.backlog reads)
    match a.last with
    | none => none
    | some (lane, f', k', r') =>
      if k' = 3 || s.host.up.any (charged lane f' k' r') then (s.arbitrate reads).readTurn reads f k r n
      else if f' = f && k' = k && r' = r then some (s.setHost (fun h => { h with arb := a })) else none

/-- `GLB_ARB_*` take effect at a boundary (R141). -/
def arbBoundary (s : State) : State :=
  s.setHost (fun h => { h with arb := { h.arb with
    ctl := (s.reg (glbR + GLB_ARB_CTL_WDRR.idx)).toNat
    w := (List.range 4).map (fun j => (s.reg (glbR + GLB_ARB_W_W.idx + j)).toNat) } })

/-! ## The register image (R595) -/

/-- Byte offset of the image in the SRAM, CFG pages 64–127. -/
def imageBase : Nat := 64 * 512

/-- Firmware applies the image on the entry to M6: record by record as Reeve writes. At start-up the Hearth's pages are
loaded then (R321). -/
def registerImage (s : State) : State :=
  if !(s.mode = 6 || s.on pwrR PWR_STATUS_CHG) || s.pwr.imageDone || s.pwr.imageFrom.isNone || s.wd.reeveHold.isSome then s else
  let n := leNat (s.sramRead imageBase 4)
  let crc := leNat (s.sramRead (imageBase + 4) 4)
  let recs := if n ≤ 4095 then s.sramRead (imageBase + 8) (8 * n) else []
  let s :=
    if 4095 < n || (0 < n && crc32 recs != crc) then s.raise 113 64 4
    else (List.range n).foldl (fun s i =>
      s.writeHalf ⟨0, true, false⟩ (leAt recs (8 * i) 4 % 2 ^ 22) 15 (leAt recs (8 * i + 4) 4) 0) s
  let s := if 6 ≤ s.mode && s.pwr.starting then s.hearthLoad (!s.on grnR GRN_STATUS_RET) else s
  if s.mode < 6 then s else s.imageApplied

end State

end Sys2Proof.Machine
end

