-- ==== Sys2Proof/Machine/Command.lean ====
section
/-! DEFINITION. Commands: the opcode list, the checks of R120, staging, application at a boundary and the fetch of a
descriptor (R47–R57, R110–R128). -/

namespace Sys2Proof.Machine

/-- One row of R124: opcode, PF0-only, indirect only, the payload length an indirect payload must have (none: up to 9,216
bytes). -/
structure OpRow where
  opc : Nat
  pf0 : Bool
  ind : Bool
  len : Option Nat
deriving DecidableEq, Repr

/-- The opcodes of R124, with the lengths of R203, R234, R487 and R513. -/
def opRows : List OpRow :=
  [⟨0x00, false, false, some 16⟩, ⟨0x01, false, false, some 16⟩, ⟨0x02, true, false, some 16⟩,
   ⟨0x03, true, false, some 16⟩, ⟨0x08, false, false, some 16⟩, ⟨0x09, false, true, some 20⟩,
   ⟨0x0A, false, false, some 16⟩, ⟨0x0B, false, true, some 52⟩, ⟨0x0C, true, false, some 16⟩,
   ⟨0x10, false, false, some 16⟩, ⟨0x11, false, false, some 16⟩, ⟨0x12, false, false, some 16⟩,
   ⟨0x14, true, false, some 16⟩, ⟨0x18, false, false, some 16⟩, ⟨0x19, false, false, some 16⟩,
   ⟨0x20, false, false, some 16⟩, ⟨0x21, false, false, some 16⟩, ⟨0x22, false, false, some 16⟩,
   ⟨0x28, false, false, some 16⟩, ⟨0x29, false, false, some 16⟩, ⟨0x30, false, false, some 16⟩,
   ⟨0x31, false, false, some 16⟩, ⟨0x38, false, true, some 24⟩, ⟨0x39, false, true, some 64⟩,
   ⟨0x3A, false, false, some 16⟩, ⟨0x3B, true, false, some 16⟩, ⟨0x3C, false, false, some 16⟩,
   ⟨0x40, true, false, some 16⟩, ⟨0x48, true, false, some 16⟩, ⟨0x50, true, false, some 16⟩,
   ⟨0x51, true, false, some 16⟩, ⟨0x58, true, false, some 16⟩, ⟨0x60, true, true, none⟩, ⟨0x61, true, true, none⟩]

/-- The row of an opcode that the ring class allows (R124): 0x60 on packet TX, 0x61 on packet RX, the others on command
rings. -/
def opRow (cls opc : Nat) : Option OpRow :=
  if cls = (if opc = 0x60 then 1 else if opc = 0x61 then 2 else 0) then opRows.find? (fun r => r.opc == opc) else none

/-- Bytes `lo` to `hi − 1` of a payload are zero. -/
def zeros (pl : List Byte) (lo hi : Nat) : Bool := leAt pl lo (hi - lo) = 0

namespace State

/-! ## Values a payload may hold -/

/-- The field at bit `lo` of a register takes a value: its width, its range and what the state allows (R23, R153). -/
def takes (s : State) (k lo v : Nat) : Bool :=
  match RegMap.lookup k with
  | none => true
  | some (b, fs) => fs.all (fun f => f.lo != lo ||
      (v < 2 ^ f.width && (f.ok.isEmpty || f.ok.any (fun r => r.1 ≤ v && v ≤ r.2)) &&
        s.valueOk k b lo (bitsOf (s.reg k).toNat f.lo f.width) v))

/-- Every software-written field of a register takes its part of a word. -/
def fieldsTake (s : State) (k v : Nat) : Bool :=
  match RegMap.lookup k with
  | none => true
  | some (_, fs) => fs.all (fun f => match f.acc with
      | .rw | .rwd | .pfo => s.takes k f.lo (bitsOf v f.lo f.width)
      | _ => true)

/-- A register takes a whole word: each field, and what they say together. -/
def wordTakes (s : State) (k v : Nat) : Bool :=
  s.fieldsTake k v && (match RegMap.lookup k with
    | none => true
    | some (b, _) => (s.together k b (s.reg k).toNat v v).isEmpty)

/-! ## The checks of R120 -/

/-- The opcode belongs to an absent unit, or TARGET names an absent instance (check 4; log entry 22 for targets past the
last instance of the family). -/
def opAbsent (s : State) (opc target : Nat) : Bool :=
  match opc with
  | 0x08 | 0x09 | 0x10 | 0x11 | 0x12 => s.nMil ≤ target
  | 0x0A => target < 64 && (target < 49 || 56 ≤ target) && !s.indexPresent target
  | 0x18 | 0x19 => s.nLom ≤ target
  | 0x20 => s.nOut ≤ target
  | 0x29 => 16 ≤ target
  | 0x30 => 64 ≤ target
  | 0x38 => s.nPi = 0
  | 0x39 | 0x3A | 0x61 => s.nHrd = 0
  | 0x3B | 0x3C => s.nPi ≤ target
  | 0x40 => s.nPlk ≤ target
  | 0x48 => !s.hasMir
  | 0x60 => s.nHrd ≤ target
  | _ => false

/-- The range of the fields of OUT_CTL (R393). -/
def outCtlOk (s : State) (o : Nat) (pl : List Byte) : Bool :=
  let m := leAt pl 12 1
  let sel := fun (b : Nat) => m / 2 ^ b % 2 = 1
  let fl := leAt pl 10 1
  let r := outR o
  leAt pl 6 2 < 2 ^ 10 && leAt pl 8 1 < 16 && leAt pl 9 1 < 8 && fl < 128 && zeros pl 11 12 && zeros pl 13 16 &&
  (!sel 0 || (leAt pl 0 4 != 0 && !(fl / 2 % 2 = 1 && leAt pl 0 4 < 16))) &&
  (!sel 1 || s.takes (r + OUT_DLY_CDLY.idx) OUT_DLY_CDLY.lo (leAt pl 4 2)) &&
  (!sel 2 || s.takes (r + OUT_DLY_FDLY.idx) OUT_DLY_FDLY.lo (leAt pl 6 2)) &&
  (!sel 3 || s.takes (r + OUT_CFG_SRC.idx) OUT_CFG_SRC.lo (leAt pl 8 1)) &&
  (!sel 4 || s.takes (r + OUT_CFG_FMT.idx) OUT_CFG_FMT.lo (leAt pl 9 1))

/-- The range of the fields of LOOM_TUNE (R356). -/
def loomTuneOk (s : State) (n : Nat) (pl : List Byte) : Bool :=
  let m := leAt pl 11 1
  let sel := fun (b : Nat) => m / 2 ^ b % 2 = 1
  m < 32 && leAt pl 10 1 < 2 && zeros pl 12 16 &&
  (!sel 0 || fcOk (leAt pl 0 6)) &&
  (!sel 1 || s.takes (lomR n + LOM_N_N.idx) LOM_N_N.lo (leAt pl 6 1)) &&
  (!sel 2 || (leAt pl 7 1 < 16 && s.takes (lomR n) LOM_CFG_CHAN.lo (leAt pl 7 1))) &&
  (!sel 3 || s.takes (lomR n) LOM_CFG_PDIV.lo (leAt pl 8 1)) &&
  (!sel 4 || s.takes (lomR n) LOM_CFG_GLIDE.lo (leAt pl 9 1))

/-- The range of the fields of CHAN_LOOP (R273). -/
def chanLoopOk (s : State) (c : Nat) (pl : List Byte) : Bool :=
  let m := leAt pl 15 1
  let sel := fun (b : Nat) => m / 2 ^ b % 2 = 1
  let b := milR c
  m < 32 &&
  (!sel 0 || s.takes (b + MIL_BW_BW.idx) MIL_BW_BW.lo (leAt pl 0 4 % 2 ^ 30)) &&
  (!sel 1 || s.takes (b + MIL_ABW_ABW.idx) MIL_ABW_ABW.lo (leAt pl 4 4 % 2 ^ 30)) &&
  (!sel 2 || s.takes (b + MIL_LIM0_PSLOPE.idx) MIL_LIM0_PSLOPE.lo (leAt pl 8 3 % 2 ^ 20)) &&
  (!sel 3 || s.takes (b + MIL_DAMP_DAMP.idx) MIL_DAMP_DAMP.lo (leAt pl 11 1)) &&
  (!sel 4 || s.takes (b + MIL_LIM1_FMAX.idx) MIL_LIM1_FMAX.lo (leAt pl 12 3 % 2 ^ 17))

/-- The range of the fields of TM_CTL (R454). -/
def tmCtlOk (s : State) (m : Nat) (pl : List Byte) : Bool :=
  let b := tlyR m
  let cfg := leAt pl 0 4
  match leAt pl 15 1 with
  | 0 =>
    s.wordTakes b cfg &&
    (if fOf cfg TLY_CFG_KIND = 1 then s.takes (b + TLY_GATE_GATE.idx) TLY_GATE_GATE.lo (leAt pl 4 4)
      else s.takes (b + TLY_N_N.idx) TLY_N_N.lo (leAt pl 4 4)) &&
    s.takes (b + TLY_PER_PER.idx) TLY_PER_PER.lo (leAt pl 8 4) &&
    s.takes (b + TLY_WCFG_TAU0.idx) TLY_WCFG_TAU0.lo (leAt pl 12 2) &&
    leAt pl 14 1 < 16 && s.takes (b + TLY_WCFG_MMAX.idx) TLY_WCFG_MMAX.lo (leAt pl 14 1)
  | 1 => zeros pl 0 15
  | _ => false

/-- The range of the fields of SENTINEL_CTL (R455). -/
def senCtlOk (s : State) (pl : List Byte) : Bool :=
  s.wordTakes (senR + TLY_SEN_CFG_EN.idx) (leAt pl 0 4) &&
  s.takes (senR + TLY_SEN_GATE_GATE.idx) TLY_SEN_GATE_GATE.lo (leAt pl 4 2) &&
  s.takes (senR + TLY_SEN_LIM1_EHYS.idx) TLY_SEN_LIM1_EHYS.lo (leAt pl 6 2 % 2 ^ 10) &&
  s.wordTakes (senR + TLY_SEN_DLY_DLY.idx) (leAt pl 8 4) &&
  s.wordTakes (senR + TLY_SEN_LIM0_UDEV.idx) (leAt pl 12 4)

/-- The range of the fields of PTP_INST (R464, R487). -/
def ptpInstOk (s : State) (k : Nat) (pl : List Byte) : Bool :=
  let w := fun (i : Nat) => leAt pl (4 * i) 4
  (List.range 6).all (fun i => s.fieldsTake (piR k + i) (w i)) && profileWordsOk (w 0) (w 3) &&
  (w 0 % 2 = 0 || w 4 != 0 || w 5 != 0)

/-- The payload fields of an opcode are in range, those that must be zero are, and TARGET is a value the opcode's chapter
allows (check 9). -/
def payloadOk (s : State) (opc target : Nat) (pl : List Byte) : Bool :=
  match opc with
  | 0x01 =>
    let o := leAt pl 0 4
    o % 4 = 0 && bitsOf o 12 2 = 0 && o ≤ 0x123FFF && zeros pl 12 16
  | 0x02 => zeros pl 6 8 && leAt pl 8 4 < 1000000000 && zeros pl 12 16
  | 0x03 => target = 0 && 6 ≤ leAt pl 0 1 && leAt pl 0 1 ≤ 12 && zeros pl 1 16
  | 0x08 => leAt pl 1 1 ≤ 1 && (leAt pl 1 1 = 0 || leAt pl 0 1 < 64) && zeros pl 2 16
  | 0x09 => s.wordTakes (prcR target + PRS_SEL_CFG_MODE.idx) (leAt pl 16 4)
  | 0x0A => target < 64 && (target < 49 || 56 ≤ target) && leAt pl 0 1 ≤ 2 && zeros pl 1 16
  | 0x0B => target < 8 && (List.range 5).all (fun i => s.wordTakes (ensR target + i) (leAt pl (4 * i) 4)) &&
      (List.range 8).all (fun m => s.wordTakes (emsR target m) (leAt pl (20 + 4 * m) 4))
  | 0x0C => target < 8 && zeros pl 1 16
  | 0x10 => leAt pl 0 1 ≤ 3 && zeros pl 1 16
  | 0x11 => leAt pl 8 1 ≤ 2 && (leAt pl 8 1 != 2 || zeros pl 0 8) && zeros pl 9 16
  | 0x12 => s.chanLoopOk target pl
  | 0x14 => target = 0 && leAt pl 0 1 ≤ 4 && zeros pl 1 16
  | 0x18 => s.loomTuneOk target pl
  | 0x19 => zeros pl 0 16
  | 0x20 => s.outCtlOk target pl
  | 0x21 => target = 0 && leAt pl 1 1 ≤ 3 && zeros pl 2 16
  | 0x22 =>
    let m := leAt pl 12 1
    target = 0 && m < 8 && zeros pl 13 16 &&
    (m % 2 = 0 || s.wordTakes (tcdR + TCD_TC_CFG_EN.idx) (leAt pl 0 4)) &&
    (m / 2 % 2 = 0 || s.wordTakes (tcdR + TCD_PPS_CFG_EN.idx) (leAt pl 4 4)) &&
    (m / 4 % 2 = 0 || s.wordTakes (tcdR + TCD_PPS_OFF_OFF.idx) (leAt pl 8 4))
  | 0x28 => target < 2 && leAt pl 0 1 ≤ 2 && zeros pl 1 16
  | 0x29 => leAt pl 0 1 = 0 && zeros pl 3 16
  | 0x30 => s.tmCtlOk target pl
  | 0x31 => target = 0 && s.senCtlOk pl
  | 0x38 => target < 8 && s.ptpInstOk target pl
  | 0x39 => target = 0 && leAt pl 0 1 % 2 = 0 && zeros pl 40 64
  | 0x3A => target = 0 && leAt pl 0 4 < 2 ^ 18 && zeros pl 4 16
  | 0x3B => leAt pl 0 1 ≤ 1 && zeros pl 1 16
  | 0x3C => leAt pl 4 1 < 4 && leAt pl 5 1 ≤ 1 && (leAt pl 5 1 = 0 || zeros pl 0 4) && zeros pl 6 16
  | 0x40 => leAt pl 0 1 ≤ 2 && (leAt pl 0 1 != 2 || leAt pl 1 1 ≤ 4) && zeros pl 6 16
  | 0x48 => target = 0 && leAt pl 0 1 ≤ 3 && zeros pl 1 16
  | 0x50 => target = 0 && leAt pl 0 2 + leAt pl 2 2 ≤ 1024 && leAt pl 4 1 ≤ 1 && zeros pl 5 16
  | 0x51 => target = 0 && 64 ≤ leAt pl 0 2 && leAt pl 0 2 + leAt pl 2 2 ≤ 1024 && leAt pl 4 1 ≤ 1 && zeros pl 5 16
  | 0x58 => target = 0 && leAt pl 12 1 ≤ 1 && zeros pl 13 16
  | _ => true

/-- Checks 2 to 6 of R120, which the descriptor alone decides: the first that it fails. -/
def checkHead (s : State) (d : Desc) : Option Status :=
  if d.len = 0 then some .zeroLen else
  match opRow d.cls d.opc with
  | none => some .inval
  | some r =>
    if s.opAbsent d.opc d.target then some .unsupported
    else if r.pf0 && d.func != 0 then some .denied
    else if !d.ind && (r.ind || d.len != 16) then some .inval
    else if d.ind && (match r.len with | some n => d.len != n | none => 9216 < d.len) then some .inval
    else none

/-- Its indirect payload is read (R120): the checks before it pass, and a packet RX buffer is not read. -/
def readsPayload (s : State) (d : Desc) : Bool := d.ind && d.opc != 0x61 && (s.checkHead d).isNone

/-- The first check of R120 that a descriptor fails; none for one that is staged. -/
def checkDesc (s : State) (d : Desc) : Option Status :=
  match s.checkHead d with
  | some st => some st
  | none =>
    if d.opc = 0x61 then none
    else match d.payload with
    | none => some .fault
    | some pl =>
      if (d.opc = 0x50 || d.opc = 0x51) && leAt pl 2 2 = 0 then some .zeroLen
      else if d.opc = 0x3C && leAt pl 4 1 < 4 && s.nHrd ≤ leAt pl 4 1 then some .unsupported
      else if d.opc = 0x60 && (d.len < 60 || 9212 < d.len) then some .inval
      else if s.payloadOk d.opc d.target pl then none
      else some .inval

/-! ## The effect of each opcode at its boundary -/

/-- REF_FORCE (R202). A force holds in the tick that its own boundary starts (R45); a release leaves the reference in use until
the next selection. -/
def refForce (s : State) (c : Nat) (pl : List Byte) : State :=
  let b := prcR c
  if leAt pl 1 1 = 1 then ((s.putB b PRS_SEL_CFG_FORCE_EN true).put b PRS_SEL_CFG_FORCE_IDX (leAt pl 0 1)).reselect c
  else s.putB b PRS_SEL_CFG_FORCE_EN false

/-- PRIO_TABLE (R203). -/
def prioTable (s : State) (c : Nat) (pl : List Byte) : State :=
  (List.range 5).foldl (fun s i => s.putWord (prcR c + i) (leAt pl (4 * i) 4)) s

/-- WCH_CLEAR (R613). -/
def wchClear (s : State) (pl : List Byte) : State :=
  let srcs := leAt pl 0 12
  let s := (List.range 96).foldl (fun s n =>
    if bitsOf srcs n 1 = 0 then s else
    let s := (s.putB wchR (mapBit WCH_LAT_LAT n) false).putB wchR (mapBit WCH_CONS_CONS n) false
    (s.setWd (fun w => { w with cnt := memDel w.cnt n, ccnt := memDel w.ccnt n })).latchCleared n) s
  if leAt pl 12 1 = 1 then s.firstCleared else s

/-- OK or INVAL. -/
def verdict (r : State × Bool) : State × Status := (r.1, if r.2 then .ok else .inval)

/-- The LTC step, in seconds and nanoseconds, that a command asks for: LTC_STEP (R127), or ACCEPT_STEP of a correction that
moves the LTC forward (R506). -/
def stepOf (s : State) (d : Desc) : Option (Nat × Nat) :=
  let pl := d.payload.getD []
  match d.opc with
  | 0x02 => some (leAt pl 0 6, leAt pl 8 4)
  | 0x3B => match s.acceptKind d.target (leAt pl 0 1) with
    | .step sec ns => some (sec, ns)
    | _ => none
  | _ => none

/-- A command other than a step takes effect (R44, R120). -/
def applyCmd (s : State) (d : Desc) : State × Status :=
  let pl := d.payload.getD []
  let n := d.target
  let act := leAt pl 0 1
  match d.opc with
  | 0x00 => (s, .ok)
  | 0x01 =>
    let (s, refused) := s.present ⟨d.func, false, true⟩ (leAt pl 0 4) (leAt pl 8 4) (leAt pl 4 4) 0 true
    (s, if refused then .denied else .ok)
  | 0x03 =>
    let (s, e) := s.modeSet act
    (s, match e with | .ok => .ok | .inval => .inval | .denied => .denied)
  | 0x08 => (s.refForce n pl, .ok)
  | 0x09 => (s.prioTable n pl, .ok)
  | 0x0A => (s.refOverride n act, .ok)
  | 0x0B => ((s.ensembleSet n pl s.tn).asymResults, .ok)
  | 0x0C => (s.tamperClear n act s.tn, .ok)
  | 0x10 => verdict (s.chanState n act)
  | 0x11 => verdict (s.chanPhase n (leAt pl 8 1) (signed (leAt pl 0 8) 64))
  | 0x12 => (s.chanLoop n pl, .ok)
  | 0x14 =>
    match act with
    | 0 => (s.hearthClear, .ok)
    | 1 => (s.hearthStop, .ok)
    | 2 => (s.hearthResume, .ok)
    | 3 => (s.refit, .ok)
    | _ => verdict s.hearthStore
  | 0x18 => verdict (if leAt pl 11 1 = 0 && leAt pl 10 1 = 0 then (s, true) else s.loomTune n pl)
  | 0x19 => verdict (s.loomRelock n)
  | 0x20 => verdict (if leAt pl 12 1 = 0 then (s, true) else s.outCtl n pl)
  | 0x21 => (s.syncGroup act (leAt pl 1 1), .ok)
  | 0x22 => (s.tcdCtl pl, .ok)
  | 0x28 =>
    match act with
    | 0 => (s.burstDisarm n, .ok)
    | 1 => (s.armUnit n, .ok)
    | _ => verdict (s.burstSoft n)
  | 0x29 =>
    if s.ringOwner (dringR n) != d.func then (s, .denied) else verdict (s.capMark n (leAt pl 1 2))
  | 0x30 => (s.tmCtl n pl, .ok)
  | 0x31 => (s.senCtl pl, .ok)
  | 0x38 => verdict (s.ptpInst n pl)
  | 0x39 => verdict (s.sessAdd pl)
  | 0x3A => verdict (s.sessDel (leAt pl 0 4))
  | 0x3B =>
    match s.acceptKind n act with
    | .ok => verdict (s.acceptApply n act)
    | _ => (s, .inval)
  | 0x3C => (s.asymSet n (leAt pl 4 1) (leAt pl 5 1) (signed (leAt pl 0 4) 32), .ok)
  | 0x40 => verdict (s.plkCtl n pl)
  | 0x48 =>
    let (s, ok) := s.keyCtl act
    (s, if ok then .ok else .denied)
  | 0x50 => verdict (s.storeRequest (leAt pl 0 2) (leAt pl 2 2) (leAt pl 4 1 = 1) false)
  | 0x51 => verdict (s.pfMark (leAt pl 0 2) (leAt pl 2 2) (leAt pl 4 1 = 1))
  | 0x58 => (s.wchClear pl, .ok)
  | _ => (s, .inval)

/-- The status of a command that took effect: LATE past its apply tick, which an apply tick of 0 never is (R48, R49). -/
def lateOr (d : Desc) (tn : Nat) (st : Status) : Status := if st = .ok && d.apply != 0 && d.apply < tn then .late else st

/-! ## The set of a boundary (R44, R54, R56, R75) -/

/-- A set under way: the state, whether its boundary has applied an LTC step, and the commands that have run, with their
status and, for a step, the tick it was applied at. -/
structure SetRun where
  s : State
  used : Bool
  ends : List (Desc × Status × Option Nat) := []

/-- What follows a step a command took; ACCEPT_STEP ends its refusal with it (R506). -/
def stepEnd (s : State) (d : Desc) (e : StepEnd) : State :=
  if e != .refused && d.opc = 0x3B then
    ((s.setPi d.target (fun x => { x with a := 0 })).acceptEnd d.target).showA d.target
  else s

/-- One command of a set runs. A step where the boundary has applied one remains due (R75). -/
def SetRun.one (e : SetRun) (x : Staged) : SetRun :=
  match e.s.stepOf x.d with
  | none =>
    let (s, st) := e.s.applyCmd x.d
    { e with s := s, ends := e.ends ++ [(x.d, st, none)] }
  | some (sec, ns) =>
    if e.used then { e with s := e.s.setLtc (fun l => { l with due := l.due ++ [x] }) } else
    let (s, r) := e.s.stepTake sec ns
    { s := s.stepEnd x.d r, used := r == .applied
      ends := e.ends ++ [(x.d, if r == .refused then .inval else .ok, if r == .applied then some e.s.tn else none)] }

/-- Commands of a set, one after another, while the part is not reset by one of them. -/
def SetRun.all (e : SetRun) : List Staged → SetRun
  | [] => e
  | x :: r => if e.s.mode < 6 then e else (e.one x).all r

/-- The completions of a set, in the order in which its commands ran. APPLIED_TN is the tick that the boundary starts; a step
that was applied names the tick that its boundary would have started, and is in time there (log entry 61). Where a command
reset the part, nothing is left to complete (R637). -/
def SetRun.done (e : SetRun) : State :=
  if e.s.mode < 6 then e.s else
  let tn := e.s.tn
  e.ends.foldl (fun s x => s.finish x.1 (lateOr x.1 (x.2.2.getD tn) x.2.1) (x.2.2.getD tn)) e.s

/-! ## Staging and the set of a boundary (R47–R56, R65) -/

/-- `RVE_STAGE` follows the stage (R670). -/
def syncStage (s : State) : State :=
  let n := s.host.staged.length
  (s.put rveR RVE_STAGE_COUNT n).peak rveR RVE_STAGE_PEAK n

/-- A checked descriptor waits for its apply tick; it is feasible from `ready` on. -/
def stage (s : State) (d : Desc) (ready : Nat) : State :=
  (s.setHost (fun h => { h with staged := h.staged ++ [⟨d, ready, h.seq⟩], seq := h.seq + 1 })).syncStage

/-- The order of application (R54): apply tick (the first feasible one for 0), function, ring, ring order. A late command that
is feasible from the boundary of a deferred set (R65) goes by its apply tick too, so it may stand before commands of that
set (log entry 66). -/
def stagedKey (x : Staged) : List Nat := [if x.d.apply = 0 then x.ready else x.d.apply, x.d.func, x.d.ring, x.seq]

def insertStaged (x : Staged) : List Staged → List Staged
  | [] => [x]
  | y :: r => if lexLt (stagedKey x) (stagedKey y) then x :: y :: r else y :: insertStaged x r

def sortStaged (l : List Staged) : List Staged := l.foldr insertStaged []

/-- The commands due at the tick that the boundary now starts run: those staged, and steps that remained due. -/
def SetRun.due (e : SetRun) : SetRun :=
  let tn := e.s.tn
  let due := fun (x : Staged) => Decidable.decide (max x.d.apply x.ready ≤ tn)
  let set := sortStaged (e.s.ltc.due ++ e.s.host.staged.filter due)
  let s := e.s.setLtc (fun l => { l with due := [] })
  let s := (s.setHost (fun h => { h with staged := h.staged.filter (fun x => !due x) })).syncStage
  { e with s := s }.all set

/-- Host commands due at the new tick are applied as one set (R44, R54), after the register step (R76): one that REG_WRITE asks
for in the set waits for the next boundary. A step in the set makes the commands of the ticks it skips due at the tick it lands
in (R34, R56). An overrun of Reeve defers the whole set by one tick (R65); none is applied while Reeve is held or at the entry
boundary of M13 (R112, R608). -/
def applySet (s : State) : State :=
  let (t, used) := s.registerStep
  if s.mode < 6 || 12 < s.mode || s.wd.reeveHold.isSome || s.safeDue || s.host.overrun.isSome then
    t.setHost (fun h => { h with overrun := none })
  else
    let e := (SetRun.mk t used []).due
    (if e.s.tn = t.tn || e.s.mode < 6 then e else e.due).done

/-! ## Fetch (R47, R51–R53, R110, R112, R117) -/

/-- Reeve processes rings (R112, R608, R624): M6 to M12, not held, not after a power-fail warning has taken effect, not
when SAFE entry is due. -/
def ringsRun (s : State) : Bool :=
  6 ≤ s.mode && s.mode ≤ 12 && s.wd.reeveHold.isNone && (!s.on pwrR PWR_STATUS_PF || s.pwr.warned) && !s.safeDue

/-- The ring block of a class (R105): command, packet TX, packet RX. -/
def classRing (f cls ring : Nat) : Nat := fringR f (ring + (match cls with | 0 => 0 | 1 => 9 | _ => 13))

/-- Fields of a descriptor (R119) with the payload that an indirect read gave. -/
def descOf (f cls ring idx : Nat) (bytes : List Byte) (ind : Option (List Byte)) : Desc :=
  let w := leNat (bytes.take 16)
  let isInd : Bool := bitsOf w 8 1 = 1
  { func := f, cls := cls, ring := ring, idx := idx, opc := bitsOf w 0 8, ind := isInd, fence := bitsOf w 9 1 = 1
    tag := bitsOf w 16 16, target := bitsOf w 32 16, len := bitsOf w 48 16, apply := bitsOf w 64 64
    addr := leAt bytes 16 8, payload := if isInd then ind else some ((bytes.drop 16).take 16) }

/-- The class and ring that the reads of a host-filled ring are charged to (R137): those of the packet RX rings, which FETCH does
not list, to PKT (log entry 60). -/
def readClass (cls ring : Nat) : Nat × Nat := match cls with | 0 => (1, ring) | 1 => (1, 4 + ring) | _ => (4, ring)

/-- A slot of the completion ring is reserved for a descriptor, FENCE holds its ring, and the read of an indirect payload is
charged (R110, R117, R137). -/
def reserve (s : State) (d : Desc) : State :=
  let s := if s.readsPayload d then
    s.charge d.func (readClass d.cls d.ring).1 (readClass d.cls d.ring).2 d.len else s
  let s := s.setRing (fringR d.func (4 + d.ring)) (fun r => { r with reserved := r.reserved + 1 })
  if d.fence then s.setRing (classRing d.func d.cls d.ring) (fun r => { r with fence := some d.idx }) else s

/-- A checked descriptor goes where its class says: a frame to the port's queue, a buffer to the RX ring's buffers, a
command to the stage. -/
def takeIn (s : State) (d : Desc) (ready : Nat) : State :=
  match d.cls with
  | 0 => s.stage d ready
  | 1 => s.setHrd (fun h => { h with txq := h.txq ++ [d] })
  | _ => s.setHrd (fun h => { h with bufs := h.bufs ++ [d] })

/-- The apply tick of a command lies beyond the horizon (R53). -/
def beyond (s : State) (d : Desc) : Bool := d.cls = 0 && s.tn + 2 ^ 22 < d.apply

/-- Descriptors of a ring can be taken: Reeve runs rings of the function, nothing holds the ring, no frame of a packet TX ring
waits, and there is a slot for the completion and room in the stage (R52, R98, R110, R112, R117, R486). -/
def ringFree (s : State) (f cls ring : Nat) : Bool :=
  let r := s.ringSt (classRing f cls ring)
  s.ringsRun && f ≤ s.host.nvf && (cls = 0 || f = 0) && s.ringLive (classRing f cls ring) && r.fence.isNone &&
  r.resume ≤ s.prism.tick && s.ringRoom (fringR f (4 + ring)) && s.host.staged.length < 4096 &&
  !(cls = 1 && s.hrd.txq.any (fun d => d.ring == ring))

/-- Reeve can take the next descriptor of a ring: something unconsumed whose doorbell tick has passed, no hold, room in the
tick, and an apply tick not known to lie beyond the horizon (R53). -/
def fetchable (s : State) (f cls ring : Nat) : Bool :=
  let b := classRing f cls ring
  let r := s.ringSt b
  let i := s.ringIdx b
  s.ringFree f cls ring && cls < 3 && ring < 4 && r.host != i && bellTick r i i < s.tn && s.host.fetched < 256 &&
  !Option.any s.beyond r.far

/-- The descriptor reads that wait: those of every ring whose next descriptor can be taken and was not read before (R115). -/
def fetchReads (s : State) : List Backlog :=
  ((List.range 16).map (fun f => ((List.range (if f = 0 then 3 else 1)).map (fun cls => (List.range 4).filterMap (fun ring =>
    if s.fetchable f cls ring && (s.ringSt (classRing f cls ring)).far.isNone then some ⟨f, (readClass cls ring).1, (readClass cls ring).2, 32⟩ else none))).flatten)).flatten

/-- What the arbiter sends before the descriptor read of a ring; none where that read is not the next one (R51, R117). -/
def fetchTurn (s : State) (f cls ring : Nat) : Option State :=
  s.readTurn s.fetchReads f (readClass cls ring).1 (readClass cls ring).2 (s.waiting + 1)

/-- The consumer index moves past a descriptor. -/
def consume (s : State) (b : Nat) : State :=
  let i := (s.ringIdx b + 1) % 2 ^ 32
  ((s.put b GLB_RING_IDX_IDX i).setRing b (fun r => { r with
    wrote := true, far := none, bells := r.bells.filter (fun e => e.1 != i && (e.1 + 2 ^ 32 - i) % 2 ^ 32 ≤ 2 ^ 31) })).setHost
    (fun h => { h with fetched := h.fetched + 1 })

/-- The next descriptor of a ring: as it was read, or as it was kept when it lay beyond the horizon (R115). -/
def nextDesc (s : State) (f cls ring : Nat) (bytes ind : Option (List Byte)) : Option Desc :=
  let b := classRing f cls ring
  match (s.ringSt b).far with
  | some d => some (if d.ind then { d with payload := ind } else d)
  | none => bytes.map (fun bs => descOf f cls ring (s.ringIdx b) bs ind)

/-- Reeve takes the next descriptor of a ring. -/
def fetched (s : State) (f cls ring : Nat) (bytes ind : Option (List Byte)) : State :=
  let b := classRing f cls ring
  let i := s.ringIdx b
  let ready := max (bellTick (s.ringSt b) i i + 2) (s.tn + 1)
  match s.nextDesc f cls ring bytes ind with
  | none =>
    let d : Desc := ⟨f, cls, ring, i, 0, false, false, 0, 0, 0, 0, 0, none⟩
    (((s.consume b).reserve d).finish d .fault s.tn).occur 6
  | some d =>
    if s.beyond d then s.setRing b (fun r => { r with far := some d }) else
    let s := (s.consume b).reserve d
    match s.checkDesc d with
    | some st =>
      let s := s.finish d st s.tn
      if st = .fault then s.occur 6 else s
    | none => s.takeIn d ready

/-- Reeve fetches the next descriptor of a ring, where it can be taken and the arbiter comes to it. `bytes` is what the host
read returned, none for a failed read; `ind` is what the indirect read returned. -/
def fetch (s : State) (f cls ring : Nat) (bytes ind : Option (List Byte)) : State :=
  if !s.fetchable f cls ring then s
  else if (s.ringSt (classRing f cls ring)).far.isSome then s.fetched f cls ring bytes ind else
  match s.fetchTurn f cls ring with
  | none => s
  | some t => t.fetched f cls ring bytes ind

/-! ## A command row by itself -/

/-- Opcodes whose effect Miller's work of a tick does not read. -/
def apartFromMiller (opc : Nat) : Bool :=
  [0x00, 0x18, 0x19, 0x20, 0x21, 0x22, 0x28, 0x29, 0x30, 0x31, 0x38, 0x39, 0x3A, 0x3C, 0x40, 0x50, 0x51, 0x58].contains opc

/-- What a boundary makes of a command's effect at once: a loop that is set or forced takes its gains (R257, R273), a group is
reset (R375), a step may land in an inserted second, a register write of Miller comes into force, a comb follows what makes
the phase of its channel jump (R333). -/
def afterCmd (s : State) (d : Desc) : State :=
  match d.opc with
  | 0x01 => s.milFollows.combJumps
  | 0x02 => s.leapLanded.combJumps
  | 0x10 => ((s.latchLim d.target).regain d.target).combJumps
  | 0x12 => (s.latchLim d.target).regain d.target
  | 0x21 => s.groupResets
  | 0x30 => s.tmFirst d.target
  | 0x3B => s.leapLanded.combJumps
  | _ => s

/-- A command takes effect and completes at the boundary that started the running tick, at which one step is applied at most
(R75). Staged commands that a step makes due apply at the tick it lands in (R56). -/
def runCmd (s : State) (d : Desc) : State :=
  let e := (SetRun.mk s s.ltc.landed []).one ⟨d, s.tn, s.host.seq⟩
  let e := if e.s.tn = s.tn || e.s.mode < 6 then e else e.due
  let e := if e.used && !s.ltc.landed then { e with s := (List.range 64).foldl tmFirst e.s } else e
  { e with s := e.s.afterCmd d }.done

/-- A descriptor with opcode `opc` of a ring class, taken and, where its apply tick is not past the running tick, applied
at the boundary that started the running tick (log entry 23). -/
def command (s : State) (cls opc : Nat) (d : Desc) : State :=
  let d := { d with cls := cls, opc := opc, ring := d.ring % 4 }
  if !s.ringFree d.func cls d.ring || s.beyond d then s else
  let s := (s.charge d.func (readClass cls d.ring).1 (readClass cls d.ring).2 32).reserve d
  match s.checkDesc d with
  | some st =>
    let s := s.finish d st s.tn
    if st = .fault then s.occur 6 else s
  | none =>
    if cls != 0 then s.takeIn d s.tn
    else if s.tn < d.apply then s.stage d (s.tn + 1)
    else if apartFromMiller opc then s.runCmd d else s.again (fun s => s.runCmd d)

end State

end Sys2Proof.Machine
end

