-- ==== Sys2Proof/Machine/Boundary.lean ====
section
/-! DEFINITION. The tick boundary (R31–R46): what the ended tick still owes, its entries and signals, the advance of the
LTC, publication, the command set, and the work of the new tick. -/

namespace Sys2Proof.Machine

namespace State

/-! ## The end of the tick -/

/-- Reeve's overrun came before it had advanced a mode change, which continues in the next tick (R42, R65). -/
def modeHeld (s : State) : Bool := s.host.overrun == some 0

/-- Reeve is held, or its overrun came before best-master selection, whose decisions wait for the next tick (R42, R65, R608). -/
def bestHeld (s : State) : Bool := s.wd.reeveHold.isSome || Option.any (fun (n : Nat) => n < 2) s.host.overrun

/-- Oscillator time of the rest of the tick in seconds (R69). -/
def tickSecs (s : State) : Rat := (s.tickRest : Rat) / (1 + s.ltc.inc) / 2 ^ 32 / 1000000000

/-- The input of an index in the tick. -/
def refIn (x : TickIn) (i : Nat) : RefIn := (x.refs.find? (fun r => r.idx == i)).getD ⟨i, [], [], false⟩

/-- Edges of one input in the order they came: 2 ps units before the end of the tick, and whether of the selected slope. -/
def inOrder (lead trail : List Nat) : List (Nat × Bool) :=
  let ins := fun (e : Nat × Bool) (l : List (Nat × Bool)) => l.takeWhile (fun x => e.1 < x.1) ++ e :: l.dropWhile (fun x => e.1 < x.1)
  (lead.map (·, true) ++ trail.map (·, false)).foldr ins []

/-- The edges that the inputs of bypass outputs brought in the tick (R364, R369). -/
def bypassEdges (s : State) (x : TickIn) : State :=
  let stop := s.oscS 0 + s.tickSecs
  (List.range s.nOut).foldl (fun s o =>
    if !((s.outSrc o = 8 && s.outState o = 5) || (s.outSt o).byp.isSome) then s else
    let r := refIn x (s.get (bankR (o / 8)) OUT_BANK_CFG_BYP)
    (inOrder ((s.leadEdges r).map (·.before)) (s.trailEdges r)).foldl (fun s e => s.bypassEdge o (stop - e.1 * unit2ps) e.2) s) s

/-- Steps of their own that fell due in the tick and that no command has taken (log entry 14). -/
def tickOwes (s : State) (x : TickIn) : State :=
  let s := s.overruns x.milOver x.hrdOver x.tlyOver x.rveOver
  let s := (s.beat x.beat).peaks x.cycles.1 x.cycles.2.1 x.cycles.2.2.1 x.cycles.2.2.2
  let s := if s.mode < 6 then s else s.intervalEnd
  let s := if s.mode < 3 then s else (s.junction x.tj).supplies x.vddo
  let s := s.setWd (fun w => { w with supp := w.supp.filter (fun e =>
    match e.2.2 with | none => true | some b => Decidable.decide (s.prism.tick < b)) })
  let s := if Option.any (fun (t : Nat) => t + 15 ≤ s.prism.tick) s.pwr.imageFrom then s.registerImage else s
  let s := ((s.emberSecondStep).ppsEdge).frame
  if s.mode < 6 then s else
  let s := x.utc.foldl (fun s u => s.utcCarried u.1 u.2) s
  let s := x.fine.foldl (fun s e =>
    if e.1 < s.nLom && s.injected e.1 then s.putI (lomR e.1) LOM_STATUS_FINE (clampI (-100) 100 e.2) else s) s
  let s := (s.millerDue).ensDue
  let s := ((s.loomDue).bypassEdges x).tcDeadline
  let s := (s.windowsOver).tallyDue
  let s := (if s.heraldRuns then s.heraldDue else s).plkDue
  let s := if s.hasMir then s.mirDue else s
  s.carryTick x.link

/-- Entries, write-backs and signals of the tick, in that order (R109, R132, R135). -/
def tickFlush (s : State) : State := ((s.thresholds.flushEvents).writeBacks).msixAll.closeRings

/-! ## The boundary -/

/-- The same on the measurement timebase, 2 ps units. -/
def tickSpan (s : State) : Int := Config.quant (s.tickSecs * 500000000000)

/-- The LTC passes to the next multiple of 31,250 ns (R31), and every phase moves on. -/
def tickAdvance (s : State) : State :=
  let ended := s.tn
  let span := s.tickSpan
  let secs := s.tickSecs
  let s := (s.advancePhases secs).advanceAnchors span
  let s := s.ltcPut (s.ltcRaw 0 + s.tickRest)
  let s := s.setLtc (fun l => { l with landed := false, leapSeen := false, atEnd := s.ltcRaw 0, ended := ended })
  let s := s.setPrism (fun p => { p with now := p.now + span, tick := p.tick + 1 })
  s.setHost (fun h => { h with fetched := 0 })

/-- An index was judged in a step of its own for the tick that ended. -/
def judgedNow (s : State) (i : Nat) : Bool := (s.ref i).judged = some (s.tn - 1)

/-- On-time edges of index 48: the reference edges of its input (R192, R195), but for those taken within the tick. -/
def onTimeEdges (s : State) : State :=
  let n := s.prism.tc.taken
  let s := s.setTc (fun c => { c with taken := 0 })
  if !s.on prsR PRS_TC_CFG_EN then s else
  ((s.ref (s.get prsR PRS_TC_CFG_IN)).es.drop n).foldl (fun s e => s.tcEdge (s.tcNow - e.before)) s

/-- Verdicts, samples and qualities of the tick that ended (R43, R44 step 1). `held` says that best-master decisions wait
(R65). -/
def publish (s : State) (x : TickIn) (held : Bool) : State :=
  let tn := s.tn - 1
  let s := ((s.heraldSamples).heraldStates held).plkSamples
  let run := fun (s : State) (i : Nat) => if s.judgedNow i then s else s.runMonitors (refIn x i)
  let s := ((List.range 48).foldl run s).onTimeEdges
  let s := ((List.range 8).map (· + 48)).foldl run s
  let s := (s.pathSuspects').ensAll tn
  let s := ((List.range 8).map (· + 56)).foldl run s
  let s := s.asymResults
  let s := (List.range 64).foldl (fun s i => s.judge i tn) s
  let s := (List.range 49).foldl (fun s i => if i < 32 || i = 48 then s.setQuality i (s.assignedQl i) (s.assignedCc i) else s) s
  (List.range 8).foldl ensQuality ((s.heraldQuality).plkQuality)

/-- A refit takes effect, and counts for Mirror (R313, R559). -/
def takeRefit (s : State) : State :=
  let s := if s.hearth.modelNext.isSome then s.setMir (fun m => { m with hepoch := (m.hepoch + 1) % 65536 }) else s
  s.refitTakes

/-- Words take effect, committed state is latched, channels select (R44 steps 2 and 3, R200, R205, R304). -/
def latchCommitted (s : State) : State :=
  let s := ((s.hearthTick).millerApplyAll).takeRefit
  let s := (s.hearthLatch).dropFuture
  let s := if s.hasMir then s.mirLatch else s
  let s := (s.preLockAll).selSave
  let s := (List.range s.nMil).foldl select s
  let s := if s.mode = 11 then s else s.removals
  let s := (List.range s.nMil).foldl publishErr s
  s.latchPreLock

/-- What the boundary does to the mode, the functions, Lens and the generators before commands. -/
def beforeSet (s : State) : State :=
  let tn := s.tn - 1
  let s := (s.burstBoundary 0 tn).burstBoundary 1 tn
  let s := s.mirBoundary
  let s := ((s.powerBoundary).safeEntry).safeExit
  let s := if s.modeHeld then s else s.m6Completes
  let s := if s.autoDue && !s.modeHeld then s.autoTake else s
  (s.flrBoundary).tcdBoundary

/-- What register writes and commands set comes into force in the blocks (R245, R297, R333–R335, R369, R373). -/
def follows (s : State) : State :=
  let s := s.milFollows
  let s := s.combJumps
  let s := (List.range s.nLom).foldl loomBoundary s
  let s := s.outputsFollow
  let s := (List.range s.nOut).foldl (fun s o => if s.outSrc o = 8 then s.limitCheck o else s) s
  let s := s.groupResets
  let s := (List.range ((s.nOut + 7) / 8)).foldl bridgeBoundary s
  ((((s.latchEns).latchMil).latchHearth).hrtLocCheck).lensFollow

/-- Isolation actions that begin or complete, and the reaction that ends with them (R607–R609). -/
def reactBoundary (s : State) : State := (s.isolations).reactionEnd

/-- Held faults occur again while their condition persists (R600), the watchdog of Reeve (R606); the downgrade of R604. -/
def watchBoundary (s : State) : State := ((s.wd.held.foldl heldBoundary s).watchdog).syncDq

/-- The work of the new tick (R42, R44 step 5). Tally samples the output phases as
they stand at the boundary, before Miller opens a speculation in the new tick (R303). -/
def newTick (s : State) (x : TickIn) : State :=
  let s := s.latchRefs
  let s := (List.range s.nMil).foldl milStatus s
  let s := s.hearthStatus
  let s := if s.mode = 11 && s.paired && s.mir.com.isSome then s.showCommit else s.syncQuality
  let s := (s.tallyBoundary).senPublish
  let s := s.millerWork
  let s := s.heraldBoundary
  let s := (List.range s.nPlk).foldl plkPortBoundary s
  let m := s.mirOut
  let s := (List.range s.nPlk).foldl (fun s p => s.linkSend p (x.stamps.getD p 0) (some m)) s
  let s := s.timeOriginate x.deps
  (((s.lensAccept s.ltc.ended).bufDiscard).syncDrv).latchTq

/-- TICK_BOUNDARY. In M0 the LTC does not run and there is no boundary (R35). -/
def tickBoundary (s : State) (x : TickIn) : State :=
  if s.mode = 0 then s else
  let s := ((s.tickOwes x).tickFlush).tickAdvance
  let s := s.offAtBoundary
  if s.mode = 0 then s else
  let s := s.emberEntry
  let held := s.bestHeld
  let s := (s.reeveResume).leapStep
  if s.mode < 6 then
    let s := (((s.reactBoundary.powerBoundary).safeEntry).flrBoundary).watchBoundary
    let s := (s.applySet).syncInc.arbBoundary
    if s.mode < 3 then s.utcLatch else (((s.milFollows).latchMil).utcLatch).syncQuality
  else
    let s := ((s.publish x held).latchCommitted).reactBoundary
    let s := ((s.beforeSet).applySet).leapLanded
    if s.mode < 6 then (s.syncInc).utcLatch else
    let s := (s.follow).utcLatch.follows
    let s := ((s.keeperCopies).arbBoundary).watchBoundary
    s.newTick x

/-! ## MONITOR_DUE and SOAK_END -/

/-- The verdict of a physical or SyncE index for the running tick, formed as a step of its own at the end of the tick
(log entry 14). -/
def judgeEarly (s : State) (r : RefIn) : State :=
  let i := r.idx
  let now := s.prism.now
  let tick := s.prism.tick
  let span := s.tickSpan
  let t := s.setPrism (fun p => { p with now := p.now + span, tick := p.tick + 1 })
  let t := if 32 ≤ i && s.on (hrpR (i - 32)) HRD_ESMC_STATUS_TMO then t.addRes i 6 true else t
  let t := (t.runMonitors r).judge i s.tn
  t.setPrism (fun p => { p with now := now, tick := tick })

/-- An index whose verdict needs nothing but its own monitors. -/
def judgesAlone (s : State) (i : Nat) : Bool :=
  i < 36 && s.prismRuns && (s.ref i).judged != some s.tn &&
  !(List.range 8).any (fun e => (List.range 8).any (fun m => s.mIdx e m = i && [2, 4, 5].contains (s.mState e m)))

/-- A pending monitor has reached its due tick or the limit of eight ticks (R184). Both compare tick numbers, so ticks that an
LTC step skips count (log entry 66). -/
def monitorDue (s : State) (r : RefIn) : State :=
  let x := s.ref r.idx
  let due := x.pend.any (fun p => p.due ≤ s.tn) || Option.any (fun (n : Nat) => n + 8 ≤ s.tn) x.win
  if s.judgesAlone r.idx && due && x.forced.isNone then s.judgeEarly r else s

/-- A soak has run its time without a failed result (R188). -/
def soakEnd (s : State) (r : RefIn) : State :=
  let x := s.ref r.idx
  if !s.judgesAlone r.idx || x.forced.isSome || x.v != 2 || x.soak.isNone then s else
  let t := s.judgeEarly r
  if (t.ref r.idx).v = 0 then t else s

/-- The low-rate activity monitor of an index passes its deadline within the tick, `pos` 2 ps units into it (R178). -/
def missingEdge (s : State) (i pos : Nat) : State :=
  match s.missDeadline i with
  | some d => if s.refLive i && d < s.prism.now + pos then s.missEdge i else s
  | none => s

end State

end Sys2Proof.Machine
end

