-- ==== Sys2Proof/Machine/AccessRows.lean ====
section
/-! DEFINITION. The meanings of the rows of register accesses, SPI and BAR4, one definition per row. A step of the part's own acts where the state says
that it is due; elsewhere it leaves the state as it is (log entry 14). -/

namespace Sys2Proof.Machine

/-- REGISTER_WRITE (R150). -/
def execRegisterWrite (a : Access) (s : State) : Host.Outcome State Fault Refusal := .next (s.regWrite a)

/-- LTC_CAPTURE (R87). -/
def execLtcCapture (a : Access) (s : State) : Host.Outcome State Fault Refusal := .next (s.regWrite a)

/-- LTC_STEP_REQUEST (R76). -/
def execLtcStepRequest (a : Access) (s : State) : Host.Outcome State Fault Refusal := .next (s.regWrite a)

/-- UTCOFF_WRITE (R82). -/
def execUtcoffWrite (a : Access) (s : State) : Host.Outcome State Fault Refusal := .next (s.regWrite a)

/-- VIOLATION_CLEAR (R160). -/
def execViolationClear (a : Access) (s : State) : Host.Outcome State Fault Refusal := .next (s.regWrite a)

/-- RING_ENABLE (R107). -/
def execRingEnable (a : Access) (s : State) : Host.Outcome State Fault Refusal := .next (s.regWrite a)

/-- RING_DISABLE (R107). -/
def execRingDisable (a : Access) (s : State) : Host.Outcome State Fault Refusal := .next (s.regWrite a)

/-- REF_ENABLE (R189). -/
def execRefEnable (a : Access) (s : State) : Host.Outcome State Fault Refusal := .next (s.regWrite a)

/-- REF_DISABLE (R189). -/
def execRefDisable (a : Access) (s : State) : Host.Outcome State Fault Refusal := .next (s.regWrite a)

/-- PRELOCK_LATCH (R208). -/
def execPrelockLatch (a : Access) (s : State) : Host.Outcome State Fault Refusal := .next (s.regWrite a)

/-- ENSEMBLE_ENABLE (R217). -/
def execEnsembleEnable (a : Access) (s : State) : Host.Outcome State Fault Refusal := .next (s.regWrite a)

/-- ENSEMBLE_DISABLE (R218). -/
def execEnsembleDisable (a : Access) (s : State) : Host.Outcome State Fault Refusal := .next (s.regWrite a)

/-- ENSEMBLE_LATCH (R236). -/
def execEnsembleLatch (a : Access) (s : State) : Host.Outcome State Fault Refusal := .next (s.regWrite a)

/-- CHANNEL_ENABLE (R263). -/
def execChannelEnable (a : Access) (s : State) : Host.Outcome State Fault Refusal := .next (s.regWrite a)

/-- CHANNEL_DISABLE (R263). -/
def execChannelDisable (a : Access) (s : State) : Host.Outcome State Fault Refusal := .next (s.regWrite a)

/-- FREE_RUN_WORD_LOAD (R246). -/
def execFreeRunWordLoad (a : Access) (s : State) : Host.Outcome State Fault Refusal := .next (s.regWrite a)

/-- MILLER_LATCH (R278). -/
def execMillerLatch (a : Access) (s : State) : Host.Outcome State Fault Refusal := .next (s.regWrite a)

/-- HEARTH_LATCH (R326). -/
def execHearthLatch (a : Access) (s : State) : Host.Outcome State Fault Refusal := .next (s.regWrite a)

/-- LOOM_ENABLE (R334). -/
def execLoomEnable (a : Access) (s : State) : Host.Outcome State Fault Refusal := .next (s.regWrite a)

/-- LOOM_DISABLE (R335). -/
def execLoomDisable (a : Access) (s : State) : Host.Outcome State Fault Refusal := .next (s.regWrite a)

/-- LOOM_FC_LOAD (R330). -/
def execLoomFcLoad (a : Access) (s : State) : Host.Outcome State Fault Refusal := .next (s.regWrite a)

/-- BAND_TABLE_LATCH (R360). -/
def execBandTableLatch (a : Access) (s : State) : Host.Outcome State Fault Refusal := .next (s.regWrite a)

/-- OUTPUT_ENABLE (R369). -/
def execOutputEnable (a : Access) (s : State) : Host.Outcome State Fault Refusal := .next (s.regWrite a)

/-- OUTPUT_DISABLE (R369). -/
def execOutputDisable (a : Access) (s : State) : Host.Outcome State Fault Refusal := .next (s.regWrite a)

/-- BURST_ARM (R410). -/
def execBurstArm (a : Access) (s : State) : Host.Outcome State Fault Refusal := .next (s.regWrite a)

/-- BURST_DISARM (R410). -/
def execBurstDisarm (a : Access) (s : State) : Host.Outcome State Fault Refusal := .next (s.regWrite a)

/-- KEY_OVERRIDE (R553). -/
def execKeyOverride (a : Access) (s : State) : Host.Outcome State Fault Refusal := .next (s.regWrite a)

/-- TUNNEL_DATA_WRITE (R536). -/
def execTunnelDataWrite (a : Access) (s : State) : Host.Outcome State Fault Refusal := .next (s.regWrite a)

/-- TUNNEL_SEND (R536). -/
def execTunnelSend (a : Access) (s : State) : Host.Outcome State Fault Refusal := .next (s.regWrite a)

/-- TUNNEL_RX_POP (R537). -/
def execTunnelRxPop (a : Access) (s : State) : Host.Outcome State Fault Refusal := .next (s.busRead a)

/-- SPI_BUS_TAKE (R671). -/
def execSpiBusTake (a : Access) (s : State) : Host.Outcome State Fault Refusal := .next (s.regWrite a)

/-- SPI_CHIP_SELECT (R671). -/
def execSpiChipSelect (a : Access) (s : State) : Host.Outcome State Fault Refusal := .next (s.regWrite a)

/-- SPI_TX (R671). -/
def execSpiTx (a : Access) (s : State) : Host.Outcome State Fault Refusal := .next (s.regWrite a)

/-- SPI_BYTE_SHIFTED (R671). -/
def execSpiByteShifted (v : Nat) (s : State) : Host.Outcome State Fault Refusal := .next (s.spiShift v)

/-- SPI_RX_POP (R671). -/
def execSpiRxPop (a : Access) (s : State) : Host.Outcome State Fault Refusal := .next (s.busRead a)

/-- GRN_UNLOCK (R580). -/
def execGrnUnlock (a : Access) (s : State) : Host.Outcome State Fault Refusal := .next (s.regWrite a)

/-- GRN_LOCK (R580). -/
def execGrnLock (a : Access) (s : State) : Host.Outcome State Fault Refusal := .next (s.regWrite a)

/-- GRN_SET_PASSWORD (R580). -/
def execGrnSetPassword (a : Access) (s : State) : Host.Outcome State Fault Refusal := .next (s.regWrite a)

/-- WEAR_COUNTER_INCREMENT (R597). -/
def execWearCounterIncrement (a : Access) (s : State) : Host.Outcome State Fault Refusal := .next (s.regWrite a)

/-- WEAR_COUNTER_SELECT (R599). -/
def execWearCounterSelect (a : Access) (s : State) : Host.Outcome State Fault Refusal := .next (s.regWrite a)

/-- BAR4 works once recovery has ended; before that reads give zero and writes are dropped (R634). -/
def State.granAnswers (s : State) : Bool := 3 ≤ s.mode && s.pwr.recovered

/-- A read before the end of recovery. -/
def State.granBlank (s : State) (n : Nat) : State := { s with bus := ⟨List.replicate n 0, false⟩ }

/-- GRANARY_WRITE (R577). -/
def execGranaryWrite (off : Nat) (bs : List Byte) (s : State) : Host.Outcome State Fault Refusal :=
  if 524288 < off + bs.length then .fault (.outsideBar4 (max off 524288))
  else .next (if s.granAnswers then s.granWrite off bs else s)

/-- SAFE_EXIT_REQUEST (R633). -/
def execSafeExitRequest (a : Access) (s : State) : Host.Outcome State Fault Refusal := .next (s.regWrite a)

/-- SOFTWARE_RESET (R637). -/
def execSoftwareReset (a : Access) (s : State) : Host.Outcome State Fault Refusal := .next (s.regWrite a)

/-- HOST_FIRMWARE_LOAD (R635). -/
def execHostFirmwareLoad (a : Access) (s : State) : Host.Outcome State Fault Refusal := .next (s.regWrite a)

/-- GRANARY_READ (R578). -/
def execGranaryRead (off : Nat) (n : Nat) (s : State) : Host.Outcome State Fault Refusal :=
  if 524288 < off + n then .fault (.outsideBar4 (max off 524288))
  else .next (if s.granAnswers then s.granRead off n else if 3 ≤ s.mode then s.granBlank n else s)

/-- CROSSING_READ (R164). -/
def execCrossingRead (a : Access) (s : State) : Host.Outcome State Fault Refusal := .next (s.busRead a)

end Sys2Proof.Machine
end

