-- ==== Sys2Proof/Machine/CommandRows.lean ====
section
/-! DEFINITION. The meanings of the rows of ring commands, one definition per row. A step of the part's own acts where the state says
that it is due; elsewhere it leaves the state as it is (log entry 14). -/

namespace Sys2Proof.Machine

/-- NOP (R125). -/
def execNop (d : Desc) (s : State) : Host.Outcome State Fault Refusal := .next (s.command 0 0x00 d)

/-- REG_WRITE (R126). -/
def execRegWrite (d : Desc) (s : State) : Host.Outcome State Fault Refusal := .next (s.command 0 0x01 d)

/-- LTC_STEP (R127). -/
def execLtcStep (d : Desc) (s : State) : Host.Outcome State Fault Refusal := .next (s.command 0 0x02 d)

/-- MODE_SET (R630). -/
def execModeSet (d : Desc) (s : State) : Host.Outcome State Fault Refusal := .next (s.command 0 0x03 d)

/-- REF_FORCE (R202). -/
def execRefForce (d : Desc) (s : State) : Host.Outcome State Fault Refusal := .next (s.command 0 0x08 d)

/-- PRIO_TABLE (R203). -/
def execPrioTable (d : Desc) (s : State) : Host.Outcome State Fault Refusal := .next (s.command 0 0x09 d)

/-- REF_OVERRIDE (R190). -/
def execRefOverride (d : Desc) (s : State) : Host.Outcome State Fault Refusal := .next (s.command 0 0x0A d)

/-- ENSEMBLE_SET (R234). -/
def execEnsembleSet (d : Desc) (s : State) : Host.Outcome State Fault Refusal := .next (s.command 0 0x0B d)

/-- TAMPER_CLEAR (R235). -/
def execTamperClear (d : Desc) (s : State) : Host.Outcome State Fault Refusal := .next (s.command 0 0x0C d)

/-- CHAN_STATE (R271). -/
def execChanState (d : Desc) (s : State) : Host.Outcome State Fault Refusal := .next (s.command 0 0x10 d)

/-- CHAN_PHASE (R272). -/
def execChanPhase (d : Desc) (s : State) : Host.Outcome State Fault Refusal := .next (s.command 0 0x11 d)

/-- CHAN_LOOP (R273). -/
def execChanLoop (d : Desc) (s : State) : Host.Outcome State Fault Refusal := .next (s.command 0 0x12 d)

/-- HEARTH_CTL (R325). -/
def execHearthCtl (d : Desc) (s : State) : Host.Outcome State Fault Refusal := .next (s.command 0 0x14 d)

/-- LOOM_TUNE (R356). -/
def execLoomTune (d : Desc) (s : State) : Host.Outcome State Fault Refusal := .next (s.command 0 0x18 d)

/-- LOOM_RELOCK (R357). -/
def execLoomRelock (d : Desc) (s : State) : Host.Outcome State Fault Refusal := .next (s.command 0 0x19 d)

/-- OUT_CTL (R393). -/
def execOutCtl (d : Desc) (s : State) : Host.Outcome State Fault Refusal := .next (s.command 0 0x20 d)

/-- SYNC_GROUP (R395). -/
def execSyncGroup (d : Desc) (s : State) : Host.Outcome State Fault Refusal := .next (s.command 0 0x21 d)

/-- TCD_CTL (R396). -/
def execTcdCtl (d : Desc) (s : State) : Host.Outcome State Fault Refusal := .next (s.command 0 0x22 d)

/-- LENS_ARM (R426). -/
def execLensArm (d : Desc) (s : State) : Host.Outcome State Fault Refusal := .next (s.command 0 0x28 d)

/-- CAP_RING_CTL (R427). -/
def execCapRingCtl (d : Desc) (s : State) : Host.Outcome State Fault Refusal := .next (s.command 0 0x29 d)

/-- TM_CTL (R454). -/
def execTmCtl (d : Desc) (s : State) : Host.Outcome State Fault Refusal := .next (s.command 0 0x30 d)

/-- SENTINEL_CTL (R455). -/
def execSentinelCtl (d : Desc) (s : State) : Host.Outcome State Fault Refusal := .next (s.command 0 0x31 d)

/-- PTP_INST (R487). -/
def execPtpInst (d : Desc) (s : State) : Host.Outcome State Fault Refusal := .next (s.command 0 0x38 d)

/-- SESS_ADD (R513). -/
def execSessAdd (d : Desc) (s : State) : Host.Outcome State Fault Refusal := .next (s.command 0 0x39 d)

/-- SESS_DEL (R514). -/
def execSessDel (d : Desc) (s : State) : Host.Outcome State Fault Refusal := .next (s.command 0 0x3A d)

/-- ACCEPT_STEP (R506). -/
def execAcceptStep (d : Desc) (s : State) : Host.Outcome State Fault Refusal := .next (s.command 0 0x3B d)

/-- ASYM_SET (R510). -/
def execAsymSet (d : Desc) (s : State) : Host.Outcome State Fault Refusal := .next (s.command 0 0x3C d)

/-- PLK_CTL (R539). -/
def execPlkCtl (d : Desc) (s : State) : Host.Outcome State Fault Refusal := .next (s.command 0 0x40 d)

/-- KEY_CTL (R570). -/
def execKeyCtl (d : Desc) (s : State) : Host.Outcome State Fault Refusal := .next (s.command 0 0x48 d)

/-- GRN_STORE (R584). -/
def execGrnStore (d : Desc) (s : State) : Host.Outcome State Fault Refusal := .next (s.command 0 0x50 d)

/-- GRN_PF_MARK (R585). -/
def execGrnPfMark (d : Desc) (s : State) : Host.Outcome State Fault Refusal := .next (s.command 0 0x51 d)

/-- WCH_CLEAR (R613). -/
def execWchClear (d : Desc) (s : State) : Host.Outcome State Fault Refusal := .next (s.command 0 0x58 d)

/-- PKT_TX (R128). -/
def execPktTx (d : Desc) (s : State) : Host.Outcome State Fault Refusal := .next (s.command 1 0x60 d)

/-- PKT_RXBUF (R128). -/
def execPktRxbuf (d : Desc) (s : State) : Host.Outcome State Fault Refusal := .next (s.command 2 0x61 d)

end Sys2Proof.Machine
end

