-- ==== Sys2Proof/Machine/HeraldRows.lean ====
section
/-! DEFINITION. The meanings of the rows of Ethernet ports, PTP and ESMC, one definition per row. A step of the part's own acts where the state says
that it is due; elsewhere it leaves the state as it is (log entry 14). -/

namespace Sys2Proof.Machine

/-- PORT_LINK_CHANGE (R463). -/
def execPortLinkChange (p : Nat) (up : Bool) (align : Bool) (s : State) : Host.Outcome State Fault Refusal :=
  .next (if p < s.nHrd && (!up || s.portTrains p) then s.setLink p up align else s)

/-- SYNC (R472). -/
def execSync (m : PtpIn) (s : State) : Host.Outcome State Fault Refusal := .next (s.sync m)

/-- FOLLOW_UP (R472). -/
def execFollowUp (m : PtpIn) (s : State) : Host.Outcome State Fault Refusal := .next (s.followUp m)

/-- DELAY_REQ (R471). -/
def execDelayReq (m : PtpIn) (s : State) : Host.Outcome State Fault Refusal := .next (s.delayReq m)

/-- DELAY_RESP (R472). -/
def execDelayResp (m : PtpIn) (s : State) : Host.Outcome State Fault Refusal := .next (s.delayResp m)

/-- PDELAY_REQ (R471). -/
def execPdelayReq (m : PtpIn) (s : State) : Host.Outcome State Fault Refusal := .next (s.pdelayReq m)

/-- PDELAY_RESP (R472). -/
def execPdelayResp (m : PtpIn) (s : State) : Host.Outcome State Fault Refusal := .next (s.pdelayResp m)

/-- PDELAY_RESP_FOLLOW_UP (R472). -/
def execPdelayRespFollowUp (m : PtpIn) (s : State) : Host.Outcome State Fault Refusal := .next (s.pdelayFup m)

/-- ANNOUNCE (R475). -/
def execAnnounce (m : PtpIn) (a : Ann) (s : State) : Host.Outcome State Fault Refusal := .next (s.announce m a)

/-- REQUEST_UNICAST_TRANSMISSION (R496). -/
def execRequestUnicastTransmission (m : PtpIn) (t : SigIn) (s : State) : Host.Outcome State Fault Refusal :=
  .next (s.requestUnicast m t)

/-- GRANT_UNICAST_TRANSMISSION (R497). -/
def execGrantUnicastTransmission (m : PtpIn) (t : SigIn) (s : State) : Host.Outcome State Fault Refusal :=
  .next (s.grantUnicast m t)

/-- CANCEL_UNICAST_TRANSMISSION (R498). -/
def execCancelUnicastTransmission (m : PtpIn) (t : SigIn) (s : State) : Host.Outcome State Fault Refusal :=
  .next (s.cancelUnicast m t)

/-- ACKNOWLEDGE_CANCEL_UNICAST_TRANSMISSION (R498). -/
def execAcknowledgeCancelUnicastTransmission (m : PtpIn) (s : State) : Host.Outcome State Fault Refusal :=
  .next (s.ackCancel m)

/-- MANAGEMENT_MESSAGE (R467). -/
def execManagementMessage (m : PtpIn) (s : State) : Host.Outcome State Fault Refusal := .next (s.management m)

/-- NON_PTP_FRAME (R484). -/
def execNonPtpFrame (f : FrameIn) (s : State) : Host.Outcome State Fault Refusal := .next (s.nonPtpFrame f)

/-- ESMC_PDU (R481). -/
def execEsmcPdu (m : EsmcIn) (s : State) : Host.Outcome State Fault Refusal := .next (s.esmcPdu m)

/-- ESMC_TIMEOUT (R481). -/
def execEsmcTimeout (p : Nat) (s : State) : Host.Outcome State Fault Refusal := .next (s.esmcTimeout p)

/-- ESMC_INFORMATION_PDU (R482). -/
def execEsmcInformationPdu (p : Nat) (s : State) : Host.Outcome State Fault Refusal := .next (s.esmcInfo p)

/-- MESSAGE_DUE (R499). -/
def execMessageDue (m : Msg) (pos : Nat) (s : State) : Host.Outcome State Fault Refusal := .next (s.messageDue m pos)

/-- MESSAGE_SKIP (R500). -/
def execMessageSkip (m : Msg) (s : State) : Host.Outcome State Fault Refusal := .next (s.messageSkip m)

/-- SESSION_ENTRY_FETCH (R495). -/
def execSessionEntryFetch (port : Nat) (slot : Option Nat) (key : Nat × Nat × Nat) (late : Bool) (s : State) : Host.Outcome State Fault Refusal :=
  .next (s.entryFetch port slot key late)

/-- GRANT_EXPIRY (R496). -/
def execGrantExpiry (slot : Nat) (t : Nat) (s : State) : Host.Outcome State Fault Refusal :=
  .next (s.grantExpiry slot t)

/-- GRANT_RENEWAL (R497). -/
def execGrantRenewal (slot : Nat) (t : Nat) (s : State) : Host.Outcome State Fault Refusal :=
  .next (s.grantRenewal slot t)

/-- REQUEST_RETRY (R497). -/
def execRequestRetry (slot : Nat) (t : Nat) (s : State) : Host.Outcome State Fault Refusal :=
  .next (s.requestRetry slot t)

/-- ANNOUNCE_TIMEOUT (R475). -/
def execAnnounceTimeout (k : Nat) (s : State) : Host.Outcome State Fault Refusal := .next (s.announceTimeout k)

/-- SYNC_TIMEOUT (R474). -/
def execSyncTimeout (k : Nat) (s : State) : Host.Outcome State Fault Refusal := .next (s.syncTimeout k)

/-- QUARANTINE_END (R509). -/
def execQuarantineEnd (k : Nat) (s : State) : Host.Outcome State Fault Refusal := .next (s.quarEnd k)

/-- HOST_FRAME_SENT (R486). -/
def execHostFrameSent (ring : Nat) (s : State) : Host.Outcome State Fault Refusal := .next (s.frameSent ring)

/-- RECEIVE_CLOCK_LOCK_CHANGE (R480). -/
def execReceiveClockLockChange (p : Nat) (lock : Bool) (s : State) : Host.Outcome State Fault Refusal :=
  .next (if p < s.nHrd && 6 ≤ s.mode then s.putB (hrpR p) HRD_PORT_STATUS_RXLOCK lock else s)

end Sys2Proof.Machine
end

