-- ==== Sys2Proof/Machine/KeeperRows.lean ====
section
/-! DEFINITION. The meanings of the rows of Granary, Watchman, supplies, resets and start-up, one definition per row. A step of the part's own acts where the state says
that it is due; elsewhere it leaves the state as it is (log entry 14). -/

namespace Sys2Proof.Machine

/-- TAMPER_EDGE (R238). -/
def execTamperEdge (pin : Nat) (rising : Bool) (t : PinTime) (s : State) : Host.Outcome State Fault Refusal :=
  .next (if pin < 2 then s.tamperEdge pin rising t.ns t.hold else s)

/-- PAGE_STORE_START (R582). -/
def execPageStoreStart (s : State) : Host.Outcome State Fault Refusal := .next (s.pageStoreStart)

/-- The running store ends; a Hearth page that committed is what a later start loads (R321, R582). -/
def State.storeEnd (s : State) (ok : Bool) : State :=
  match s.gran.busy with
  | some p => let t := s.pageStoreComplete ok; if ok then t.hrtStored p else t
  | none => s

/-- PAGE_STORE_COMPLETE (R582). -/
def execPageStoreComplete (ok : Bool) (s : State) : Host.Outcome State Fault Refusal := .next (s.storeEnd ok)

/-- WEAR_COUNTER_WRITE (R597). -/
def execWearCounterWrite (c : Nat) (worn : Bool) (s : State) : Host.Outcome State Fault Refusal :=
  .next (s.wearWrite c worn)

/-- FAULT_OCCURRENCE (R601). -/
def execFaultOccurrence (srcs : List Nat) (ended : List Nat) (bad : List Nat) (s : State) : Host.Outcome State Fault Refusal :=
  .next (s.faultOccurrence srcs ended bad)

/-- REACTION_END (R607). -/
def execReactionEnd (s : State) : Host.Outcome State Fault Refusal := .next (s.reactionEnd)

/-- SUPPRESSION_END (R612). -/
def execSuppressionEnd (n : Nat) (s : State) : Host.Outcome State Fault Refusal := .next (s.suppressionEnd n)

/-- REEVE_WATCHDOG (R606). -/
def execReeveWatchdog (s : State) : Host.Outcome State Fault Refusal := .next (s.watchdog)

/-- SAFE_ENTRY (R615). -/
def execSafeEntry (s : State) : Host.Outcome State Fault Refusal := .next (s.safeEntry)

/-- POWER_FAIL_WARNING (R624). -/
def execPowerFailWarning (pin : Bool) (ns : Nat) (s : State) : Host.Outcome State Fault Refusal :=
  .next (s.powerWarn pin ns)

/-- POWER_FAIL_CLEARED (R627). -/
def execPowerFailCleared (s : State) : Host.Outcome State Fault Refusal := .next (s.powerClear)

/-- RAIL_OUT_OF_RANGE (R620). -/
def execRailOutOfRange (r : Nat) (s : State) : Host.Outcome State Fault Refusal := .next (s.railOut r)

/-- CORE_FAILURE (R625). -/
def execCoreFailure (vbak : Bool) (s : State) : Host.Outcome State Fault Refusal := .next (s.coreFailure vbak)

/-- EMBER_ENTRY (R322). -/
def execEmberEntry (s : State) : Host.Outcome State Fault Refusal := .next (s.emberEntry)

/-- EMBER_SECOND (R322). -/
def execEmberSecond (s : State) : Host.Outcome State Fault Refusal := .next (s.emberSecondStep)

/-- VBAK_LOSS (R626). -/
def execVbakLoss (s : State) : Host.Outcome State Fault Refusal := .next (s.vbakLoss)

/-- CORE_RAILS_IN_RANGE (R619). -/
def execCoreRailsInRange (ok : Nat) (s : State) : Host.Outcome State Fault Refusal := .next (s.railsIn ok)

/-- POR_RELEASE (R620). -/
def execPorRelease (boot : Nat) (prio : Bool) (s : State) : Host.Outcome State Fault Refusal :=
  .next (s.porRelease boot prio)

/-- RST_N (R637). -/
def execRstN (low : Bool) (s : State) : Host.Outcome State Fault Refusal := .next (s.rstPin low)

/-- PERST_N (R637). -/
def execPerstN (s : State) : Host.Outcome State Fault Refusal := .next (s.perst)

/-- FUNCTION_LEVEL_RESET (R99). -/
def execFunctionLevelReset (f : Nat) (s : State) : Host.Outcome State Fault Refusal := .next (s.flrAsk f)

/-- ROM_COMPLETE (R634). -/
def execRomComplete (osc : Bool) (s : State) : Host.Outcome State Fault Refusal := .next (s.romComplete osc)

/-- GRANARY_RECOVERY (R588). -/
def execGranaryRecovery (s : State) : Host.Outcome State Fault Refusal := .next (s.recovery)

/-- FIRMWARE_LOAD (R635). -/
def execFirmwareLoad (flash : Option (List Byte)) (s : State) : Host.Outcome State Fault Refusal :=
  .next (s.firmwareLoad flash)

/-- CALIBRATION_COMPLETE (R634). -/
def execCalibrationComplete (crc : Nat) (s : State) : Host.Outcome State Fault Refusal := .next (s.calComplete crc)

/-- REGISTER_IMAGE_APPLY (R595). -/
def execRegisterImageApply (s : State) : Host.Outcome State Fault Refusal := .next (s.registerImage)

/-- AUTO_MODE_ENTRY (R634). -/
def execAutoModeEntry (s : State) : Host.Outcome State Fault Refusal := .next (s.autoMode)

/-- RAIL_RETURN_TO_RANGE (R620). -/
def execRailReturnToRange (r : Nat) (s : State) : Host.Outcome State Fault Refusal := .next (s.railBack r)

/-- VF_ENABLE_CHANGE (R98). -/
def execVfEnableChange (n : Nat) (s : State) : Host.Outcome State Fault Refusal :=
  .next (if 3 ≤ s.mode then s.vfChange n else s)

end Sys2Proof.Machine
end

