-- ==== Sys2Proof/Machine/LinkRows.lean ====
section
/-! DEFINITION. The meanings of the rows of Polsis and Mirror, one definition per row. A step of the part's own acts where the state says
that it is due; elsewhere it leaves the state as it is (log entry 14). -/

namespace Sys2Proof.Machine

/-- LINK_FRAME_RECEIVED (R523). -/
def execLinkFrameReceived (m : LinkIn) (s : State) : Host.Outcome State Fault Refusal :=
  .next ((s.linkFrame m).mirFrame m)

/-- TIME_FRAME_RECEIVED (R530). -/
def execTimeFrameReceived (m : TimeIn) (s : State) : Host.Outcome State Fault Refusal := .next (s.timeFrame m)

/-- POLSIS_LINK_UP (R519). -/
def execPolsisLinkUp (p : Nat) (s : State) : Host.Outcome State Fault Refusal := .next (s.plkLinkUp p)

/-- POLSIS_LINK_DOWN (R519). -/
def execPolsisLinkDown (p : Nat) (s : State) : Host.Outcome State Fault Refusal :=
  .next (if p < s.nPlk then s.plkLinkDown p else s)

/-- LANE_SWAP (R525). -/
def execLaneSwap (p : Nat) (s : State) : Host.Outcome State Fault Refusal :=
  .next (if p < s.nPlk then s.laneSwap p else s)

/-- ASYMMETRY_UPDATE (R526). -/
def execAsymmetryUpdate (p : Nat) (s : State) : Host.Outcome State Fault Refusal :=
  .next (if p < s.nPlk then s.asymmetryUpdate p else s)

/-- CALIBRATION_END (R527). -/
def execCalibrationEnd (p : Nat) (s : State) : Host.Outcome State Fault Refusal :=
  .next (if p < s.nPlk then s.calibrationEnd p else s)

/-- FRAME_LOSS (R533). -/
def execFrameLoss (p : Nat) (s : State) : Host.Outcome State Fault Refusal :=
  .next (if p < s.nPlk then s.frameLoss p else s)

/-- ORIGIN_RELEASE (R531). -/
def execOriginRelease (p : Nat) (s : State) : Host.Outcome State Fault Refusal :=
  .next (if p < s.nPlk then s.originRelease p else s)

/-- ORIGIN_ENTRY_FREE (R532). -/
def execOriginEntryFree (o : Nat) (s : State) : Host.Outcome State Fault Refusal := .next (s.originFree o)

/-- KEY_SAMPLE (R544). -/
def execKeySample (high : Bool) (s : State) : Host.Outcome State Fault Refusal := .next (s.keySample high)

/-- KEY_SENSE_CHANGE (R550). -/
def execKeySenseChange (high : Bool) (s : State) : Host.Outcome State Fault Refusal := .next (s.keySense high)

/-- TAKEOVER (R564). -/
def execTakeover (s : State) : Host.Outcome State Fault Refusal := .next (s.takeover)

/-- HOLDOFF_EXPIRY (R549). -/
def execHoldoffExpiry (s : State) : Host.Outcome State Fault Refusal := .next (s.holdoffExpiry)

/-- OVERRIDE_END (R554). -/
def execOverrideEnd (s : State) : Host.Outcome State Fault Refusal := .next (s.overrideEnd)

/-- SNAPSHOT_COMMIT (R558). -/
def execSnapshotCommit (s : State) : Host.Outcome State Fault Refusal := .next (s.snapshotCommit)

/-- HEARTH_SNAPSHOT_COMMIT (R559). -/
def execHearthSnapshotCommit (s : State) : Host.Outcome State Fault Refusal := .next (s.hearthCommit)

/-- MIRROR_LINK_LOST (R568). -/
def execMirrorLinkLost (s : State) : Host.Outcome State Fault Refusal := .next (s.mirrorLinkLost)

end Sys2Proof.Machine
end

