-- ==== Sys2Proof/Machine/MeasureRows.lean ====
section
/-! DEFINITION. The meanings of the rows of Lens and Tally, one definition per row. A step of the part's own acts where the state says
that it is due; elsewhere it leaves the state as it is (log entry 14). -/

namespace Sys2Proof.Machine

/-- LENS_EDGE (R400, R405): the signal passes a level, which is an edge where it switches the comparator. -/
def execLensEdge (i : Nat) (x : Crossing) (pos : Nat) (s : State) : Host.Outcome State Fault Refusal :=
  .next (s.lensCross i x pos)

/-- BURST_WINDOW_END (R410): the window ends at start + WIN. -/
def execBurstWindowEnd (u : Nat) (pos : Nat) (s : State) : Host.Outcome State Fault Refusal :=
  .next (if u < 2 && s.inTick pos && s.burstOver u ((s.ltcRaw pos : Int) - s.ltc.stepped + 1) then s.burstClose u 0 else s)

/-- TALLY_WINDOW_CLOSE (R435). -/
def execTallyWindowClose (m : Nat) (s : State) : Host.Outcome State Fault Refusal :=
  .next (if m < 64 && s.tallyRuns && s.tmCloseDue m s.tn then s.tmAbsorb m s.tn else s)

/-- SENTINEL_WINDOW_CLOSE (R449). -/
def execSentinelWindowClose (s : State) : Host.Outcome State Fault Refusal :=
  .next (if s.senCloseDue then s.senAbsorb s.tn else s)

/-- SENTINEL_LOST (R451). -/
def execSentinelLost (s : State) : Host.Outcome State Fault Refusal := .next (s.senLost)

end Sys2Proof.Machine
end

