-- ==== Sys2Proof/Machine/OutputRows.lean ====
section
/-! DEFINITION. The meanings of the rows of Looms, outputs and generators, one definition per row. A step of the part's own acts where the state says
that it is due; elsewhere it leaves the state as it is (log entry 14). -/

namespace Sys2Proof.Machine

/-- BAND_SEARCH_MEASUREMENT (R340). -/
def execBandSearchMeasurement (n : Nat) (hz : Nat) (s : State) : Host.Outcome State Fault Refusal :=
  .next (if n < s.nLom && s.measDue n then s.measure n hz else s)

/-- LOOM_LOCK (R340). -/
def execLoomLock (n : Nat) (s : State) : Host.Outcome State Fault Refusal :=
  .next (if n < s.nLom && s.lockAtDue n then s.loomLock n else s)

/-- LOOM_ATTEMPT_FAIL (R342). -/
def execLoomAttemptFail (n : Nat) (s : State) : Host.Outcome State Fault Refusal :=
  .next (if n < s.nLom then s.attemptFail n else s)

/-- LOOM_LOSS_OF_LOCK (R339). -/
def execLoomLossOfLock (n : Nat) (s : State) : Host.Outcome State Fault Refusal :=
  .next (if n < s.nLom then s.loomLoss n else s)

/-- BAND_HOP (R338). -/
def execBandHop (n : Nat) (fine : Int) (after : Int) (s : State) : Host.Outcome State Fault Refusal :=
  .next (if n < s.nLom then s.bandHop n fine after else s)

/-- GLIDE_STEP (R347). -/
def execGlideStep (n : Nat) (s : State) : Host.Outcome State Fault Refusal :=
  .next (if n < s.nLom then s.glideStep n else s)

/-- COMB_SLEW_END (R333). -/
def execCombSlewEnd (n : Nat) (s : State) : Host.Outcome State Fault Refusal :=
  .next (if n < s.nLom then s.slewEnd n else s)

/-- BRIDGE_READY (R351). -/
def execBridgeReady (g : Nat) (s : State) : Host.Outcome State Fault Refusal :=
  .next (if 8 * g < s.nOut then s.bridgeReadyStep g else s)

/-- OUTPUT_FIRST_EDGE (R369). -/
def execOutputFirstEdge (o : Nat) (after : Nat) (s : State) : Host.Outcome State Fault Refusal :=
  .next (if s.nOut ≤ o then s else if s.bypassDue o (s.oscS after) then s.bypassFirst o (s.oscS after) else if s.firstDue o after then s.firstEdge o else s)

/-- SYNC_IN_EDGE (R378). -/
def execSyncInEdge (after : Nat) (s : State) : Host.Outcome State Fault Refusal :=
  .next (if 3 ≤ s.mode then s.syncIn after else s)

/-- SYNC_GROUP_RESET_DONE (R379). -/
def execSyncGroupResetDone (g : Nat) (s : State) : Host.Outcome State Fault Refusal :=
  .next (if g < 8 then s.sgEnd g else s)

/-- PPS_EDGE (R381). -/
def execPpsEdge (s : State) : Host.Outcome State Fault Refusal := .next (s.ppsEdge)

/-- TIMECODE_FRAME (R385). -/
def execTimecodeFrame (s : State) : Host.Outcome State Fault Refusal := .next (s.frame)

/-- FINE_DELAY_MOVE_END (R367): within the tick in which the move ends. -/
def execFineDelayMoveEnd (o : Nat) (s : State) : Host.Outcome State Fault Refusal :=
  .next (if o < s.nOut && s.fineDue o (s.oscS s.tickLeftUnits) then s.fineEnd o else s)

end Sys2Proof.Machine
end

