-- ==== Sys2Proof/Machine/ReferenceRows.lean ====
section
/-! DEFINITION. The meanings of the rows of Prism, Miller and the Hearth, one definition per row. A step of the part's own acts where the state says
that it is due; elsewhere it leaves the state as it is (log entry 14). -/

namespace Sys2Proof.Machine

/-- MONITOR_DUE (R184). -/
def execMonitorDue (x : RefIn) (s : State) : Host.Outcome State Fault Refusal := .next (s.monitorDue x)

/-- SOAK_END (R188). -/
def execSoakEnd (x : RefIn) (s : State) : Host.Outcome State Fault Refusal := .next (s.soakEnd x)

/-- MISSING_EDGE (R178). -/
def execMissingEdge (i : Nat) (pos : Nat) (s : State) : Host.Outcome State Fault Refusal :=
  .next (s.missingEdge i pos)

/-- TOD_SENTENCE (R193). -/
def execTodSentence (x : TodIn) (s : State) : Host.Outcome State Fault Refusal := .next (s.todSentence x)

/-- IRIG_B_FRAME_RECEIVED (R194). -/
def execIrigBFrameReceived (x : IrigIn) (s : State) : Host.Outcome State Fault Refusal := .next (s.irigFrame x)

/-- CHANNEL_LOCK (R259). -/
def execChannelLock (c : Nat) (s : State) : Host.Outcome State Fault Refusal := .next (s.channelLock c)

/-- CHANNEL_UNLOCK (R259). -/
def execChannelUnlock (c : Nat) (s : State) : Host.Outcome State Fault Refusal := .next (s.channelUnlock c)

/-- SPECULATION_LIMIT (R290). -/
def execSpeculationLimit (c : Nat) (s : State) : Host.Outcome State Fault Refusal := .next (s.specLimit c)

/-- LEARN_END (R221). -/
def execLearnEnd (e : Nat) (m : Nat) (s : State) : Host.Outcome State Fault Refusal :=
  .next (s.learnEnd e m (s.tn - 1))

/-- TAMPER_REJOIN (R220). -/
def execTamperRejoin (e : Nat) (m : Nat) (s : State) : Host.Outcome State Fault Refusal :=
  .next (s.tamperRejoin e m (s.tn - 1))

/-- ALLAN_WEIGHT_UPDATE (R219). -/
def execAllanWeightUpdate (e : Nat) (s : State) : Host.Outcome State Fault Refusal := .next (s.allanUpdate e)

/-- HEARTH_REANCHOR (R226). -/
def execHearthReanchor (e : Nat) (s : State) : Host.Outcome State Fault Refusal := .next (s.reanchor e)

/-- ASYM_WINDOW_END (R233). -/
def execAsymWindowEnd (e : Nat) (s : State) : Host.Outcome State Fault Refusal := 
  .next (if s.asymDue e then (s.asymWindowEnd e (s.tn - 1)).asymResults else s)

/-- HEARTH_INTERVAL_END (R309). -/
def execHearthIntervalEnd (s : State) : Host.Outcome State Fault Refusal := .next (s.intervalEnd)

/-- TEMPERATURE_READING (R311). -/
def execTemperatureReading (die : Int) (therm : Option Int) (s : State) : Host.Outcome State Fault Refusal :=
  .next (s.tempReading die therm)

end Sys2Proof.Machine
end

