-- ==== Sys2Proof/Machine/TimingRows.lean ====
section
/-! DEFINITION. The meanings of the rows of ticks, rings, signals and traffic, one definition per row. A step of the part's own acts where the state says
that it is due; elsewhere it leaves the state as it is (log entry 14). -/

namespace Sys2Proof.Machine

/-- TICK_BOUNDARY (R44). -/
def execTickBoundary (x : TickIn) (s : State) : Host.Outcome State Fault Refusal := .next (s.tickBoundary x)

/-- MSIX_SIGNAL (R135). -/
def execMsixSignal (func : Nat) (vec : Nat) (s : State) : Host.Outcome State Fault Refusal :=
  .next (s.msixSignal func vec)

/-- BUFFER_DRAIN (R422). -/
def execBufferDrain (n : Nat) (s : State) : Host.Outcome State Fault Refusal := .next (s.drain n)

/-- UPSTREAM_ARBITRATION (R138). -/
def execUpstreamArbitration (waiting : List Backlog) (s : State) : Host.Outcome State Fault Refusal :=
  .next (s.arbitrate waiting)

/-- LEAP_SECOND (R83). -/
def execLeapSecond (s : State) : Host.Outcome State Fault Refusal := .next (s.leapSecond)

/-- DOORBELL_WRITE (R113). -/
def execDoorbellWrite (f : Nat) (page : Nat) (off : Nat) (size : Nat) (v : Nat) (s : State) : Host.Outcome State Fault Refusal :=
  .next (if s.answers ⟨f, false, false⟩ then s.doorbell f page off size v else s)

/-- DESCRIPTOR_FETCH (R120). -/
def execDescriptorFetch (f : Nat) (cls : Nat) (ring : Nat) (bytes : Option (List Byte)) (ind : Option (List Byte)) (s : State) : Host.Outcome State Fault Refusal :=
  .next (s.fetch f cls ring bytes ind)

end Sys2Proof.Machine
end

