-- ==== Sys2Proof/Machine/Dispatch.lean ====
section
/-! DEFINITION. The dispatch: one arm per constructor of Instr. -/

namespace Sys2Proof.Machine

def exec (i : Instr) (s : State) : Host.Outcome State Fault Refusal :=
  match i with
  | .tickBoundary x => Sys2Proof.Machine.execTickBoundary x s
  | .msixSignal func vec => Sys2Proof.Machine.execMsixSignal func vec s
  | .bufferDrain n => Sys2Proof.Machine.execBufferDrain n s
  | .upstreamArbitration waiting => Sys2Proof.Machine.execUpstreamArbitration waiting s
  | .monitorDue x => Sys2Proof.Machine.execMonitorDue x s
  | .soakEnd x => Sys2Proof.Machine.execSoakEnd x s
  | .missingEdge n pos => Sys2Proof.Machine.execMissingEdge n pos s
  | .todSentence x => Sys2Proof.Machine.execTodSentence x s
  | .irigBFrameReceived x => Sys2Proof.Machine.execIrigBFrameReceived x s
  | .channelLock c => Sys2Proof.Machine.execChannelLock c s
  | .channelUnlock c => Sys2Proof.Machine.execChannelUnlock c s
  | .speculationLimit c => Sys2Proof.Machine.execSpeculationLimit c s
  | .learnEnd e m => Sys2Proof.Machine.execLearnEnd e m s
  | .tamperRejoin e m => Sys2Proof.Machine.execTamperRejoin e m s
  | .allanWeightUpdate e => Sys2Proof.Machine.execAllanWeightUpdate e s
  | .hearthReanchor e => Sys2Proof.Machine.execHearthReanchor e s
  | .asymWindowEnd e => Sys2Proof.Machine.execAsymWindowEnd e s
  | .hearthIntervalEnd => Sys2Proof.Machine.execHearthIntervalEnd s
  | .temperatureReading die therm => Sys2Proof.Machine.execTemperatureReading die therm s
  | .leapSecond => Sys2Proof.Machine.execLeapSecond s
  | .bandSearchMeasurement n hz => Sys2Proof.Machine.execBandSearchMeasurement n hz s
  | .loomLock n => Sys2Proof.Machine.execLoomLock n s
  | .loomAttemptFail n => Sys2Proof.Machine.execLoomAttemptFail n s
  | .loomLossOfLock n => Sys2Proof.Machine.execLoomLossOfLock n s
  | .bandHop n fine after => Sys2Proof.Machine.execBandHop n fine after s
  | .glideStep n => Sys2Proof.Machine.execGlideStep n s
  | .combSlewEnd n => Sys2Proof.Machine.execCombSlewEnd n s
  | .bridgeReady g => Sys2Proof.Machine.execBridgeReady g s
  | .outputFirstEdge o after => Sys2Proof.Machine.execOutputFirstEdge o after s
  | .syncInEdge after => Sys2Proof.Machine.execSyncInEdge after s
  | .syncGroupResetDone g => Sys2Proof.Machine.execSyncGroupResetDone g s
  | .ppsEdge => Sys2Proof.Machine.execPpsEdge s
  | .timecodeFrame => Sys2Proof.Machine.execTimecodeFrame s
  | .lensEdge n x pos => Sys2Proof.Machine.execLensEdge n x pos s
  | .burstWindowEnd u pos => Sys2Proof.Machine.execBurstWindowEnd u pos s
  | .tallyWindowClose m => Sys2Proof.Machine.execTallyWindowClose m s
  | .sentinelWindowClose => Sys2Proof.Machine.execSentinelWindowClose s
  | .sentinelLost => Sys2Proof.Machine.execSentinelLost s
  | .portLinkChange p up align => Sys2Proof.Machine.execPortLinkChange p up align s
  | .sync m => Sys2Proof.Machine.execSync m s
  | .followUp m => Sys2Proof.Machine.execFollowUp m s
  | .delayReq m => Sys2Proof.Machine.execDelayReq m s
  | .delayResp m => Sys2Proof.Machine.execDelayResp m s
  | .pdelayReq m => Sys2Proof.Machine.execPdelayReq m s
  | .pdelayResp m => Sys2Proof.Machine.execPdelayResp m s
  | .pdelayRespFollowUp m => Sys2Proof.Machine.execPdelayRespFollowUp m s
  | .announce m a => Sys2Proof.Machine.execAnnounce m a s
  | .requestUnicastTransmission m t => Sys2Proof.Machine.execRequestUnicastTransmission m t s
  | .grantUnicastTransmission m t => Sys2Proof.Machine.execGrantUnicastTransmission m t s
  | .cancelUnicastTransmission m t => Sys2Proof.Machine.execCancelUnicastTransmission m t s
  | .acknowledgeCancelUnicastTransmission m => Sys2Proof.Machine.execAcknowledgeCancelUnicastTransmission m s
  | .managementMessage m => Sys2Proof.Machine.execManagementMessage m s
  | .nonPtpFrame f => Sys2Proof.Machine.execNonPtpFrame f s
  | .esmcPdu m => Sys2Proof.Machine.execEsmcPdu m s
  | .esmcTimeout p => Sys2Proof.Machine.execEsmcTimeout p s
  | .esmcInformationPdu p => Sys2Proof.Machine.execEsmcInformationPdu p s
  | .messageDue m pos => Sys2Proof.Machine.execMessageDue m pos s
  | .messageSkip m => Sys2Proof.Machine.execMessageSkip m s
  | .sessionEntryFetch port slot key late => Sys2Proof.Machine.execSessionEntryFetch port slot key late s
  | .grantExpiry slot t => Sys2Proof.Machine.execGrantExpiry slot t s
  | .grantRenewal slot t => Sys2Proof.Machine.execGrantRenewal slot t s
  | .requestRetry slot t => Sys2Proof.Machine.execRequestRetry slot t s
  | .announceTimeout k => Sys2Proof.Machine.execAnnounceTimeout k s
  | .syncTimeout k => Sys2Proof.Machine.execSyncTimeout k s
  | .quarantineEnd k => Sys2Proof.Machine.execQuarantineEnd k s
  | .hostFrameSent ring => Sys2Proof.Machine.execHostFrameSent ring s
  | .linkFrameReceived m => Sys2Proof.Machine.execLinkFrameReceived m s
  | .timeFrameReceived m => Sys2Proof.Machine.execTimeFrameReceived m s
  | .polsisLinkUp p => Sys2Proof.Machine.execPolsisLinkUp p s
  | .polsisLinkDown p => Sys2Proof.Machine.execPolsisLinkDown p s
  | .laneSwap p => Sys2Proof.Machine.execLaneSwap p s
  | .asymmetryUpdate p => Sys2Proof.Machine.execAsymmetryUpdate p s
  | .calibrationEnd p => Sys2Proof.Machine.execCalibrationEnd p s
  | .frameLoss p => Sys2Proof.Machine.execFrameLoss p s
  | .originRelease p => Sys2Proof.Machine.execOriginRelease p s
  | .originEntryFree o => Sys2Proof.Machine.execOriginEntryFree o s
  | .keySample high => Sys2Proof.Machine.execKeySample high s
  | .keySenseChange high => Sys2Proof.Machine.execKeySenseChange high s
  | .takeover => Sys2Proof.Machine.execTakeover s
  | .holdoffExpiry => Sys2Proof.Machine.execHoldoffExpiry s
  | .overrideEnd => Sys2Proof.Machine.execOverrideEnd s
  | .snapshotCommit => Sys2Proof.Machine.execSnapshotCommit s
  | .hearthSnapshotCommit => Sys2Proof.Machine.execHearthSnapshotCommit s
  | .mirrorLinkLost => Sys2Proof.Machine.execMirrorLinkLost s
  | .tamperEdge pin rising t => Sys2Proof.Machine.execTamperEdge pin rising t s
  | .pageStoreStart => Sys2Proof.Machine.execPageStoreStart s
  | .pageStoreComplete ok => Sys2Proof.Machine.execPageStoreComplete ok s
  | .wearCounterWrite c worn => Sys2Proof.Machine.execWearCounterWrite c worn s
  | .faultOccurrence srcs ended bad => Sys2Proof.Machine.execFaultOccurrence srcs ended bad s
  | .reactionEnd => Sys2Proof.Machine.execReactionEnd s
  | .suppressionEnd n => Sys2Proof.Machine.execSuppressionEnd n s
  | .reeveWatchdog => Sys2Proof.Machine.execReeveWatchdog s
  | .safeEntry => Sys2Proof.Machine.execSafeEntry s
  | .powerFailWarning pin ns => Sys2Proof.Machine.execPowerFailWarning pin ns s
  | .powerFailCleared => Sys2Proof.Machine.execPowerFailCleared s
  | .railOutOfRange r => Sys2Proof.Machine.execRailOutOfRange r s
  | .coreFailure vbak => Sys2Proof.Machine.execCoreFailure vbak s
  | .emberEntry => Sys2Proof.Machine.execEmberEntry s
  | .emberSecond => Sys2Proof.Machine.execEmberSecond s
  | .vbakLoss => Sys2Proof.Machine.execVbakLoss s
  | .coreRailsInRange ok => Sys2Proof.Machine.execCoreRailsInRange ok s
  | .porRelease boot prio => Sys2Proof.Machine.execPorRelease boot prio s
  | .rstN low => Sys2Proof.Machine.execRstN low s
  | .perstN => Sys2Proof.Machine.execPerstN s
  | .functionLevelReset f => Sys2Proof.Machine.execFunctionLevelReset f s
  | .romComplete osc => Sys2Proof.Machine.execRomComplete osc s
  | .granaryRecovery => Sys2Proof.Machine.execGranaryRecovery s
  | .firmwareLoad flash => Sys2Proof.Machine.execFirmwareLoad flash s
  | .calibrationComplete crc => Sys2Proof.Machine.execCalibrationComplete crc s
  | .registerImageApply => Sys2Proof.Machine.execRegisterImageApply s
  | .autoModeEntry => Sys2Proof.Machine.execAutoModeEntry s
  | .doorbellWrite f page off size v => Sys2Proof.Machine.execDoorbellWrite f page off size v s
  | .descriptorFetch f cls ring bytes ind => Sys2Proof.Machine.execDescriptorFetch f cls ring bytes ind s
  | .nop d => Sys2Proof.Machine.execNop d s
  | .regWrite d => Sys2Proof.Machine.execRegWrite d s
  | .ltcStep d => Sys2Proof.Machine.execLtcStep d s
  | .modeSet d => Sys2Proof.Machine.execModeSet d s
  | .refForce d => Sys2Proof.Machine.execRefForce d s
  | .prioTable d => Sys2Proof.Machine.execPrioTable d s
  | .refOverride d => Sys2Proof.Machine.execRefOverride d s
  | .ensembleSet d => Sys2Proof.Machine.execEnsembleSet d s
  | .tamperClear d => Sys2Proof.Machine.execTamperClear d s
  | .chanState d => Sys2Proof.Machine.execChanState d s
  | .chanPhase d => Sys2Proof.Machine.execChanPhase d s
  | .chanLoop d => Sys2Proof.Machine.execChanLoop d s
  | .hearthCtl d => Sys2Proof.Machine.execHearthCtl d s
  | .loomTune d => Sys2Proof.Machine.execLoomTune d s
  | .loomRelock d => Sys2Proof.Machine.execLoomRelock d s
  | .outCtl d => Sys2Proof.Machine.execOutCtl d s
  | .syncGroup d => Sys2Proof.Machine.execSyncGroup d s
  | .tcdCtl d => Sys2Proof.Machine.execTcdCtl d s
  | .lensArm d => Sys2Proof.Machine.execLensArm d s
  | .capRingCtl d => Sys2Proof.Machine.execCapRingCtl d s
  | .tmCtl d => Sys2Proof.Machine.execTmCtl d s
  | .sentinelCtl d => Sys2Proof.Machine.execSentinelCtl d s
  | .ptpInst d => Sys2Proof.Machine.execPtpInst d s
  | .sessAdd d => Sys2Proof.Machine.execSessAdd d s
  | .sessDel d => Sys2Proof.Machine.execSessDel d s
  | .acceptStep d => Sys2Proof.Machine.execAcceptStep d s
  | .asymSet d => Sys2Proof.Machine.execAsymSet d s
  | .plkCtl d => Sys2Proof.Machine.execPlkCtl d s
  | .keyCtl d => Sys2Proof.Machine.execKeyCtl d s
  | .grnStore d => Sys2Proof.Machine.execGrnStore d s
  | .grnPfMark d => Sys2Proof.Machine.execGrnPfMark d s
  | .wchClear d => Sys2Proof.Machine.execWchClear d s
  | .pktTx d => Sys2Proof.Machine.execPktTx d s
  | .pktRxbuf d => Sys2Proof.Machine.execPktRxbuf d s
  | .registerWrite a => Sys2Proof.Machine.execRegisterWrite a s
  | .ltcCapture a => Sys2Proof.Machine.execLtcCapture a s
  | .ltcStepRequest a => Sys2Proof.Machine.execLtcStepRequest a s
  | .utcoffWrite a => Sys2Proof.Machine.execUtcoffWrite a s
  | .violationClear a => Sys2Proof.Machine.execViolationClear a s
  | .ringEnable a => Sys2Proof.Machine.execRingEnable a s
  | .ringDisable a => Sys2Proof.Machine.execRingDisable a s
  | .refEnable a => Sys2Proof.Machine.execRefEnable a s
  | .refDisable a => Sys2Proof.Machine.execRefDisable a s
  | .prelockLatch a => Sys2Proof.Machine.execPrelockLatch a s
  | .ensembleEnable a => Sys2Proof.Machine.execEnsembleEnable a s
  | .ensembleDisable a => Sys2Proof.Machine.execEnsembleDisable a s
  | .ensembleLatch a => Sys2Proof.Machine.execEnsembleLatch a s
  | .channelEnable a => Sys2Proof.Machine.execChannelEnable a s
  | .channelDisable a => Sys2Proof.Machine.execChannelDisable a s
  | .freeRunWordLoad a => Sys2Proof.Machine.execFreeRunWordLoad a s
  | .millerLatch a => Sys2Proof.Machine.execMillerLatch a s
  | .hearthLatch a => Sys2Proof.Machine.execHearthLatch a s
  | .loomEnable a => Sys2Proof.Machine.execLoomEnable a s
  | .loomDisable a => Sys2Proof.Machine.execLoomDisable a s
  | .loomFcLoad a => Sys2Proof.Machine.execLoomFcLoad a s
  | .bandTableLatch a => Sys2Proof.Machine.execBandTableLatch a s
  | .outputEnable a => Sys2Proof.Machine.execOutputEnable a s
  | .outputDisable a => Sys2Proof.Machine.execOutputDisable a s
  | .burstArm a => Sys2Proof.Machine.execBurstArm a s
  | .burstDisarm a => Sys2Proof.Machine.execBurstDisarm a s
  | .keyOverride a => Sys2Proof.Machine.execKeyOverride a s
  | .tunnelDataWrite a => Sys2Proof.Machine.execTunnelDataWrite a s
  | .tunnelSend a => Sys2Proof.Machine.execTunnelSend a s
  | .tunnelRxPop a => Sys2Proof.Machine.execTunnelRxPop a s
  | .spiBusTake a => Sys2Proof.Machine.execSpiBusTake a s
  | .spiChipSelect a => Sys2Proof.Machine.execSpiChipSelect a s
  | .spiTx a => Sys2Proof.Machine.execSpiTx a s
  | .spiByteShifted v => Sys2Proof.Machine.execSpiByteShifted v s
  | .spiRxPop a => Sys2Proof.Machine.execSpiRxPop a s
  | .grnUnlock a => Sys2Proof.Machine.execGrnUnlock a s
  | .grnLock a => Sys2Proof.Machine.execGrnLock a s
  | .grnSetPassword a => Sys2Proof.Machine.execGrnSetPassword a s
  | .wearCounterIncrement a => Sys2Proof.Machine.execWearCounterIncrement a s
  | .wearCounterSelect a => Sys2Proof.Machine.execWearCounterSelect a s
  | .granaryWrite off bs => Sys2Proof.Machine.execGranaryWrite off bs s
  | .safeExitRequest a => Sys2Proof.Machine.execSafeExitRequest a s
  | .softwareReset a => Sys2Proof.Machine.execSoftwareReset a s
  | .hostFirmwareLoad a => Sys2Proof.Machine.execHostFirmwareLoad a s
  | .granaryRead off n => Sys2Proof.Machine.execGranaryRead off n s
  | .crossingRead a => Sys2Proof.Machine.execCrossingRead a s
  | .fineDelayMoveEnd o => Sys2Proof.Machine.execFineDelayMoveEnd o s
  | .receiveClockLockChange p lock => Sys2Proof.Machine.execReceiveClockLockChange p lock s
  | .railReturnToRange r => Sys2Proof.Machine.execRailReturnToRange r s
  | .vfEnableChange n => Sys2Proof.Machine.execVfEnableChange n s

end Sys2Proof.Machine
end

