-- ==== Sys2Proof/Safety.lean ====
section
/-! DEFINITION. What a well-formed state and a safe run are, in the terms the statements use. -/

namespace Sys2Proof.Machine

/-- The four sparse stores stand in canonical form: the register file, the host memory the part has written, the Granary
SRAM and the shadow copies list rising addresses, and none at the value an unlisted one reads as. -/
def State.wf (s : State) : Bool :=
  memWf resetWord s.regs && memWf (fun _ => none) s.hostMem && memWf granDflt s.gran.sram && memWf granDflt s.gran.shadow

/-- A command that BAR4 cannot answer: it reaches past the 512 KiB of R576. -/
def outside : Instr → Bool
  | .granaryWrite off bs => Decidable.decide (granSize < off + bs.length)
  | .granaryRead off n => Decidable.decide (granSize < off + n)
  | _ => false

/-- A safe run: `n` steps, none of which faults or is refused. -/
def safeRun (n : Nat) (s : State) : Prop := ∃ t, Sys2Proof.core.run n s = .next t

/-! ## Accesses -/

/-- The word `old` after a write of `data` under `mask`, each bit by its mask bit (R151). -/
def merged (old mask data : Nat) : Nat := (old - (old &&& mask)) ||| (data &&& mask)

/-- The access is answered and presents `mask` and `data` to register `k`: one write within one word (R150, R162). -/
structure Presents (s : State) (a : Access) (k mask data : Nat) : Prop where
  answered : s.answers a.who = true
  short : 0 < a.len ∧ a.len ≤ 4
  within : State.crossing a = false
  lanes : a.be % 2 ^ a.len ≠ 0
  place : decodeOff (if a.who.rve then 0 else a.who.func) (a.off / 4 * 4) = .at k
  word : State.personality (bitsOf a.off 12 2) (a.val % 2 ^ (8 * a.len) * 2 ^ (8 * (a.off % 4)))
    (State.laneMask (a.be % 2 ^ a.len * 2 ^ (a.off % 4))) = (mask, data)

/-- The access is answered and reads register `k`: one aligned 32-bit read. -/
structure Reads (s : State) (a : Access) (k : Nat) : Prop where
  answered : s.answers a.who = true
  word : a.len = 4 ∧ a.off % 4 = 0
  place : decodeOff (if a.who.rve then 0 else a.who.func) (a.off / 4 * 4) = .at k

/-- Nothing but the register file, and what the bus showed last, differs. -/
def State.regsOnly (s t : State) : Prop := { t with regs := s.regs, bus := s.bus } = s

/-- The registers outside `ks` read as before. -/
def State.others (s t : State) (ks : List Nat) : Prop := ∀ k, k ∉ ks → t.reg k = s.reg k

/-- A write that asks for one new value of field `f` of register `b + f.idx`, and for no other change of that register. -/
def writesField (s : State) (a : Access) (b : Nat) (f : Fld) (v : Nat) : Prop :=
  ∃ m d, Presents s a (b + f.idx) m d ∧ m ≠ 0 ∧
    merged (s.reg (b + f.idx)).toNat m d = putBits (s.reg (b + f.idx)).toNat f.lo f.width v

/-- `c` completes with field `f` of the block at `b` at `v`, every other bit of its register and every other register as
before, and nothing else changed. -/
def setsField (s : State) (c : Instr) (b : Nat) (f : Fld) (v : Nat) : Prop :=
  ∃ t, exec c s = .next t ∧ (t.reg (b + f.idx)).toNat = putBits (s.reg (b + f.idx)).toNat f.lo f.width v ∧
    s.others t [b + f.idx] ∧ s.regsOnly t

/-! ## Ring commands -/

/-- A descriptor with the class and opcode of a row; a ring number has two bits (R105, R119). -/
def rowDesc (d : Desc) (cls opc : Nat) : Desc := { d with cls := cls, opc := opc, ring := d.ring % 4 }

/-- The descriptor of a row of the opcode list (R124). -/
def commandRow : Instr → Option Desc
  | .nop d => some (rowDesc d 0 0x00)
  | .regWrite d => some (rowDesc d 0 0x01)
  | .ltcStep d => some (rowDesc d 0 0x02)
  | .modeSet d => some (rowDesc d 0 0x03)
  | .refForce d => some (rowDesc d 0 0x08)
  | .prioTable d => some (rowDesc d 0 0x09)
  | .refOverride d => some (rowDesc d 0 0x0A)
  | .ensembleSet d => some (rowDesc d 0 0x0B)
  | .tamperClear d => some (rowDesc d 0 0x0C)
  | .chanState d => some (rowDesc d 0 0x10)
  | .chanPhase d => some (rowDesc d 0 0x11)
  | .chanLoop d => some (rowDesc d 0 0x12)
  | .hearthCtl d => some (rowDesc d 0 0x14)
  | .loomTune d => some (rowDesc d 0 0x18)
  | .loomRelock d => some (rowDesc d 0 0x19)
  | .outCtl d => some (rowDesc d 0 0x20)
  | .syncGroup d => some (rowDesc d 0 0x21)
  | .tcdCtl d => some (rowDesc d 0 0x22)
  | .lensArm d => some (rowDesc d 0 0x28)
  | .capRingCtl d => some (rowDesc d 0 0x29)
  | .tmCtl d => some (rowDesc d 0 0x30)
  | .sentinelCtl d => some (rowDesc d 0 0x31)
  | .ptpInst d => some (rowDesc d 0 0x38)
  | .sessAdd d => some (rowDesc d 0 0x39)
  | .sessDel d => some (rowDesc d 0 0x3A)
  | .acceptStep d => some (rowDesc d 0 0x3B)
  | .asymSet d => some (rowDesc d 0 0x3C)
  | .plkCtl d => some (rowDesc d 0 0x40)
  | .keyCtl d => some (rowDesc d 0 0x48)
  | .grnStore d => some (rowDesc d 0 0x50)
  | .grnPfMark d => some (rowDesc d 0 0x51)
  | .wchClear d => some (rowDesc d 0 0x58)
  | .pktTx d => some (rowDesc d 1 0x60)
  | .pktRxbuf d => some (rowDesc d 2 0x61)
  | _ => none

/-- The part takes a descriptor: its function's rings run, nothing holds the ring, its completion has a slot
(R52, R98, R110, R112, R117), and its apply tick is not beyond the horizon (R53). -/
def State.takesFrom (s : State) (d : Desc) : Bool := s.ringFree d.func d.cls d.ring && !s.beyond d

/-- A descriptor that the part takes: its read is charged, and a completion slot is reserved (R110, R137). -/
def State.taken (s : State) (d : Desc) : State :=
  (s.charge d.func (State.readClass d.cls d.ring).1 (State.readClass d.cls d.ring).2 32).reserve d

/-- A command that is taken, passes the checks of R120 and whose apply tick is not past the running tick. -/
def Applies (s : State) (c : Instr) : Prop :=
  match commandRow c with
  | some d => d.cls = 0 ∧ s.takesFrom d = true ∧ d.apply ≤ s.tn ∧ (s.taken d).checkDesc d = none
  | none => False

/-- The state a command meets: the part has taken its descriptor, and Miller's work of the tick is taken back where the
command bears on it (log entry 23). -/
def State.met (s : State) (d : Desc) : State := if State.apartFromMiller d.opc then s.taken d else (s.taken d).milUndo

/-- What follows a command's effect: its completion at tick `tn`, and Miller's work of the tick where it was taken back. -/
def State.ends (u : State) (d : Desc) (st : Status) (tn : Nat) : State :=
  let t := (u.afterCmd d).finish d (State.lateOr d tn st) tn
  if State.apartFromMiller d.opc then t else t.millerWork

/-- Command `c` completes with status `st` (LATE for OK past its apply tick), and its effect takes the state it meets to
one that `P` relates to it. -/
def completes (s : State) (c : Instr) (st : Status) (P : State → State → Prop) : Prop :=
  match commandRow c with
  | some d => ∃ u, exec c s = .next (u.ends d st s.tn) ∧ P (s.met d) u
  | none => False

/-- The software-written fields of register `k` hold their parts of the word `w`. -/
def State.holdsWord (s : State) (k w : Nat) : Bool :=
  match RegMap.lookup k with
  | none => true
  | some (_, fs) => fs.all (fun f => match f.acc with
      | .rw | .rwd | .pfo => bitsOf (s.reg k).toNat f.lo f.width == bitsOf w f.lo f.width
      | _ => true)

/-! ## Time -/

/-- The LTC less the steps it has taken, in 2⁻³² ns: it moves with the oscillator alone (R68, R73). -/
def Ltc.steady (l : Ltc) : Int := ((l.sec * 1000000000 + l.ns) * 2 ^ 32 + l.frac : Nat) - (l.stepped : Int)

end Sys2Proof.Machine
end

