-- ==== Sys2Proof/Certificates/Slice0/Obligations.lean ====
section
/-! DEFINITION. The statements about the part: what its commands do, what they leave alone, and what holds of every
step. -/

open Sys2Proof Sys2Proof.Machine

/-! ## The machine as a whole -/

/-- The front command runs on the state with the queue's rest (the block's reading of a step). -/
def Obligations.StepRunsTheFrontCommand : Prop :=
  ∀ (c : Instr) (r : List Instr) (s : State), step { s with pending := c :: r } = exec c { s with pending := r }

/-- On an empty queue the part idles: the model's choice, log entry 1. -/
def Obligations.StepIdlesOnAnEmptyQueue : Prop := ∀ s : State, s.pending = [] → step s = .next s

/-- Every command completes, but for a BAR4 access past the last byte of R576, which faults with the address of the first byte
that is not there (log entry 2). -/
def Obligations.EveryCommandCompletes : Prop :=
  ∀ (c : Instr) (s : State),
    (outside c = false → ∃ t, exec c s = .next t) ∧
    (outside c = true → ∃ a, exec c s = .fault (.outsideBar4 a) ∧ 524288 ≤ a)

/-- No command changes the variant or the queue. -/
def Obligations.CommandsKeepVariantAndQueue : Prop :=
  ∀ (c : Instr) (s t : State), exec c s = .next t → t.variant = s.variant ∧ t.pending = s.pending

/-- Every step keeps the canonical form of the register file, of host memory and of the Granary's two stores. -/
def Obligations.StepKeepsCanonicalForm : Prop :=
  ∀ s t : State, s.wf = true → step s = .next t → t.wf = true

/-- A queue of commands that stay inside BAR4 runs to its end from any state, one command a step; the variant stays and the
stores keep their form. -/
def Obligations.QueuesRunSafely : Prop :=
  ∀ (n : Nat) (s : State), s.wf = true → (∀ c ∈ s.pending, outside c = false) →
    ∃ t, Sys2Proof.core.run n s = .next t ∧ t.pending = s.pending.drop n ∧ t.variant = s.variant ∧ t.wf = true

/-- R12, R71, R666: the state after reset is in canonical form with an empty queue; every register reads its reset value; the
LTC stands at 0 with COLD set and SET clear. That the state is the cold start's, in M3 at the end of POR, is the model's
choice (log entries 3 and 20). -/
def Obligations.ResetIsWellFormed : Prop :=
  State.reset.wf = true ∧ State.reset.pending = [] ∧ (∀ k, State.reset.reg k = (resetWord k).getD 0) ∧
  State.reset.ltc.sec = 0 ∧ State.reset.ltc.ns = 0 ∧ State.reset.ltc.frac = 0 ∧
  State.reset.on ltcR LTC_STATUS_COLD = true ∧ State.reset.on ltcR LTC_STATUS_SET = false ∧ State.reset.mode = 3 ∧
  State.reset.gran.sram = [] ∧ State.reset.hostMem = []

/-! ## Register accesses -/

/-- R150 on the scratch register of R667: a whole-word write of `v` by any answered requester. Personality 0 stores `v`, 1 sets
its bits, 2 clears them, 3 writes bits 15–0 under the mask in bits 31–16 and leaves the upper half. -/
def Obligations.PersonalitiesWriteScratch : Prop :=
  ∀ (s : State) (who : Who) (p v pos : Nat), s.answers who = true → p < 4 → v < 2 ^ 32 →
    ∃ t, exec (.registerWrite ⟨who, 4 + 4096 * p, 4, 15, v, pos⟩) s = .next t ∧
      (let old := (s.reg (glbR + GLB_SCRATCH_DATA.idx)).toNat
       (t.reg (glbR + GLB_SCRATCH_DATA.idx)).toNat =
        if p = 0 then v
        else if p = 1 then old ||| v
        else if p = 2 then old - (old &&& v)
        else merged old (v / 2 ^ 16) (v % 2 ^ 16)) ∧
      s.others t [glbR + GLB_SCRATCH_DATA.idx] ∧ s.regsOnly t ∧ t.bus.abort = false

/-- R151, R162: whatever lanes an access writes, each bit of the scratch register follows its mask bit, and nothing else
changes. -/
def Obligations.WritesMergeByMask : Prop :=
  ∀ (s : State) (a : Access) (m d : Nat), Presents s a (glbR + GLB_SCRATCH_DATA.idx) m d →
    (∀ i, i < 32 → a.be % 2 ^ a.len * 2 ^ (a.off % 4) / 2 ^ (i / 8) % 2 = 0 → m.testBit i = false) ∧
    ∃ t, exec (.registerWrite a) s = .next t ∧
      (t.reg (glbR + GLB_SCRATCH_DATA.idx)).toNat = merged (s.reg (glbR + GLB_SCRATCH_DATA.idx)).toNat m d ∧
      s.others t [glbR + GLB_SCRATCH_DATA.idx] ∧ s.regsOnly t

/-- R163: an aligned 64-bit write is two 32-bit writes, low word first, each half on its own; the second is answered where the
first leaves the requester answered. -/
def Obligations.WideWritesAreTwo : Prop :=
  ∀ (s u : State) (a : Access), a.len = 8 → a.off % 8 = 0 → s.answers a.who = true →
    exec (.registerWrite { a with len := 4, be := a.be % 16, val := a.val % 2 ^ 32 }) s = .next u →
    exec (.registerWrite a) s =
      exec (.registerWrite { a with off := a.off + 4, len := 4, be := a.be / 16 % 16, val := a.val / 2 ^ 32 % 2 ^ 32 }) u

/-- R164: an access that crosses a 4-byte boundary, read or write, has no effect but its record: Completer Abort, cause 4 and
the offset in `GLB_VIOL`, the count of the requester's function, and WF07 counted. R98, R634: before M3, and from a function
that is not enabled, a write and a read of BAR0 do nothing. R143, R159: a write to a window that does not exist is flagged
with cause 3 and changes no register outside the GLB and WCH windows. -/
def Obligations.BadAccessesHaveNoOtherEffect : Prop :=
  (∀ (s : State) (a : Access), s.answers a.who = true → 0 < a.len → 4 < a.off % 4 + a.len → ¬(a.len = 8 ∧ a.off % 8 = 0) →
     ∃ t, exec (.registerWrite a) s = .next t ∧ exec (.crossingRead a) s = .next t ∧
       t.bus.abort = true ∧ t.bus.rdata = [] ∧
       t.get glbR GLB_VIOL_ADDR_OFFSET = a.off % 2 ^ 22 ∧ t.get glbR GLB_VIOL_INFO_CAUSE = 4 ∧
       t.get glbR GLB_VIOL_INFO_COUNT = min (s.get glbR GLB_VIOL_INFO_COUNT + 1) 65535 ∧
       t.on glbR GLB_VIOL_INFO_RVE = a.who.rve ∧
       (a.who.rve = false → t.get (fglbR a.who.func) GLB_ACC_ERR_CAUSE = 4 ∧
         t.get (fglbR a.who.func) GLB_ACC_ERR_COUNT = min (s.get (fglbR a.who.func) GLB_ACC_ERR_COUNT + 1) 65535) ∧
       (s.suppressed 7 = false → assocD 0 t.wd.cnt 7 = min 65535 (assocD 0 s.wd.cnt 7 + 1)) ∧
       (∀ k, 3 * 1024 ≤ k → k < 2 ^ 20 → t.reg k = s.reg k) ∧
       { t with regs := s.regs, bus := s.bus, host := s.host, wd := s.wd } = s) ∧
  (∀ (s : State) (a : Access), s.answers a.who = false →
     exec (.registerWrite a) s = .next s ∧ exec (.crossingRead a) s = .next s) ∧
  (∀ (s : State) (a : Access), s.answers a.who = true → 0 < a.len → a.off % 4 + a.len ≤ 4 → a.be % 2 ^ a.len ≠ 0 →
     decodeOff (if a.who.rve then 0 else a.who.func) (a.off / 4 * 4) = .unmapped →
     ∃ t, exec (.registerWrite a) s = .next t ∧
       t.get glbR GLB_VIOL_INFO_CAUSE = 3 ∧ t.get glbR GLB_VIOL_ADDR_OFFSET = a.off % 2 ^ 22 ∧
       t.get glbR GLB_VIOL_INFO_COUNT = min (s.get glbR GLB_VIOL_INFO_COUNT + 1) 65535 ∧
       (s.suppressed 8 = false → assocD 0 t.wd.cnt 8 = min 65535 (assocD 0 s.wd.cnt 8 + 1)) ∧
       ∀ k, 3 * 1024 ≤ k → k < 2 ^ 20 → t.reg k = s.reg k)

/-- R155, R158, on `MIL_CFG`: while the channel is enabled, outside M6, a write that asks for another CASC or CSRC leaves both
as they were, is flagged with cause 0, and its other fields take effect: it may clear EN in the same write. -/
def Obligations.LockedFieldsKeepTheirValue : Prop :=
  ∀ (s : State) (a : Access) (c m d : Nat),
    let k := milR c + MIL_CFG_EN.idx
    let w := merged (s.reg k).toNat m d
    c < s.nMil → Presents s a k m d → s.cfgOpen = false → s.on (milR c) MIL_CFG_EN = true →
    (bitsOf w MIL_CFG_CASC.lo MIL_CFG_CASC.width ≠ s.get (milR c) MIL_CFG_CASC ∨
      bitsOf w MIL_CFG_CSRC.lo MIL_CFG_CSRC.width ≠ s.get (milR c) MIL_CFG_CSRC) →
    ∃ t, exec (.registerWrite a) s = .next t ∧
      t.get (milR c) MIL_CFG_CASC = s.get (milR c) MIL_CFG_CASC ∧ t.get (milR c) MIL_CFG_CSRC = s.get (milR c) MIL_CFG_CSRC ∧
      t.get (milR c) MIL_CFG_EN = bitsOf w MIL_CFG_EN.lo MIL_CFG_EN.width ∧
      t.get (milR c) MIL_CFG_STEPF = bitsOf w MIL_CFG_STEPF.lo MIL_CFG_STEPF.width ∧
      t.get glbR GLB_VIOL_INFO_CAUSE = 0 ∧ t.get glbR GLB_VIOL_ADDR_OFFSET = a.off % 2 ^ 22 ∧
      t.get glbR GLB_VIOL_INFO_COUNT = min (s.get glbR GLB_VIOL_INFO_COUNT + 1) 65535

/-- R87, R88: a strobe of `LTC_CAPTURE.GO`, `pos` units of 2⁻³² ns after the last boundary and within the tick, puts the LTC and
the tick number of that instant into the snapshot registers; nothing else changes. R76: a write of `LTC_STEP_CTL.GO` by PF0
or Reeve while no step is pending takes the amount the registers hold as the pending step, sets STEP_PEND and reads back 0.
While one is pending it is refused with cause 2, and the pending step stays. R82: a write of `LTC_UTCOFF` that leaves at
most one leap bit set takes every field. One that would leave both set keeps both leap bits, takes OFFSET, VALID and FOLLOW,
and is flagged with cause 2. -/
def Obligations.TimeCounterCommands : Prop :=
  (∀ (s : State) (a : Access) (m d : Nat), Presents s a (ltcR + LTC_CAPTURE_GO.idx) m d → m % 2 = 1 → d % 2 = 1 →
     ∃ t, exec (.ltcCapture a) s = .next t ∧
       (let u := (s.ltc.sec * 1000000000 + s.ltc.ns) * 2 ^ 32 + s.ltc.frac +
           min a.pos ((31250 - s.ltc.ns % 31250) * 2 ^ 32 - 1)
        let sec := u / secUnits
        let ns := u % secUnits / 2 ^ 32
        let tn := sec * 32000 + ns / 31250
        t.get ltcR LTC_SNAP_NS_NS = ns ∧ t.get ltcR LTC_SNAP_FRAC_FRAC = u % 2 ^ 32 ∧
        t.get ltcR LTC_SNAP_S_LO_S_LO = sec % 2 ^ 32 ∧ t.get ltcR LTC_SNAP_S_HI_S_HI = sec / 2 ^ 32 % 2 ^ 16 ∧
        t.get ltcR LTC_SNAP_TN_LO_TN_LO = tn % 2 ^ 32 ∧ t.get ltcR LTC_SNAP_TN_HI_TN_HI = tn / 2 ^ 32 % 2 ^ 32) ∧
       s.others t [ltcR + LTC_SNAP_NS_NS.idx, ltcR + LTC_SNAP_FRAC_FRAC.idx, ltcR + LTC_SNAP_S_LO_S_LO.idx,
         ltcR + LTC_SNAP_S_HI_S_HI.idx, ltcR + LTC_SNAP_TN_LO_TN_LO.idx, ltcR + LTC_SNAP_TN_HI_TN_HI.idx] ∧
       s.regsOnly t) ∧
  (∀ (s : State) (a : Access) (m d : Nat), Presents s a (ltcR + LTC_STEP_CTL_GO.idx) m d → State.privileged a.who = true →
     m % 2 = 1 → d % 2 = 1 → s.on ltcR LTC_STEP_CTL_GO = false →
     (s.on ltcR LTC_STATUS_STEP_PEND = false →
       ∃ t, exec (.ltcStepRequest a) s = .next t ∧
         t.ltc = { s.ltc with step := some (s.get ltcR LTC_STEP_S_LO_S_LO + 2 ^ 32 * s.get ltcR LTC_STEP_S_HI_S_HI,
           s.get ltcR LTC_STEP_NS_NS) } ∧
         t.on ltcR LTC_STATUS_STEP_PEND = true ∧ t.on ltcR LTC_STEP_CTL_GO = false ∧
         s.others t [ltcR + LTC_STEP_CTL_GO.idx, ltcR + LTC_STATUS_STEP_PEND.idx] ∧
         { t with regs := s.regs, bus := s.bus, ltc := s.ltc } = s) ∧
     (s.on ltcR LTC_STATUS_STEP_PEND = true →
       ∃ t, exec (.ltcStepRequest a) s = .next t ∧ t.ltc = s.ltc ∧ t.on ltcR LTC_STATUS_STEP_PEND = true ∧
         t.on ltcR LTC_STEP_CTL_GO = false ∧ t.get glbR GLB_VIOL_INFO_CAUSE = 2)) ∧
  (∀ (s : State) (a : Access) (m d : Nat),
     let k := ltcR + LTC_UTCOFF_OFFSET.idx
     let w := merged (s.reg k).toNat m d
     Presents s a k m d →
     (s.on ltcR LTC_UTCOFF_LEAP61 && s.on ltcR LTC_UTCOFF_LEAP59) = false →
     let both := bitsOf w LTC_UTCOFF_LEAP61.lo 1 = 1 ∧ bitsOf w LTC_UTCOFF_LEAP59.lo 1 = 1
     ∃ t, exec (.utcoffWrite a) s = .next t ∧
       t.get ltcR LTC_UTCOFF_OFFSET = bitsOf w LTC_UTCOFF_OFFSET.lo 16 ∧
       t.get ltcR LTC_UTCOFF_VALID = bitsOf w LTC_UTCOFF_VALID.lo 1 ∧
       t.get ltcR LTC_UTCOFF_FOLLOW = bitsOf w LTC_UTCOFF_FOLLOW.lo 1 ∧
       t.get ltcR LTC_UTCOFF_LEAP_INS = s.get ltcR LTC_UTCOFF_LEAP_INS ∧
       (¬both → t.get ltcR LTC_UTCOFF_LEAP61 = bitsOf w LTC_UTCOFF_LEAP61.lo 1 ∧
         t.get ltcR LTC_UTCOFF_LEAP59 = bitsOf w LTC_UTCOFF_LEAP59.lo 1 ∧ s.others t [k] ∧ s.regsOnly t) ∧
       (both → t.get ltcR LTC_UTCOFF_LEAP61 = s.get ltcR LTC_UTCOFF_LEAP61 ∧
         t.get ltcR LTC_UTCOFF_LEAP59 = s.get ltcR LTC_UTCOFF_LEAP59 ∧ t.get glbR GLB_VIOL_INFO_CAUSE = 2 ∧ t.ltc = s.ltc))

/-- R160: a write from PF0 or Reeve with mask and data 1 on all 32 bits of `GLB_VIOL_INFO` clears the whole record; any other
write of it by them has no effect. -/
def Obligations.ViolationRecordClears : Prop :=
  ∀ (s : State) (a : Access) (m d : Nat), Presents s a (glbR + GLB_VIOL_INFO_COUNT.idx) m d → State.privileged a.who = true →
    m < 2 ^ 32 → d < 2 ^ 32 →
    ∃ t, exec (.violationClear a) s = .next t ∧ s.regsOnly t ∧
      (m = 2 ^ 32 - 1 ∧ d = 2 ^ 32 - 1 →
        t.reg (glbR + GLB_VIOL_INFO_COUNT.idx) = 0 ∧ t.reg (glbR + GLB_VIOL_ADDR_OFFSET.idx) = 0 ∧
        s.others t [glbR + GLB_VIOL_INFO_COUNT.idx, glbR + GLB_VIOL_ADDR_OFFSET.idx]) ∧
      (¬(m = 2 ^ 32 - 1 ∧ d = 2 ^ 32 - 1) → s.others t [])

/-- R104, R107: a write of a legal LOG2SIZE to a ring that is off turns it on with both indices 0; a write of LOG2SIZE 0 to a
ring that is on turns it off, and until the next boundary its use goes on as it stood. One that is turned on again before
that boundary loses what it had yet to receive; no other ring changes. `b` is the block of any ring; the write asks for no
other change of the register, and the requester reaches the block (R106). -/
def Obligations.RingsTurnOnAndOff : Prop :=
  ∀ (s : State) (a : Access) (b v m d : Nat),
    let k := b + GLB_RING_CFG_LOG2SIZE.idx
    (∃ f j, f < 16 ∧ ((j < 17 ∧ b = fringR f j) ∨ (j < 24 ∧ b = dringR j))) →
    Presents s a k m d → s.ringDenied a.who k = false → (State.privileged a.who = true ∨ bitsOf m GLB_RING_CFG_OWNER.lo 4 = 0) →
    merged (s.reg k).toNat m d = putBits (s.reg k).toNat 0 5 v →
    (s.ringOn b = false → 6 ≤ v → v ≤ ringLogMax k →
      ∃ t, exec (.ringEnable a) s = .next t ∧ t.ringLive b = true ∧ t.ringSize b = 2 ^ v ∧ t.ringIdx b = 0 ∧
        t.ringSt b = { fence := (s.ringSt b).fence, resume := (s.ringSt b).resume, reserved := (t.ringSt b).reserved,
                       dropped := (t.ringSt b).dropped } ∧
        s.others t [k, b + GLB_RING_IDX_IDX.idx, b + GLB_RING_DROP_COUNT.idx] ∧
        { t with regs := s.regs, bus := s.bus, host := { t.host with rings := s.host.rings, evLost := s.host.evLost }
                 lens := { t.lens with buf := s.lens.buf } } = s ∧
        (∀ b', b' ≠ b → t.ringSt b' = s.ringSt b') ∧
        ((s.ringSt b).closing = none →
          (t.ringSt b).reserved = (s.ringSt b).reserved ∧ (t.ringSt b).dropped = (s.ringSt b).dropped ∧
          s.others t [k, b + GLB_RING_IDX_IDX.idx] ∧ t.host.evLost = s.host.evLost ∧ t.lens = s.lens)) ∧
    (s.ringOn b = true → v = 0 →
      ∃ t, exec (.ringDisable a) s = .next t ∧ t.ringOn b = false ∧
        t.ringSt b = { s.ringSt b with closing := some (s.ringRegs b) } ∧ s.others t [k] ∧
        { t with regs := s.regs, bus := s.bus, host := { t.host with rings := s.host.rings } } = s ∧
        ∀ b', b' ≠ b → t.ringSt b' = s.ringSt b')

/-- Enables that come into force at the next boundary (R189, R218, R263, R334, R335): the write sets the bit, and until the
boundary nothing else moves. R217: an ensemble that is off starts in BOOT when its EN bit is written 1: BOOT shows, the
estimate and the anchor are undefined, and nothing but its own registers changes. -/
def Obligations.EnablesAreWritten : Prop :=
  (∀ (s : State) (a : Access) (i : Nat),
     (s.indexPresent i = true → (i < 49 ∨ 56 ≤ i) →
       (writesField s a (priR i) PRS_MON_EN 1 → setsField s (.refEnable a) (priR i) PRS_MON_EN 1) ∧
       (writesField s a (priR i) PRS_MON_EN 0 → setsField s (.refDisable a) (priR i) PRS_MON_EN 0)) ∧
     (i < 8 → writesField s a (ensR i) GLB_ENS_CFG_EN 0 → setsField s (.ensembleDisable a) (ensR i) GLB_ENS_CFG_EN 0) ∧
     (i < s.nMil →
       (writesField s a (milR i) MIL_CFG_EN 1 → setsField s (.channelEnable a) (milR i) MIL_CFG_EN 1) ∧
       (writesField s a (milR i) MIL_CFG_EN 0 → setsField s (.channelDisable a) (milR i) MIL_CFG_EN 0)) ∧
     (i < s.nLom →
       (writesField s a (lomR i) LOM_CFG_EN 1 → setsField s (.loomEnable a) (lomR i) LOM_CFG_EN 1) ∧
       (writesField s a (lomR i) LOM_CFG_EN 0 → setsField s (.loomDisable a) (lomR i) LOM_CFG_EN 0)) ∧
     (i < 2 →
       (writesField s a (bstR i) LNS_BST_CTL_ARM 1 → setsField s (.burstArm a) (bstR i) LNS_BST_CTL_ARM 1) ∧
       (writesField s a (bstR i) LNS_BST_CTL_ARM 0 → setsField s (.burstDisarm a) (bstR i) LNS_BST_CTL_ARM 0))) ∧
  (∀ (s : State) (a : Access) (e : Nat), e < 8 → (s.ensOf e).on = false →
     s.on (ensR e) GLB_ENS_CFG_EN = false → writesField s a (ensR e) GLB_ENS_CFG_EN 1 →
     ∃ t, exec (.ensembleEnable a) s = .next t ∧
       t.on (ensR e) GLB_ENS_CFG_EN = true ∧ t.on (ensR e) GLB_ENS_STATUS_BOOT = true ∧
       t.on (ensR e) GLB_ENS_STATUS_HANCH = false ∧
       (e < s.ens.length → (t.ensOf e).on = true ∧ (t.ensOf e).x = none ∧ (t.ensOf e).fe = 0 ∧ (t.ensOf e).pilot = none ∧
         (t.ensOf e).anchor = none) ∧ (∀ e', e' ≠ e → t.ensOf e' = s.ensOf e') ∧
       s.others t [ensR e + GLB_ENS_CFG_EN.idx, ensR e + GLB_ENS_STATUS_BOOT.idx] ∧
       { t with regs := s.regs, bus := s.bus, ens := s.ens } = s)

/-- R369, R365: an output's EN bit, where its frequency is within its format's limit (R371): the bit is set or cleared, and PEND
shows whether the divider registers differ from what the output uses; nothing else changes. A write that would take the
output past the limit is flagged with cause 2 and leaves EN as it was. -/
def Obligations.OutputEnablesAreWritten : Prop :=
  ∀ (s : State) (a : Access) (o : Nat), o < s.nOut →
    let k := outR o + OUT_CFG_EN.idx
    let ok := s.withinLimit (o / 8) (s.get (outR o) OUT_CFG_SRC) (s.get (outR o) OUT_CFG_FMT) (s.get (outR o) OUT_DIV_DIV)
      (s.on (outR o) OUT_CFG_HALF) = true ∨ 9 ≤ s.get (outR o) OUT_CFG_SRC
    (writesField s a (outR o) OUT_CFG_EN 1 → ok →
      ∃ t, exec (.outputEnable a) s = .next t ∧ (t.reg k).toNat = putBits (s.reg k).toNat 0 1 1 ∧
        s.others t [k, outR o + OUT_STATUS_PEND.idx] ∧ s.regsOnly t) ∧
    (writesField s a (outR o) OUT_CFG_EN 1 → ¬ok → s.on (outR o) OUT_CFG_EN = false →
      ∃ t, exec (.outputEnable a) s = .next t ∧ t.on (outR o) OUT_CFG_EN = false ∧ t.get glbR GLB_VIOL_INFO_CAUSE = 2) ∧
    (writesField s a (outR o) OUT_CFG_EN 0 →
      ∃ t, exec (.outputDisable a) s = .next t ∧ (t.reg k).toNat = putBits (s.reg k).toNat 0 1 0 ∧
        s.others t [k, outR o + OUT_STATUS_PEND.idx] ∧ s.regsOnly t)

/-- Strobes and latch selections that act at the next boundary (R208, R236, R246, R278, R326, R360): the request is noted, and
until the boundary nothing else moves. `m` and `d` are the mask and data the write presents. -/
def Obligations.LatchRequestsAreNoted : Prop :=
  ∀ (s : State) (a : Access) (i m d : Nat),
    (i < s.nMil → Presents s a (prcR i + PRS_PL_IDX_IDX.idx) m d → m % 64 ≠ 0 →
      ∃ t, exec (.prelockLatch a) s = .next t ∧ i ∈ t.prism.plReq ∧
        t.get (prcR i) PRS_PL_IDX_IDX = merged (s.get (prcR i) PRS_PL_IDX_IDX) (m % 64) (d % 64) ∧
        s.others t [prcR i + PRS_PL_IDX_IDX.idx] ∧ { t with regs := s.regs, bus := s.bus, prism := s.prism } = s) ∧
    (i < 8 → Presents s a (ensR i + GLB_ENS_LATCH_SLOT.idx) m d → m % 8 ≠ 0 →
      ∃ t, exec (.ensembleLatch a) s = .next t ∧ t.ens = s.ens.modify i (fun x => { x with latch := true }) ∧
        t.get (ensR i) GLB_ENS_LATCH_SLOT = merged (s.get (ensR i) GLB_ENS_LATCH_SLOT) (m % 8) (d % 8) ∧
        s.others t [ensR i + GLB_ENS_LATCH_SLOT.idx] ∧ { t with regs := s.regs, bus := s.bus, ens := s.ens } = s) ∧
    (i < s.nMil → Presents s a (milR i + MIL_LATCH_GO.idx) m d → m % 2 = 1 → d % 2 = 1 →
      ∃ t, exec (.millerLatch a) s = .next t ∧ t.mil = s.mil.modify i (fun x => { x with latch := true }) ∧
        s.others t [] ∧ { t with regs := s.regs, bus := s.bus, mil := s.mil } = s) ∧
    (i < s.nMil → Presents s a (milR i + MIL_FRW_HI_FRW.idx) m d → m < 2 ^ 32 → m ≠ 0 →
      ∃ t, exec (.freeRunWordLoad a) s = .next t ∧
        (let hi := merged (s.reg (milR i + MIL_FRW_HI_FRW.idx)).toNat m d
         t.mil = s.mil.modify i (fun x => { x with frwNext := some (signed (s.get (milR i) MIL_FRW_LO_FRW + 2 ^ 32 * hi) 64) }) ∧
         (t.reg (milR i + MIL_FRW_HI_FRW.idx)).toNat = hi) ∧
        s.others t [milR i + MIL_FRW_HI_FRW.idx] ∧ { t with regs := s.regs, bus := s.bus, mil := s.mil } = s) ∧
    (Presents s a (glb1R + GLB_HRT_LATCH_GO.idx) m d → m % 2 = 1 → d % 2 = 1 →
      ∃ t, exec (.hearthLatch a) s = .next t ∧ t.hearth = { s.hearth with latch := true } ∧
        s.others t [] ∧ { t with regs := s.regs, bus := s.bus, hearth := s.hearth } = s) ∧
    (i < s.nLom → Presents s a (lomR i + LOM_BIDX_BIDX.idx) m d → m % 512 ≠ 0 →
      ∃ t, exec (.bandTableLatch a) s = .next t ∧ t.loom = s.loom.modify i (fun x => { x with latch := true }) ∧
        t.get (lomR i) LOM_BIDX_BIDX = merged (s.get (lomR i) LOM_BIDX_BIDX) (m % 512) (d % 512) ∧
        s.others t [lomR i + LOM_BIDX_BIDX.idx] ∧ { t with regs := s.regs, bus := s.bus, loom := s.loom } = s)

/-- R329, R330: a write of `LOM_FC_HI` that leaves an FC and a target frequency within their limits takes the pair, for use at
the next boundary. One that does not is flagged with cause 2, and the pair reads back as the FC in effect. -/
def Obligations.FcPairsAreLoaded : Prop :=
  ∀ (s : State) (a : Access) (n m d : Nat), n < s.nLom →
    Presents s a (lomR n + LOM_FC_HI_FC.idx) m d → m % 2 ^ 14 ≠ 0 →
    let hi := merged (s.get (lomR n) LOM_FC_HI_FC) (m % 2 ^ 14) (d % 2 ^ 14)
    let fc := s.get (lomR n) LOM_FC_LO_FC + 2 ^ 32 * hi
    let legal := State.targetOk (s.get (lomR n) LOM_N_N * fc) = true ∧ State.fcOk fc = true
    (legal → ∃ t, exec (.loomFcLoad a) s = .next t ∧
      t.loom = s.loom.modify n (fun x => { x with held := false, fcNext := some fc }) ∧
      t.get (lomR n) LOM_FC_HI_FC = hi ∧ s.others t [lomR n + LOM_FC_HI_FC.idx] ∧
      { t with regs := s.regs, bus := s.bus, loom := s.loom } = s) ∧
    (¬legal → ∃ t, exec (.loomFcLoad a) s = .next t ∧
      t.loom = s.loom.modify n (fun x => { x with held := false }) ∧ t.get glbR GLB_VIOL_INFO_CAUSE = 2 ∧
      t.get (lomR n) LOM_FC_LO_FC = (s.loomSt n).fc % 2 ^ 32 ∧
      t.get (lomR n) LOM_FC_HI_FC = (s.loomSt n).fc / 2 ^ 32 % 2 ^ 14)

/-! ## Time, the host interface and the upstream link -/

/-- No command but the tick boundary moves time on: the count of boundaries stands, and the LTC moves by its steps alone. The
loss of the battery (VBAK_LOSS) leaves a part without power, and is named apart. -/
def Obligations.OnlyBoundariesMoveTime : Prop :=
  ∀ (c : Instr) (s t : State), exec c s = .next t → (∀ x, c ≠ .tickBoundary x) → c ≠ .vbakLoss →
    t.prism.tick = s.prism.tick ∧ t.ltc.steady = s.ltc.steady

/-- R31, R35: a tick boundary brings the LTC, its steps left out, forward by exactly what was left of the tick, and the
boundaries count one. Where the supply has gone (R625) the part is in M0 and its LTC stands at zero; with no failure of the
core supplies it goes on. In M0 there is no boundary. -/
def Obligations.TickBoundariesAdvanceTheLtc : Prop :=
  ∀ (s : State) (x : TickIn),
    let rest : Nat := 31250 * 2 ^ 32 - (s.ltc.ns % 31250 * 2 ^ 32 + s.ltc.frac)
    (s.mode = 0 → exec (.tickBoundary x) s = .next s) ∧
    (s.mode ≠ 0 → ∃ t, exec (.tickBoundary x) s = .next t ∧ t.variant = s.variant ∧ t.pending = s.pending ∧
      ((t.mode = 0 ∧ t.ltc = {}) ∨
       (t.prism.tick = s.prism.tick + 1 ∧ t.ltc.steady = s.ltc.steady + rest))) ∧
    (s.mode ≠ 0 → s.pwr.coreFail = none → ∃ t, exec (.tickBoundary x) s = .next t ∧ t.prism.tick = s.prism.tick + 1 ∧
      t.ltc.steady = s.ltc.steady + rest)

/-- R82, R83, R85, the leap second of the running tick, where TICK_BOUNDARY has not taken it (log entry 61): at the start of a
second an announced insertion sets LEAP_INS at the second that is 23:59:60, and one second later adds 1 to OFFSET and clears
both bits, or, where LEAP61 was cleared meanwhile, clears LEAP_INS alone; an announced deletion takes 1 from OFFSET and
clears its bit. A leap whose second a step has passed over is applied at once, where its bit still stands. Each change of
OFFSET raises EV072, with DATA 1 for a deletion; in any other second no register changes. -/
def Obligations.LeapSecondsMoveTheOffset : Prop :=
  ∀ s : State,
    let d := s.getI ltcR LTC_UTCOFF_OFFSET
    let r := ((s.ltc.sec : Int) - d) % 86400
    let k := ltcR + LTC_UTCOFF_OFFSET.idx
    let starts := s.ltc.leapSeen = false ∧ s.ltc.leapJump = none ∧ s.ltc.landed = false ∧ s.ltc.ns < 31250
    let passed := fun (x : Bool) => s.ltc.leapSeen = false ∧ s.ltc.leapJump = some x
    let seen := { s.ltc with leapJump := none, leapSeen := true }
    let inserted := ∃ t, exec .leapSecond s = .next t ∧ t.getI ltcR LTC_UTCOFF_OFFSET = d + 1 ∧ t.on ltcR LTC_UTCOFF_LEAP61 = false ∧
      t.on ltcR LTC_UTCOFF_LEAP_INS = false ∧ t.get ltcR LTC_UTCOFF_LEAP59 = s.get ltcR LTC_UTCOFF_LEAP59 ∧ t.ltc = seen ∧
      t.host = (s.raise 72 0 0).host ∧ s.others t [k] ∧ { t with regs := s.regs, ltc := s.ltc, host := s.host } = s
    let deleted := ∃ t, exec .leapSecond s = .next t ∧ t.getI ltcR LTC_UTCOFF_OFFSET = d - 1 ∧ t.on ltcR LTC_UTCOFF_LEAP59 = false ∧
      t.on ltcR LTC_UTCOFF_LEAP_INS = false ∧ t.get ltcR LTC_UTCOFF_LEAP61 = s.get ltcR LTC_UTCOFF_LEAP61 ∧ t.ltc = seen ∧
      t.host = (s.raise 72 0 1).host ∧ s.others t [k] ∧ { t with regs := s.regs, ltc := s.ltc, host := s.host } = s
    (s.ltc.leapSeen = true → exec .leapSecond s = .next s) ∧
    (starts → s.on ltcR LTC_UTCOFF_LEAP_INS = false → s.on ltcR LTC_UTCOFF_LEAP61 = true →
      s.on ltcR LTC_UTCOFF_LEAP59 = false → r = 0 →
      ∃ t, exec .leapSecond s = .next t ∧ (t.reg k).toNat = putBits (s.reg k).toNat LTC_UTCOFF_LEAP_INS.lo 1 1 ∧ t.ltc = seen ∧
        s.others t [k] ∧ { t with regs := s.regs, ltc := s.ltc } = s) ∧
    (starts → s.on ltcR LTC_UTCOFF_LEAP_INS = true → s.on ltcR LTC_UTCOFF_LEAP61 = true → d < 32767 → inserted) ∧
    (starts → s.on ltcR LTC_UTCOFF_LEAP_INS = true → s.on ltcR LTC_UTCOFF_LEAP61 = false →
      (s.on ltcR LTC_UTCOFF_LEAP59 = false ∨ r ≠ 86399) →
      ∃ t, exec .leapSecond s = .next t ∧ (t.reg k).toNat = putBits (s.reg k).toNat LTC_UTCOFF_LEAP_INS.lo 1 0 ∧ t.ltc = seen ∧
        s.others t [k] ∧ { t with regs := s.regs, ltc := s.ltc } = s) ∧
    (starts → (s.on ltcR LTC_UTCOFF_LEAP_INS = false ∨ s.on ltcR LTC_UTCOFF_LEAP61 = false) → s.on ltcR LTC_UTCOFF_LEAP59 = true → r = 86399 → -32768 < d → deleted) ∧
    (passed false → s.on ltcR LTC_UTCOFF_LEAP61 = true → d < 32767 → inserted) ∧
    (passed true → s.on ltcR LTC_UTCOFF_LEAP59 = true → -32768 < d → deleted) ∧
    (starts → s.on ltcR LTC_UTCOFF_LEAP_INS = false → (s.on ltcR LTC_UTCOFF_LEAP61 = false ∨ r ≠ 0) →
      (s.on ltcR LTC_UTCOFF_LEAP59 = false ∨ r ≠ 86399) → exec .leapSecond s = .next { s with ltc := seen })

/-- R135, R136: a vector that is due, and whose least number of ticks since its last signal has passed, is signalled: its
message goes to the address of its table entry, or its pending bit is set while it is masked. Before that, nothing. -/
def Obligations.VectorsAreSignalled : Prop :=
  ∀ (s : State) (f v : Nat),
    let gap := max 1 (s.get (fglbR f) GLB_IRQ_MOD_TICKS)
    let early := s.host.sigs.any (fun e => e.1 == f && e.2.1 == v && s.prism.tick < e.2.2 + gap) = true
    ((f, v) ∉ s.host.vecs ∨ early → exec (.msixSignal f v) s = .next s) ∧
    ((f, v) ∈ s.host.vecs → ¬early → ∃ t, exec (.msixSignal f v) s = .next t ∧
      t.host.vecs = s.host.vecs.filter (· != (f, v)) ∧ (f, v, s.prism.tick) ∈ t.host.sigs ∧
      (s.msixWord f (4 * v + 3) % 2 = 1 → (f, v) ∈ t.host.pba ∧ t.hostMem = s.hostMem) ∧
      (s.msixWord f (4 * v + 3) % 2 = 0 → (f, v) ∉ t.host.pba ∧
        t.hostMem = (s.hostWrite f (s.msixWord f (4 * v) + 2 ^ 32 * s.msixWord f (4 * v + 1))
          (leBytes 4 (s.msixWord f (4 * v + 2)))).hostMem) ∧
      { t with hostMem := s.hostMem,
               host := { t.host with vecs := s.host.vecs, sigs := s.host.sigs, pba := s.host.pba } } = s)

/-- R137–R139, R422: the buffered capture records wait in class CAP of their ring's owner. A record of the ring that the arbiter
comes to leaves the burst buffer, the oldest of that ring first, and reaches its ring, where that is still enabled, at the
producer index, which moves on by one; where it is not, its ring counts a drop. -/
def Obligations.BufferedRecordsReachTheirRing : Prop :=
  ∀ (s : State) (lane : Bool) (f ring rec : Nat), s.drains = true →
    let arb := s.host.arb.choose (s.backlog [])
    let b := dringR ring
    let i := s.ringIdx b
    let rest := s.lens.buf.eraseP (fun e => e.1 == ring)
    arb.last = some (lane, f, 3, ring) → ring < 16 → s.host.up.any (State.charged lane f 3 ring) = false →
    s.lens.buf.find? (fun e => e.1 == ring) = some (ring, rec) →
    ∃ t, exec (.bufferDrain 1) s = .next t ∧ t.lens = { s.lens with buf := rest, drained := s.lens.drained + 1 } ∧
      t.host.arb = arb ∧ t.get lnsR LNS_BUF_STATUS_FILL = rest.length % 2 ^ LNS_BUF_STATUS_FILL.width ∧
      (t.ringSt b).reserved = (s.ringSt b).reserved - 1 ∧
      (s.ringLive b = true → t.ringIdx b = (i + 1) % 2 ^ 32 ∧ (t.ringSt b).wrote = true ∧
        t.hostMem = (s.hostWrite (s.ringUse b).owner ((s.ringUse b).base + i % s.ringSize b * 16) (leBytes 16 rec)).hostMem ∧
        s.others t [lnsR + LNS_BUF_STATUS_FILL.idx, b + GLB_RING_IDX_IDX.idx]) ∧
      (s.ringLive b = false → t.get b GLB_RING_DROP_COUNT = min (s.get b GLB_RING_DROP_COUNT + 1) (2 ^ GLB_RING_DROP_COUNT.width - 1) ∧
        t.hostMem = s.hostMem ∧ s.others t [lnsR + LNS_BUF_STATUS_FILL.idx, b + GLB_RING_DROP_COUNT.idx]) ∧
      { t with regs := s.regs, hostMem := s.hostMem, lens := s.lens,
               host := { t.host with rings := s.host.rings, arb := s.host.arb } } = s

/-- R137–R140: what waits is what the part's writes and payload reads were charged, the buffered capture records and the read
requests `reads`. While the capture lane has not used its share, a capture ring whose turn it is and whose deficit covers
its transaction sends it, and its deficit falls by the bytes. With no capture backlog, the function, class and ring whose
turns it is send where their deficits cover it. A charge that is sent waits no longer, a capture record leaves the burst
buffer; with a read request sent, nothing but the arbiter moves. -/
def Obligations.ArbiterServesTheTurn : Prop :=
  ∀ (s : State) (reads : List Backlog) (f k r n : Nat),
    let a := s.host.arb
    let l := s.backlog reads
    let leaves := fun (t : State) (lane : Bool) =>
      let u : State := { s with host := { s.host with arb := t.host.arb } }
      (s.host.up.any (State.charged lane f k r) = true →
        t = { u with host := { u.host with up := s.host.up.eraseP (State.charged lane f k r) } }) ∧
      (s.host.up.any (State.charged lane f k r) = false → k = 3 → t = u.drainRing r) ∧
      (s.host.up.any (State.charged lane f k r) = false → k ≠ 3 → t = u)
    (k = 3 → f = 0 → r < 16 → a.lane.cur = r → laneBytes 4096 a.sent * 100 < bitsOf a.ctl 8 7 * 4096 →
      (l.find? (fun b => b.cls == 3 && b.ring == r)).map (·.len) = some n → n ≤ assocD 0 a.lane.deficit r →
      ∃ t, exec (.upstreamArbitration reads) s = .next t ∧ leaves t true ∧
        t.host.arb = { a with lane := ⟨r, assocPut 0 a.lane.deficit r (assocD 0 a.lane.deficit r - n)⟩,
                              sent := lastSent 4096 ((n, true) :: a.sent), last := some (true, 0, 3, r) }) ∧
    (f < 16 → k < 6 → r < classRings k → l.all (fun b => b.cls != 3) = true → ringHead l f k r = some n →
      a.fn.cur = f → (assocD {} a.cls f).cur = k → (assocD {} a.ring (8 * f + k)).cur = r →
      n ≤ assocD 0 a.fn.deficit f → n ≤ assocD 0 (assocD {} a.cls f).deficit k →
      n ≤ assocD 0 (assocD {} a.ring (8 * f + k)).deficit r →
      ∃ t, exec (.upstreamArbitration reads) s = .next t ∧ leaves t false ∧
        t.host.arb.fn = ⟨f, assocPut 0 a.fn.deficit f (assocD 0 a.fn.deficit f - n)⟩ ∧
        assocD {} t.host.arb.cls f = ⟨k, assocPut 0 (assocD {} a.cls f).deficit k (assocD 0 (assocD {} a.cls f).deficit k - n)⟩ ∧
        assocD {} t.host.arb.ring (8 * f + k) = ⟨r, assocPut 0 (assocD {} a.ring (8 * f + k)).deficit r
          (assocD 0 (assocD {} a.ring (8 * f + k)).deficit r - n)⟩ ∧
        t.host.arb.sent = lastSent 4096 ((n, false) :: a.sent) ∧ t.host.arb.last = some (false, f, k, r) ∧
        t.host.arb.lane = a.lane)

/-- R113, R114, R116: a 32-bit doorbell on the function's own page at the slot of an enabled ring of its own. On a ring the host
fills, a new producer index at most the ring's size ahead of the part's index is taken, with the tick it came in; on a ring
the part fills, a consumer index that returns no more than the part has written is taken. Nothing else moves. R114, R118: a
doorbell narrower than 32 bits, one on another function's page, one past the slot's low half, and one on a ring that is off,
are rejected: cause 3, 2, 2 and 0 and the slot stand in the writer's `GLB_DB_ERR`, its count moves on, the ring counts a
drop where it is the writer's own, and EV122 is raised. Nothing else moves. -/
def Obligations.DoorbellsAreAnswered : Prop :=
  (∀ (s : State) (f slot v b : Nat) (fills : Bool), s.answers ⟨f, false, false⟩ = true → slot < 512 → v < 2 ^ 32 →
     State.slotRing f slot = some (b, fills) → s.ringOwner b = f → s.ringOn b = true → v ≠ (s.ringSt b).host →
     (if fills then (v + 2 ^ 32 - s.ringIdx b) % 2 ^ 32 ≤ s.ringSize b
      else (v + 2 ^ 32 - (s.ringSt b).host) % 2 ^ 32 ≤ (s.ringIdx b + 2 ^ 32 - (s.ringSt b).host) % 2 ^ 32) →
     ∃ t, exec (.doorbellWrite f f (8 * slot) 4 v) s = .next t ∧
       (let low := !fills && Decidable.decide ((s.ringIdx b + 2 ^ 32 - v) % 2 ^ 32 < s.get b GLB_RING_THRESH_THRESH)
        let bells := (s.ringSt b).bells ++ if fills then [(v, s.tn)] else []
        t.ringSt b = { s.ringSt b with host := v, bells := bells, above := (s.ringSt b).above && !low }) ∧
       (∀ b', b' ≠ b → t.ringSt b' = s.ringSt b') ∧ { t with host := { t.host with rings := s.host.rings } } = s) ∧
  (∀ (s : State) (f page slot half size v c : Nat), s.answers ⟨f, false, false⟩ = true → slot < 512 → half < 8 →
     let own : Option Nat := match State.slotRing f slot with
       | some (b, _) => if page = f ∧ s.ringOwner b = f then some b else none
       | none => none
     let cause : Option Nat :=
       if size < 4 then some 3
       else if page ≠ f ∨ half ≠ 0 ∨ 8 < size ∨ own = none then some 2
       else if own.any (fun b => !s.ringOn b) then some 0
       else none
     (size < 4 ∨ size = 4 ∨ 8 ≤ size) → cause = some c →
     ∃ t, exec (.doorbellWrite f page (8 * slot + half) size v) s = .next t ∧
       t.get (fglbR f) GLB_DB_ERR_CAUSE = c ∧ t.get (fglbR f) GLB_DB_ERR_SLOT = slot % 64 ∧
       t.get (fglbR f) GLB_DB_ERR_COUNT = min (s.get (fglbR f) GLB_DB_ERR_COUNT + 1) (2 ^ GLB_DB_ERR_COUNT.width - 1) ∧
       (∀ b, own = some b → t.get b GLB_RING_DROP_COUNT = min (s.get b GLB_RING_DROP_COUNT + 1) (2 ^ GLB_RING_DROP_COUNT.width - 1)) ∧
       s.others t ((fglbR f + GLB_DB_ERR_COUNT.idx) :: own.toList.map (· + GLB_RING_DROP_COUNT.idx)) ∧
       t.host = (s.raise 122 slot 0).host ∧ { t with regs := s.regs, host := s.host } = s)

/-- R47, R51, R103, R110, R115, R117, R120: a descriptor that may be fetched and whose read the arbiter comes to is taken, in
the state `u` that what goes upstream before that read leaves; one that was read before and kept needs no read. One that
passes the checks of R120 leaves its ring: the ring's index moves on by one, a completion slot is reserved, an indirect
payload's read is charged, FENCE holds the ring, and the descriptor is staged with its first feasible tick (a packet's is
queued). One whose read ended in an error completes with FAULT. R53: one beyond the horizon stays in its ring and is kept.
With no such turn nothing happens. -/
def Obligations.DescriptorsAreFetched : Prop :=
  ∀ (s u : State) (f cls ring : Nat) (bs : List Byte) (ind : Option (List Byte)),
    let b := State.classRing f cls ring
    let i := u.ringIdx b
    let kept := (s.ringSt b).far
    let d := (kept.map (fun x => if x.ind then { x with payload := ind } else x)).getD (State.descOf f cls ring i bs ind)
    let cb := fringR d.func (4 + d.ring)
    let ready := max (State.bellTick (u.ringSt b) i i + 2) (u.tn + 1)
    (∀ x, s.fetchable f cls ring = false ∨ (kept = none ∧ s.fetchTurn f cls ring = none) →
      exec (.descriptorFetch f cls ring x ind) s = .next s) ∧
    (s.fetchable f cls ring = true → (if kept.isSome then u = s else s.fetchTurn f cls ring = some u) →
      (u.tn = s.tn ∧ u.ringIdx b = s.ringIdx b ∧ u.ringSt b = s.ringSt b ∧ u.host.staged = s.host.staged ∧ u.hrd = s.hrd) ∧
      (¬(d.cls = 0 ∧ u.tn + 2 ^ 22 < d.apply) → ((u.consume b).reserve d).checkDesc d = none →
        ∀ x, (kept = none → x = some bs) →
        ∃ t, exec (.descriptorFetch f cls ring x ind) s = .next t ∧ t.ringIdx b = (i + 1) % 2 ^ 32 ∧
          (t.ringSt b).wrote = true ∧ t.host.fetched = u.host.fetched + 1 ∧
          (t.ringSt cb).reserved = (u.ringSt cb).reserved + 1 ∧
          (d.fence = true → (t.ringSt (State.classRing d.func d.cls d.ring)).fence = some d.idx) ∧
          t.host.up = u.host.up ++ (if d.ind ∧ d.opc ≠ 0x61 then
            State.pieces d.func (State.readClass d.cls d.ring).1 (State.readClass d.cls d.ring).2 d.len else []) ∧
          (d.cls = 0 → t.host.staged = u.host.staged ++ [⟨d, ready, u.host.seq⟩] ∧ t.hrd = u.hrd ∧
            t.get rveR RVE_STAGE_COUNT = u.host.staged.length + 1) ∧
          (d.cls = 1 → t.hrd = { u.hrd with txq := u.hrd.txq ++ [d] } ∧ t.host.staged = u.host.staged) ∧
          (d.cls = 2 → t.hrd = { u.hrd with bufs := u.hrd.bufs ++ [d] } ∧ t.host.staged = u.host.staged) ∧
          u.others t [b + GLB_RING_IDX_IDX.idx, rveR + RVE_STAGE_COUNT.idx, rveR + RVE_STAGE_PEAK.idx] ∧
          { t with regs := u.regs, host := u.host, hrd := u.hrd } = u) ∧
      (kept = none → cls = 0 → u.tn + 2 ^ 22 < d.apply → ∃ t, exec (.descriptorFetch f cls ring (some bs) ind) s = .next t ∧
        t.ringSt b = { u.ringSt b with far := some d } ∧ (∀ b', b' ≠ b → t.ringSt b' = u.ringSt b') ∧
        { t with host := { t.host with rings := u.host.rings } } = u) ∧
      (kept = none → ∃ t, exec (.descriptorFetch f cls ring none ind) s = .next t ∧
        t = (((u.consume b).reserve ⟨f, cls, ring, i, 0, false, false, 0, 0, 0, 0, 0, none⟩).finish
          ⟨f, cls, ring, i, 0, false, false, 0, 0, 0, 0, 0, none⟩ .fault u.tn).occur 6 ∧ t.ringIdx b = (i + 1) % 2 ^ 32))

/-! ## Register accesses that reach a unit -/

/-- R536: a word written to `PLK_TUN_TX` joins the message while the port is not BUSY and holds fewer than 60 words; another is
flagged with cause 2. SEND with a legal LEN that no byte is missing to makes the message of its first LEN bytes, low byte of
each word first, and sets BUSY. A read of `PLK_TUN_RX_POP` takes the next word of the oldest message, and zero from an empty
FIFO. -/
def Obligations.TunnelMessagesAreWrittenAndRead : Prop :=
  ∀ (s : State) (a : Access) (p m d w : Nat) (ws : List Nat) (rest : List (List Nat)), p < s.nPlk →
    (Presents s a (plkR p + PLK_TUN_TX_DATA.idx) m d → m ≠ 0 →
      (s.on (plkR p) PLK_TUN_TXCTL_BUSY = false → (s.plkP p).tunTx.length < 60 →
        ∃ t, exec (.tunnelDataWrite a) s = .next t ∧
          t.plk.ports = s.plk.ports.modify p (fun x => { x with tunTx := x.tunTx ++ [m &&& d] }) ∧
          s.others t [] ∧ { t with regs := s.regs, bus := s.bus, plk := { t.plk with ports := s.plk.ports } } = s) ∧
      (s.on (plkR p) PLK_TUN_TXCTL_BUSY = true ∨ 60 ≤ (s.plkP p).tunTx.length →
        ∃ t, exec (.tunnelDataWrite a) s = .next t ∧ t.plk = s.plk ∧ t.get glbR GLB_VIOL_INFO_CAUSE = 2)) ∧
    (Presents s a (plkR p + PLK_TUN_TXCTL_SEND.idx) m d → bitsOf (m &&& d) 8 1 = 1 → s.on (plkR p) PLK_TUN_TXCTL_BUSY = false →
      let n := merged (s.reg (plkR p + PLK_TUN_TXCTL_LEN.idx)).toNat m d % 256
      0 < n → n ≤ 240 →
      (∃ t, exec (.tunnelSend a) s = .next t ∧ t.get (plkR p) PLK_TUN_TXCTL_LEN = n ∧ t.on (plkR p) PLK_TUN_TXCTL_BUSY = true) ∧
      (n ≤ 4 * (s.plkP p).tunTx.length → ∃ t, exec (.tunnelSend a) s = .next t ∧
        t.plk.ports = s.plk.ports.modify p (fun x => { x with
          tunOut := some (((s.plkP p).tunTx.map (leBytes 4)).flatten.take n), tunTx := [] }) ∧
        t.get (plkR p) PLK_TUN_TXCTL_LEN = n ∧ t.on (plkR p) PLK_TUN_TXCTL_BUSY = true ∧
        s.others t [plkR p + PLK_TUN_TXCTL_LEN.idx] ∧
        { t with regs := s.regs, bus := s.bus, plk := { t.plk with ports := s.plk.ports } } = s)) ∧
    (Reads s a (plkR p + PLK_TUN_RX_POP_DATA.idx) →
      ((s.plkP p).fifo = (w :: ws) :: rest →
        ∃ t, exec (.tunnelRxPop a) s = .next t ∧ t.bus = ⟨leBytes 4 w, false⟩ ∧
          t.plk.ports = s.plk.ports.modify p (fun x => { x with fifo := if ws.isEmpty then rest else ws :: rest }) ∧
          t.get (plkR p) PLK_TUN_STATUS_RXCNT = (rest.length + if ws.isEmpty then 0 else 1) % 32 ∧
          s.others t [plkR p + PLK_TUN_STATUS_RXCNT.idx] ∧
          { t with regs := s.regs, bus := s.bus, plk := { t.plk with ports := s.plk.ports } } = s) ∧
      ((s.plkP p).fifo = [] → exec (.tunnelRxPop a) s = .next { s with bus := ⟨[0, 0, 0, 0], false⟩ }))

/-- R671: EN is taken in M6 and M12 and refused elsewhere; chip select is low while EN and CS are set, and a release waits for
the last queued byte; CS is refused while EN = 0; a byte written with EN = 1 and room is queued, and refused otherwise; a
byte shifted out makes room, and the byte that came in with it is kept or counted in LOST; PF0 and Reeve pop it. -/
def Obligations.SpiBytesPass : Prop :=
  ∀ (s : State) (a : Access) (m d v b : Nat) (rest : List Nat),
    let k := rveR + RVE_SPI_CTL_EN.idx
    let writes := fun (f : Fld) (v : Nat) => Presents s a k m d ∧ m ≠ 0 ∧ bitsOf (m &&& d) 16 16 = 0 ∧
      merged (s.reg k).toNat m d = putBits (s.reg k).toNat f.lo f.width v
    let refused := fun (o : Host.Outcome State Fault Refusal) =>
      ∃ t, o = .next t ∧ t.spi.tx = s.spi.tx ∧ t.spi.rx = s.spi.rx ∧ t.get rveR RVE_SPI_CTL_EN = s.get rveR RVE_SPI_CTL_EN ∧
        t.get rveR RVE_SPI_CTL_CS = s.get rveR RVE_SPI_CTL_CS ∧ t.get glbR GLB_VIOL_INFO_CAUSE = 2
    let follows := fun (t : State) (tx rx : List Nat) (cs : Bool) => t.spi = ⟨tx, rx, cs⟩ ∧
      t.get rveR RVE_SPI_CTL_TXFREE = (256 - tx.length) ∧ t.on rveR RVE_SPI_CTL_BUSY = !tx.isEmpty ∧
      { t with regs := s.regs, bus := s.bus, spi := s.spi } = s
    let busy := s.spi.cs && !s.spi.tx.isEmpty
    (State.privileged a.who = true → writes RVE_SPI_CTL_EN 1 → s.on rveR RVE_SPI_CTL_EN = false →
      (s.mode = 6 ∨ s.mode = 12 → ∃ t, exec (.spiBusTake a) s = .next t ∧ t.on rveR RVE_SPI_CTL_EN = true ∧
        t.on rveR RVE_STATUS_SPIOWN = true ∧ follows t s.spi.tx s.spi.rx (s.on rveR RVE_SPI_CTL_CS || busy) ∧
        s.others t [k, rveR + RVE_STATUS_SPIOWN.idx]) ∧
      (s.mode ≠ 6 → s.mode ≠ 12 → refused (exec (.spiBusTake a) s))) ∧
    (State.privileged a.who = true → v < 2 → writes RVE_SPI_CTL_CS v →
      (s.on rveR RVE_SPI_CTL_EN = true → ∃ t, exec (.spiChipSelect a) s = .next t ∧ t.get rveR RVE_SPI_CTL_CS = v ∧
        follows t s.spi.tx s.spi.rx (v == 1 || busy) ∧ s.others t [k, rveR + RVE_STATUS_SPIOWN.idx]) ∧
      (s.on rveR RVE_SPI_CTL_EN = false → s.on rveR RVE_SPI_CTL_CS = false → v = 1 →
        refused (exec (.spiChipSelect a) s))) ∧
    (Presents s a (rveR + RVE_SPI_TX_DATA.idx) m d → State.privileged a.who = true → m % 256 ≠ 0 →
      (s.on rveR RVE_SPI_CTL_EN = true → s.get rveR RVE_SPI_CTL_TXFREE ≠ 0 →
        ∃ t, exec (.spiTx a) s = .next t ∧ follows t (s.spi.tx ++ [(m &&& d) % 256]) s.spi.rx s.spi.cs ∧ s.others t [k]) ∧
      (s.on rveR RVE_SPI_CTL_EN = false ∨ s.get rveR RVE_SPI_CTL_TXFREE = 0 → refused (exec (.spiTx a) s))) ∧
    (s.spi.tx = b :: rest → rest.length < 256 →
      let cs := s.spi.cs && (s.on rveR RVE_SPI_CTL_CS && s.on rveR RVE_SPI_CTL_EN || !rest.isEmpty)
      ∃ t, exec (.spiByteShifted v) s = .next t ∧ s.others t [k] ∧
        (s.spi.rx.length < 256 → follows t rest (s.spi.rx ++ [v % 256]) cs ∧
          t.get rveR RVE_SPI_CTL_LOST = s.get rveR RVE_SPI_CTL_LOST) ∧
        (256 ≤ s.spi.rx.length → follows t rest s.spi.rx cs ∧
          t.get rveR RVE_SPI_CTL_LOST = min (s.get rveR RVE_SPI_CTL_LOST + 1) 65535)) ∧
    (Reads s a (rveR + RVE_SPI_RX_POP_DATA.idx) → s.spi.rx = b :: rest → State.privileged a.who = true →
      exec (.spiRxPop a) s = .next { s with spi := { s.spi with rx := rest },
                                            bus := ⟨leBytes 4 (b + 256 + 65536 * min rest.length 255), false⟩ }) ∧
    (Reads s a (rveR + RVE_SPI_RX_POP_DATA.idx) → s.spi.rx = [] ∨ State.privileged a.who = false →
      exec (.spiRxPop a) s = .next { s with bus := ⟨[0, 0, 0, 0], false⟩ })

/-- R580: a write of `GRN_UNLOCK_CTL` with GO acts on the region and kind it names. The password unlocks; another counts a
failure, and the sixteenth shuts unlocking off; ACT 1 locks; ACT 2 sets the password and leaves it unlocked where writes to
the region are open, and is flagged elsewhere. GO reads back 0. R597, R599: a write of `GRN_WC_INC` adds a step to the
counter it names, which is written at once or joins those that wait for the write in progress, but one of WC0–WC3 by the
host, which is flagged and adds nothing; a write of `GRN_WC_SEL` shows the selected counter's value, WORN and PEND. -/
def Obligations.PasswordsAndWearCounters : Prop :=
  (∀ (s : State) (a : Access) (m d : Nat),
     let k := grnR + GRN_UNLOCK_CTL_GO.idx
     let w := merged (s.reg k).toNat m d
     let region := w % 4
     let i := 2 * region + w / 4 % 2
     let act := w / 8 % 4
     let pw := s.get grnR GRN_UNLOCK_LO_PW + 2 ^ 32 * s.get grnR GRN_UNLOCK_HI_PW
     let keeps := fun (t : State) => t.on grnR GRN_UNLOCK_CTL_GO = false ∧ s.others t [k, grnR + GRN_LOCKST_FAILS.idx] ∧
       { t with regs := s.regs, bus := s.bus, gran := s.gran } = s
     Presents s a k m d → State.privileged a.who = true → w / 32 % 2 = 1 →
     (act = 0 → ∃ t, exec (.grnUnlock a) s = .next t ∧ keeps t ∧
       (s.on grnR GRN_LOCKST_PWLIM = true → t.gran = s.gran ∧ t.reg (grnR + GRN_LOCKST_FAILS.idx) = s.reg (grnR + GRN_LOCKST_FAILS.idx)) ∧
       (s.on grnR GRN_LOCKST_PWLIM = false → s.gran.pw.getD i 0 = pw → t.gran = { s.gran with unl := s.gran.unl.set i true } ∧
         t.get grnR GRN_LOCKST_FAILS = s.get grnR GRN_LOCKST_FAILS ∧
         t.get grnR GRN_LOCKST_RUNL = State.bits4 (fun r => t.granOpen r 0) ∧
         t.get grnR GRN_LOCKST_WUNL = State.bits4 (fun r => t.granOpen r 1)) ∧
       (s.on grnR GRN_LOCKST_PWLIM = false → s.gran.pw.getD i 0 ≠ pw → t.gran = s.gran ∧
         t.get grnR GRN_LOCKST_FAILS = min (s.get grnR GRN_LOCKST_FAILS + 1) 16 ∧
         t.on grnR GRN_LOCKST_PWLIM = Decidable.decide (16 ≤ s.get grnR GRN_LOCKST_FAILS + 1))) ∧
     (act = 1 → ∃ t, exec (.grnLock a) s = .next t ∧ keeps t ∧ t.gran = { s.gran with unl := s.gran.unl.set i false } ∧
       t.get grnR GRN_LOCKST_RUNL = State.bits4 (fun r => t.granOpen r 0) ∧
       t.get grnR GRN_LOCKST_WUNL = State.bits4 (fun r => t.granOpen r 1)) ∧
     (act = 2 → s.granOpen region 1 = true → ∃ t, exec (.grnSetPassword a) s = .next t ∧ keeps t ∧
       t.gran = { s.gran with pw := s.gran.pw.set i pw, unl := s.gran.unl.set i true } ∧
       t.get grnR GRN_LOCKST_RZERO = State.bits4 (fun r => t.gran.pw.getD (2 * r) 0 = 0) ∧
       t.get grnR GRN_LOCKST_WZERO = State.bits4 (fun r => t.gran.pw.getD (2 * r + 1) 0 = 0)) ∧
     (act = 2 → s.granOpen region 1 = false → s.on grnR GRN_UNLOCK_CTL_GO = false → ∃ t, exec (.grnSetPassword a) s = .next t ∧
       t.gran = s.gran ∧ t.on grnR GRN_UNLOCK_CTL_GO = false ∧ t.get glbR GLB_VIOL_INFO_CAUSE = 2)) ∧
  (∀ (s : State) (a : Access) (m d : Nat),
     (Presents s a (grnR + GRN_WC_INC_CTR.idx) m d → m % 16 ≠ 0 →
       let c := (m &&& d) % 16
       (a.who.rve = true ∨ 4 ≤ c → ∃ t, exec (.wearCounterIncrement a) s = .next t ∧
         t.gran = { s.gran with wear := s.gran.wear.modify c (fun x =>
           if x.now = 0 then { x with now := 1 } else { x with pend := x.pend + 1 }) } ∧ s.others t [] ∧
         { t with regs := s.regs, bus := s.bus, gran := s.gran } = s) ∧
       (a.who.rve = false → c < 4 → ∃ t, exec (.wearCounterIncrement a) s = .next t ∧ t.gran = s.gran ∧
         t.get glbR GLB_VIOL_INFO_CAUSE = 2)) ∧
     (Presents s a (grnR + GRN_WC_SEL_CTR.idx) m d → m % 16 ≠ 0 →
       let c := merged (s.get grnR GRN_WC_SEL_CTR) (m % 16) (d % 16)
       let x := s.gran.wear.getD c {}
       ∃ t, exec (.wearCounterSelect a) s = .next t ∧ t.get grnR GRN_WC_SEL_CTR = c ∧
         t.get grnR GRN_WC_LO_VALUE = x.value % 2 ^ 32 ∧ t.get grnR GRN_WC_HI_VALUE = x.value / 2 ^ 32 % 2 ^ 16 ∧
         t.on grnR GRN_WC_HI_WORN = x.worn ∧ t.on grnR GRN_WC_HI_PEND = Decidable.decide (0 < x.now) ∧
         s.others t [grnR + GRN_WC_SEL_CTR.idx, grnR + GRN_WC_LO_VALUE.idx, grnR + GRN_WC_HI_VALUE.idx] ∧ s.regsOnly t))

/-- R576, R577, R579, R583: a write within one page of BAR4 lands in the SRAM and marks the page dirty; one to the page being
stored is held; one to a region whose writes are locked does nothing but set `GRN_ERR.WLOCK` and PAGE. Without AUTO no store
is asked for; with it the page is queued. R577–R579, R588: a read within one page of BAR4 gives the bytes of the SRAM; a
byte of a locked region or of the page being stored reads zero, with RLOCK or BUSYPAGE and PAGE set; before the Granary has
recovered, everything reads zero. -/
def Obligations.GranaryBytesAreAccessed : Prop :=
  (∀ (s : State) (off : Nat) (bs : List Byte), off + bs.length ≤ 524288 → bs ≠ [] → off / 512 = (off + bs.length - 1) / 512 →
     s.granAnswers = true →
     let p := off / 512
     ∃ t, exec (.granaryWrite off bs) s = .next t ∧
       { t with regs := s.regs, gran := { t.gran with sram := s.gran.sram, dirty := s.gran.dirty, queue := s.gran.queue,
                                                      held := s.gran.held } } = s ∧
       (s.granOpen (granRegion p) 1 = false → t.gran = s.gran ∧ t.on grnR GRN_ERR_WLOCK = true ∧ t.get grnR GRN_ERR_PAGE = p ∧
         s.others t [grnR + GRN_ERR_PAGE.idx]) ∧
       (s.granOpen (granRegion p) 1 = true →
         (s.gran.busy ≠ some p → p ∈ t.gran.dirty ∧ t.gran.held = s.gran.held ∧ ∀ o, t.sramByte o =
           if off ≤ o ∧ o < off + bs.length then bs.getD (o - off) 0 else s.sramByte o) ∧
         (s.gran.busy = some p → t.gran.held = s.gran.held ++ [(off, bs)] ∧ t.gran.sram = s.gran.sram ∧ t.gran.dirty = s.gran.dirty) ∧
         (s.on grnR GRN_CFG_AUTO = false → t.gran.queue = s.gran.queue ∧ s.others t []) ∧
         (s.on grnR GRN_CFG_AUTO = true → t.gran.queue.any (fun e => e.1 == p) = true ∧ s.others t [grnR + GRN_STATUS_BUSY.idx]))) ∧
  (∀ (s : State) (off n : Nat), off + n ≤ 524288 → 0 < n → off / 512 = (off + n - 1) / 512 →
     let p := off / 512
     (s.granAnswers = true → ∃ t, exec (.granaryRead off n) s = .next t ∧ t.bus.abort = false ∧ s.regsOnly t ∧
       (s.granOpen (granRegion p) 0 = true → s.gran.busy ≠ some p → s.others t [] ∧
         t.bus.rdata = (List.range n).map (fun i => s.sramByte (off + i))) ∧
       (s.granOpen (granRegion p) 0 = false → t.bus.rdata = List.replicate n 0 ∧ t.on grnR GRN_ERR_RLOCK = true ∧
         t.get grnR GRN_ERR_PAGE = p ∧ s.others t [grnR + GRN_ERR_PAGE.idx]) ∧
       (s.granOpen (granRegion p) 0 = true → s.gran.busy = some p → t.bus.rdata = List.replicate n 0 ∧
         t.on grnR GRN_ERR_BUSYPAGE = true ∧ t.get grnR GRN_ERR_PAGE = p ∧ s.others t [grnR + GRN_ERR_PAGE.idx])) ∧
     (3 ≤ s.mode → s.pwr.recovered = false →
       exec (.granaryRead off n) s = .next { s with bus := ⟨List.replicate n 0, false⟩ }))

/-- R633, R635, R637: the three strobes of the PWR window, by PF0 or Reeve. A request for M6 in M13 is taken, unless SAFE holds
the part; `PWR_RESET.GO` takes the part to M2 with RESETS counted, the LTC kept, and every register at its reset value but
those that outlive a reset; HOSTGO in M4 starts the image in the Granary where it is whole, and shows the fault elsewhere. -/
def Obligations.PowerStrobesAct : Prop :=
  ∀ (s : State) (a : Access) (m d e ver crc : Nat), State.privileged a.who = true →
    (Presents s a (pwrR + PWR_MODE_CTL_GO.idx) m d → s.mode = 13 → bitsOf (m &&& d) 4 1 = 1 →
      merged (s.reg (pwrR + PWR_MODE_CTL_GO.idx)).toNat m d % 16 = 6 →
      let safe := s.on wchR WCH_STATUS_SAFEHOLD || s.on pwrR PWR_STATUS_SAFEBOOT
      (safe = false → ∃ t, exec (.safeExitRequest a) s = .next t ∧ t.pwr = { s.pwr with exit := true } ∧
        t.get pwrR PWR_MODE_CTL_REQ = 6 ∧ t.on pwrR PWR_MODE_CTL_GO = false ∧ s.others t [pwrR + PWR_MODE_CTL_GO.idx] ∧
        { t with regs := s.regs, bus := s.bus, pwr := s.pwr } = s) ∧
      (safe = true → s.on pwrR PWR_MODE_CTL_GO = false → ∃ t, exec (.safeExitRequest a) s = .next t ∧ t.pwr = s.pwr ∧
        t.get glbR GLB_VIOL_INFO_CAUSE = 2)) ∧
    (Presents s a (pwrR + PWR_RESET_GO.idx) m d → bitsOf (m &&& d) 0 1 = 1 →
      ∃ t, exec (.softwareReset a) s = .next t ∧ t.mode = 2 ∧
        t.get pwrR PWR_CNT_RESETS = min (s.get pwrR PWR_CNT_RESETS + 1) (2 ^ PWR_CNT_RESETS.width - 1) ∧
        t.ltc.sec = s.ltc.sec ∧ t.ltc.ns = s.ltc.ns ∧ t.ltc.frac = s.ltc.frac ∧ t.variant = s.variant ∧ t.pending = s.pending ∧
        t.gran.sram = s.gran.sram ∧ t.host = {} ∧ t.wd = {} ∧ t.hrd = {} ∧ t.lens = {} ∧ t.tally = {} ∧ t.plk = {} ∧
        ∀ k, k ∉ [ltcR + LTC_STATUS_COLD.idx, pwrR + PWR_CNT_RESETS.idx, pwrR + PWR_RAIL_OK.idx, pwrR + PWR_BOOT_STRAP.idx,
          pwrR + PWR_STATUS_MODE.idx, glbR + GLB_TMP_STATUS_LVL0.idx] → t.reg k = (resetWord k).getD 0) ∧
    (Presents s a (pwrR + PWR_BOOT_HOSTGO.idx) m d → bitsOf (m &&& d) 7 1 = 1 → s.mode = 4 → s.pwr.recovered = true →
      let check := State.imageCheck (s.get glbR GLB_ID_STEP) s.granImage
      (check = Sum.inl e → e < 8 → ∃ t, exec (.hostFirmwareLoad a) s = .next t ∧ t.mode = 4 ∧ t.get pwrR PWR_BOOT_ERR = e ∧
        t.on pwrR PWR_BOOT_HOSTGO = false ∧ t.pwr = { s.pwr with tried := true } ∧ s.others t [pwrR + PWR_BOOT_ERR.idx] ∧
        { t with regs := s.regs, bus := s.bus, pwr := s.pwr } = s) ∧
      (check = Sum.inr (ver, crc) → ∃ t, exec (.hostFirmwareLoad a) s = .next t ∧ t.mode = 5 ∧ t.get pwrR PWR_BOOT_SRC = 3 ∧
        t.get pwrR PWR_BOOT_VERSION = ver % 2 ^ 16 ∧ t.get rveR RVE_STATUS_STATE = 2 ∧ t.get rveR RVE_FWCRC_CRC = crc % 2 ^ 32)) ∧
    (Presents s a (pwrR + PWR_BOOT_HOSTGO.idx) m d → bitsOf (m &&& d) 7 1 = 1 → s.mode ≠ 4 → s.on pwrR PWR_BOOT_HOSTGO = false →
      ∃ t, exec (.hostFirmwareLoad a) s = .next t ∧ t.mode = s.mode ∧ t.pwr = s.pwr ∧ t.get glbR GLB_VIOL_INFO_CAUSE = 2)

/-- R554: in a paired part, PF0 or Reeve takes the line in M6, M12 or M13 while the part does not hold the key, no override runs
and the last ended a second ago: KEY_OVERRIDE reads 1 and the override drives for two ticks from the next boundary. Else the
write is flagged with cause 2. A write of 0 ends a running override at the next boundary. -/
def Obligations.KeyOverridesAreBounded : Prop :=
  ∀ (s : State) (a : Access), State.privileged a.who = true → s.hasMir = true →
    let k := mirR + MIR_KEY_KEY_OVERRIDE.idx
    let ok := s.on mirR MIR_CFG_EN = true ∧ s.on mirR MIR_KEY_HOLD = false ∧ (s.mode = 6 ∨ s.mode = 12 ∨ s.mode = 13) ∧
      s.mir.ovr = none ∧ (∀ e, s.mir.ovrEnd = some e → e + 32000 ≤ s.prism.tick)
    (s.on mirR MIR_KEY_KEY_OVERRIDE = false → writesField s a mirR MIR_KEY_KEY_OVERRIDE 1 →
      (ok → ∃ t, exec (.keyOverride a) s = .next t ∧ t.on mirR MIR_KEY_KEY_OVERRIDE = true ∧
        t.mir = { s.mir with ovr := some (s.prism.tick + 1, s.prism.tick + 3) } ∧ s.others t [k] ∧
        { t with regs := s.regs, bus := s.bus, mir := s.mir } = s) ∧
      (¬ok → ∃ t, exec (.keyOverride a) s = .next t ∧ t.mir = s.mir ∧ t.on mirR MIR_KEY_KEY_OVERRIDE = false ∧
        t.get glbR GLB_VIOL_INFO_CAUSE = 2)) ∧
    (s.on mirR MIR_KEY_KEY_OVERRIDE = true → writesField s a mirR MIR_KEY_KEY_OVERRIDE 0 →
      ∃ t, exec (.keyOverride a) s = .next t ∧ t.on mirR MIR_KEY_KEY_OVERRIDE = true ∧
        t.mir = { s.mir with ovr := s.mir.ovr.map (fun o => (o.1, min o.2 (s.prism.tick + 1))) } ∧ s.others t [k] ∧
        { t with regs := s.regs, bus := s.bus, mir := s.mir } = s)

/-! ## Ring commands -/

/-- R53, R112, R120, R121, R128: what becomes of any descriptor. The part takes none while its rings are stopped, and none
beyond the horizon. One that fails a check is completed with the status of the first check it fails, and WF06 occurs for a
failed read; nothing else happens. One whose apply tick lies ahead is staged. The frame of a PKT_TX and the buffer of a
PKT_RXBUF are queued at once. R121, R125: a NOP that applies writes its completion, 16 bytes with TAG, OPC, STATUS, IDX,
RING, CLASS, PHASE and the tick number, at the producer index of the completion ring of its function and number; the index
moves on, the slot it held is free again, and the applied commands count one more. R137: the write waits for the upstream
link in class CPL, the reads of the descriptor and of an indirect payload in FETCH. -/
def Obligations.DescriptorsAreCheckedAndCompleted : Prop :=
  (∀ (c : Instr) (s : State) (d : Desc) (st : Status), commandRow c = some d →
     let m := s.taken d
     (s.takesFrom d = false → exec c s = .next s) ∧
     (s.takesFrom d = true → m.checkDesc d = some st →
       exec c s = .next (if st = .fault then (m.finish d st s.tn).occur 6 else m.finish d st s.tn)) ∧
     (s.takesFrom d = true → m.checkDesc d = none →
       (d.cls = 0 → s.tn < d.apply → ∃ t, exec c s = .next t ∧
         t.host = { m.host with staged := s.host.staged ++ [⟨d, s.tn + 1, s.host.seq⟩], seq := s.host.seq + 1 } ∧
         t.get rveR RVE_STAGE_COUNT = (s.host.staged.length + 1) % 2 ^ RVE_STAGE_COUNT.width ∧
         s.others t [rveR + RVE_STAGE_COUNT.idx] ∧ { t with regs := s.regs, host := s.host } = s) ∧
       (∀ e, c = .pktTx e → exec (.pktTx e) s = .next { m with hrd := { s.hrd with txq := s.hrd.txq ++ [d] } }) ∧
       (∀ e, c = .pktRxbuf e → exec (.pktRxbuf e) s = .next { m with hrd := { s.hrd with bufs := s.hrd.bufs ++ [d] } }))) ∧
  (∀ (s : State) (d : Desc), Applies s (.nop d) →
     let k := d.ring % 4
     let b := fringR d.func (4 + k)
     let i := s.ringIdx b
     let late := d.apply ≠ 0 ∧ d.apply < s.tn
     let v := d.tag % 2 ^ 16 + (if late then 2 ^ 24 else 0) + d.idx % 2 ^ 24 * 2 ^ 32 + k * 2 ^ 56 + s.ringPhase b i * 2 ^ 63 +
       s.tn % 2 ^ 64 * 2 ^ 64
     s.ringsHalted = false → s.on b GLB_RING_CFG_IRQ_EN = false →
     ∃ t, exec (.nop d) s = .next t ∧
       t.hostMem = (s.hostWrite (s.ringUse b).owner ((s.ringUse b).base + i % s.ringSize b * 16) (leBytes 16 v)).hostMem ∧
       t.ringIdx b = (i + 1) % 2 ^ 32 ∧ (t.ringSt b).reserved = (s.ringSt b).reserved ∧
       t.host.up = s.host.up ++ [⟨d.func, 1, k, 32⟩] ++ (if d.ind then State.pieces d.func 1 k d.len else []) ++ [⟨d.func, 0, k, 16⟩] ∧
       t.get rveR RVE_CMDCNT_APPLIED = min (s.get rveR RVE_CMDCNT_APPLIED + 1) 65535 ∧
       t.get glbR GLB_OVR_RVE_LATE = min (s.get glbR GLB_OVR_RVE_LATE + if late then 1 else 0) 65535 ∧
       s.others t [b + GLB_RING_IDX_IDX.idx, rveR + RVE_CMDCNT_APPLIED.idx, glbR + GLB_OVR_RVE_LATE.idx] ∧
       { t with regs := s.regs, hostMem := s.hostMem, host := { t.host with rings := s.host.rings, up := s.host.up } } = s)

/-- R126, R127, R630: REG_WRITE writes the register its payload names under the mask, or completes with DENIED where the write
is flagged; R75: LTC_STEP, where the boundary has applied no step yet, moves the LTC on by its amount, or is refused where
the counter would overflow; where it has, the step waits for the next one (a step that makes staged commands due is followed
by what they do); MODE_SET in a part with no partner changes the mode at once, but starts the entry to M6, which takes its
time, and may not enter M11. -/
def Obligations.ControlCommandsApply : Prop :=
  ∀ (s : State) (d : Desc),
    let pl := d.payload.getD []
    (Applies s (.regWrite d) → leAt pl 0 4 = 4 → leAt pl 8 4 ≠ 0 → completes s (.regWrite d) .ok (fun m u =>
      (u.reg (glbR + GLB_SCRATCH_DATA.idx)).toNat = merged (m.reg (glbR + GLB_SCRATCH_DATA.idx)).toNat (leAt pl 8 4) (leAt pl 4 4) ∧
      m.others u [glbR + GLB_SCRATCH_DATA.idx] ∧ m.regsOnly u)) ∧
    (Applies s (.regWrite d) → decodeOff d.func (leAt pl 0 4 / 4 * 4) = .unmapped → completes s (.regWrite d) .denied (fun m u =>
      u.get glbR GLB_VIOL_INFO_CAUSE = 3 ∧ u.on glbR GLB_VIOL_INFO_CMD = true ∧
      u.get glbR GLB_VIOL_ADDR_OFFSET = leAt pl 0 4 % 2 ^ 22 ∧
      u.get glbR GLB_VIOL_INFO_COUNT = min (m.get glbR GLB_VIOL_INFO_COUNT + 1) 65535)) ∧
    (Applies s (.ltcStep d) →
      let amt := leAt pl 0 6 * 1000000000 + leAt pl 8 4
      let quiet := s.ltc.due = [] ∧ s.host.staged.all (fun x =>
        Decidable.decide ((s.ltc.sec * 1000000000 + s.ltc.ns + amt) / 31250 < max x.d.apply x.ready)) = true
      (s.ltc.landed = false → amt = 0 → completes s (.ltcStep d) .ok (fun m u => u = m)) ∧
      (s.ltc.landed = true → ∃ t, exec (.ltcStep d) s = .next t ∧ t.ltcRaw 0 = s.ltcRaw 0 ∧
        t.ltc.due = s.ltc.due ++ [⟨rowDesc d 0 0x02, s.tn, s.host.seq⟩]) ∧
      (s.ltc.landed = false → amt ≠ 0 → s.ltc.sec + leAt pl 0 6 + (s.ltc.ns + leAt pl 8 4) / 1000000000 < 2 ^ 48 →
        ∃ t, exec (.ltcStep d) s = .next t ∧ (quiet → t.ltcRaw 0 = s.ltcRaw 0 + amt * 2 ^ 32 ∧
          t.ltc.stepped = s.ltc.stepped + amt * 2 ^ 32 ∧ t.ltc.due = [] ∧ t.on ltcR LTC_STATUS_SET = true ∧
          t.get ltcR LTC_STEPCNT_APPLIED = min (s.get ltcR LTC_STEPCNT_APPLIED + 1) 65535 ∧
          t.get rveR RVE_CMDCNT_APPLIED = min (s.get rveR RVE_CMDCNT_APPLIED + 1) 65535)) ∧
      (s.ltc.landed = false → 2 ^ 48 ≤ s.ltc.sec + leAt pl 0 6 + (s.ltc.ns + leAt pl 8 4) / 1000000000 →
        ∃ t, exec (.ltcStep d) s = .next t ∧ t.ltcRaw 0 = s.ltcRaw 0 ∧ t.ltc.due = s.ltc.due ∧
          t.get ltcR LTC_STEPCNT_REFUSED = min (s.get ltcR LTC_STEPCNT_REFUSED + 1) 65535 ∧
          t.get rveR RVE_CMDCNT_REJECTED = min (s.get rveR RVE_CMDCNT_REJECTED + 1) 65535)) ∧
    (Applies s (.modeSet d) → s.paired = false →
      let new := leAt pl 0 1
      let busy := s.on pwrR PWR_STATUS_CHG || s.on pwrR PWR_STATUS_PF
      (busy = true → completes s (.modeSet d) .inval (fun m u => u = m)) ∧
      (busy = false → new = s.mode → completes s (.modeSet d) .ok (fun m u => u = m)) ∧
      (busy = false → new = 11 → s.mode ≠ 11 → completes s (.modeSet d) .denied (fun m u => u = m)) ∧
      (busy = false → new ≠ 6 → new ≠ 11 → new ≠ s.mode → completes s (.modeSet d) .ok (fun _ u => u.mode = new)) ∧
      (busy = false → new = 6 → s.mode ≠ 6 → completes s (.modeSet d) .ok (fun m u => u.mode = m.mode ∧
        u.on pwrR PWR_STATUS_CHG = true ∧ u.get pwrR PWR_STATUS_TARGET = 6 ∧ u.millerRuns = false)))

/-- R45, R190, R202, R203, R220, R234: the commands of Prism and the ensembles. REF_FORCE forces a selection, which holds in the
tick that starts (R45), or ends it; PRIO_TABLE and ENSEMBLE_SET put every word of their payload into its register;
REF_OVERRIDE forces a verdict or gives the reference back, GOOD staying GOOD and BAD soaking again; TAMPER_CLEAR takes the
named slots out of QUARANTINED or CONDEMNED, with cause 5. An ensemble that is set starts in BOOT, with no slot judged GOOD. -/
def Obligations.ReferenceCommandsApply : Prop :=
  ∀ (s : State) (d : Desc),
    let pl := d.payload.getD []
    let n := d.target
    let act := leAt pl 0 1
    (Applies s (.refForce d) → completes s (.refForce d) .ok (fun m u =>
      u.on (prcR n) PRS_SEL_CFG_FORCE_EN = (leAt pl 1 1 == 1) ∧
      u.get (prcR n) PRS_SEL_CFG_FORCE_IDX = (if leAt pl 1 1 = 1 then act else m.get (prcR n) PRS_SEL_CFG_FORCE_IDX) ∧
      (leAt pl 1 1 = 0 → m.others u [prcR n + PRS_SEL_CFG_FORCE_EN.idx] ∧ { u with regs := m.regs } = m) ∧
      (leAt pl 1 1 = 1 → u.selCur n = (if m.verdictOf act = 2 then none else some act) ∧
        m.others u [prcR n + PRS_SEL_CFG_FORCE_EN.idx, prcR n + PRS_SEL_STATUS_CUR.idx] ∧ (∀ c, c ≠ n → u.chan c = m.chan c) ∧
        { u with regs := m.regs, mil := m.mil, prism := { u.prism with oc := m.prism.oc, ocV := m.prism.ocV,
                                                                       moved := m.prism.moved } } = m))) ∧
    (Applies s (.prioTable d) → completes s (.prioTable d) .ok (fun m u =>
      (List.range 5).all (fun i => u.holdsWord (prcR n + i) (leAt pl (4 * i) 4)) = true ∧
      m.others u ((List.range 5).map (prcR n + ·)) ∧ { u with regs := m.regs } = m)) ∧
    (Applies s (.refOverride d) → completes s (.refOverride d) .ok (fun m u =>
      u.on (priR n) PRS_VERDICT_FORCED = (act != 0) ∧ m.others u [priR n + PRS_VERDICT_FORCED.idx] ∧
      { u with regs := m.regs, prism := { u.prism with refs := m.prism.refs } } = m ∧
      (act = 1 → u.prism.refs = m.prism.refs.modify n (fun r => { r with forced := some 0, v := 0, cause := 0, win := none, pend := [], soak := none })) ∧
      (act = 2 → u.prism.refs = m.prism.refs.modify n (fun r => { r with forced := some 2, v := 2, cause := 0, win := none, pend := [], soak := none })) ∧
      (act = 0 → (m.ref n).forced = none → u.prism.refs = m.prism.refs) ∧
      (act = 0 → (m.ref n).forced = some 0 → m.on (priR n) PRS_MON_EN = true → u.prism.refs =
        m.prism.refs.modify n (fun r => { r with forced := none, v := 0, cause := 0, soak := none, win := none, pend := [] })) ∧
      (act = 0 → (m.ref n).forced = some 2 → m.on (priR n) PRS_MON_EN = true → u.prism.refs = m.prism.refs.modify n (fun r =>
        { r with forced := none, v := 2, cause := 0, soak := some (m.prism.tick + 1), win := none, pend := [] })))) ∧
    (Applies s (.ensembleSet d) → completes s (.ensembleSet d) .ok (fun _ u =>
      (List.range 5).all (fun i => u.holdsWord (ensR n + i) (leAt pl (4 * i) 4)) = true ∧
      (List.range 8).all (fun i => u.holdsWord (emsR n i) (leAt pl (20 + 4 * i) 4)) = true ∧
      u.on (ensR n) GLB_ENS_STATUS_BOOT = u.on (ensR n) GLB_ENS_CFG_EN ∧ u.on (ensR n) GLB_ENS_STATUS_HANCH = false ∧
      u.on (ensR n) GLB_ENS_STATUS_ASYM = false ∧
      (List.range 8).all (fun i => u.mState n i == 0 || Decidable.decide (4 ≤ u.mState n i)) = true)) ∧
    (Applies s (.tamperClear d) → completes s (.tamperClear d) .ok (fun m u =>
      (List.range 8).all (fun i =>
        if act / 2 ^ i % 2 = 1 ∧ 4 ≤ m.mState n i then u.mState n i == 0 && u.get (emsR n i) GLB_EM_STAT_CAUSE == 5
        else u.mState n i == m.mState n i) = true ∧
      (∀ e, e ≠ n → u.ensOf e = m.ensOf e)))

/-- R254, R271–R274, R314: the commands of Miller and the Hearth. CHAN_STATE forces FREERUN or HOLDOVER, releases the force or
starts acquisition over, on a channel that is on, and while Miller is halted takes the force alone (R262); CHAN_PHASE moves
a loop's offset and target, within 1,000 s; CHAN_LOOP sets the selected parameters; HEARTH_CTL clears the history, stops or
resumes learning, refits, and stores where a location is set. -/
def Obligations.ChannelCommandsApply : Prop :=
  ∀ (s : State) (d : Desc) (f : Nat),
    let pl := d.payload.getD []
    let n := d.target
    let act := leAt pl 0 1
    (Applies s (.chanState d) → completes s (.chanState d) (if ((s.taken (rowDesc d 0 0x10)).milUndo.chan n).on then .ok else .inval)
      (fun m u =>
        ((m.chan n).on = false → u = m) ∧
        ((m.chan n).on = true → m.millerRuns = false → u.milForce n = (if act = 1 ∨ act = 2 then act else 0) ∧
          u.milState n = m.milState n ∧ m.others u [milR n + MIL_STATUS_STATE.idx] ∧
          (act ≠ 3 → { u with regs := m.regs } = m) ∧ (act = 3 → u.on (milR n) MIL_STATUS_LSEEN = false ∧ (u.chan n).c.pk = 0)) ∧
        ((m.chan n).on = true → m.millerRuns = true →
          (act = 1 → u.milForce n = 1 ∧ u.milState n = 0) ∧
          (act = 2 → u.milForce n = 2 ∧ u.milState n = 5) ∧
          (act = 3 → u.milForce n = 0 ∧ u.milState n ≤ 1 ∧ u.on (milR n) MIL_STATUS_LSEEN = false) ∧
          (act = 0 → m.milForce n = 0 → u = m) ∧ (act = 0 → u.milForce n = 0)))) ∧
    (Applies s (.chanPhase d) →
      let a : Rat := (signed (leAt pl 0 8) 64 : Rat) / 65536 / 1000000000
      let op := leAt pl 8 1
      let go := fun (b : Bank) => if op = 0 then { b with dt := q80 (b.dt + a) }
        else if op = 1 then { b with d := q80 (b.d + a), dp := q80 (b.dp + a) } else { b with dt := b.d }
      let x := (s.taken (rowDesc d 0 0x11)).milUndo.chan n
      let bad : Bank → Prop := fun b => (1000 : Rat) < |(go b).d| ∨ (1000 : Rat) < |(go b).dt|
      (bad x.c ∨ (x.specN ≠ none ∧ bad x.s) → completes s (.chanPhase d) .inval (fun m u => u = m)) ∧
      (¬bad x.c → (x.specN = none ∨ ¬bad x.s) → completes s (.chanPhase d) .ok (fun m u =>
        u = { m with mil := m.mil.modify n (fun y => { y with c := go y.c, s := if y.specN.isSome then go y.s else y.s }) }))) ∧
    (Applies s (.chanLoop d) → completes s (.chanLoop d) .ok (fun m u =>
      let sel := fun i => leAt pl 15 1 / 2 ^ i % 2 = 1
      u.get (milR n) MIL_BW_BW = (if sel 0 then leAt pl 0 4 % 2 ^ MIL_BW_BW.width else m.get (milR n) MIL_BW_BW) ∧
      u.get (milR n) MIL_ABW_ABW = (if sel 1 then leAt pl 4 4 % 2 ^ MIL_ABW_ABW.width else m.get (milR n) MIL_ABW_ABW) ∧
      u.get (milR n) MIL_LIM0_PSLOPE = (if sel 2 then leAt pl 8 3 % 2 ^ MIL_LIM0_PSLOPE.width else m.get (milR n) MIL_LIM0_PSLOPE) ∧
      u.get (milR n) MIL_DAMP_DAMP = (if sel 3 then leAt pl 11 1 % 2 ^ MIL_DAMP_DAMP.width else m.get (milR n) MIL_DAMP_DAMP) ∧
      u.get (milR n) MIL_LIM1_FMAX = (if sel 4 then leAt pl 12 3 % 2 ^ MIL_LIM1_FMAX.width else m.get (milR n) MIL_LIM1_FMAX) ∧
      m.others u [milR n + MIL_BW_BW.idx, milR n + MIL_ABW_ABW.idx, milR n + MIL_LIM0_PSLOPE.idx, milR n + MIL_DAMP_DAMP.idx,
        milR n + MIL_LIM1_FMAX.idx] ∧ { u with regs := m.regs } = m)) ∧
    (Applies s (.hearthCtl d) →
      (act = 0 → completes s (.hearthCtl d) .ok (fun _ u => u.hearth.hist = [] ∧ u.hearth.count = 0 ∧ u.hearth.model = none)) ∧
      (act = 1 → completes s (.hearthCtl d) .ok (fun m u => u.on glb1R GLB_HRT_STATUS_LEARN = false ∧
        u.hearth = { m.hearth with stopped := true, flags := m.hearth.flags ||| 8 } ∧
        m.others u [glb1R + GLB_HRT_STATUS_LEARN.idx] ∧ { u with regs := m.regs, hearth := m.hearth } = m)) ∧
      (act = 2 → completes s (.hearthCtl d) .ok (fun m u => u = { m with hearth := { m.hearth with stopped := false, grid := none } })) ∧
      (act = 3 → completes s (.hearthCtl d) .ok (fun m u => u = { m with hearth := { m.hearth with
        modelNext := some (fitHistory (m.hearth.hist.take m.hearth.hist.length) m.intv (m.get glb1R GLB_HRT_CFG1_TSPAN)) } })) ∧
      (act = 4 → s.hrtLoc = none ∨ 16 ≤ s.gran.reqs.length → completes s (.hearthCtl d) .inval (fun m u => u = m)) ∧
      (act = 4 → s.hrtLoc = some f → s.gran.reqs.length < 16 → completes s (.hearthCtl d) .ok (fun m u =>
        u.gran.reqs = m.gran.reqs ++ [{ first := f, left := (List.range 129).map (f + ·) }] ∧
        (List.range 129).all (fun i => u.gran.queue.any (fun e => e.1 == f + i)) = true)))

/-! ## References, ensembles, channels and the Hearth -/

/-- R184, R187, R188: how a tick's results move a verdict, and the rows that apply it. A GOOD reference whose monitor fails
opens a window and becomes SUSPECT; at its due tick a pending monitor clears where it has since passed and not failed, and
is confirmed BAD elsewhere; a BAD reference soaks, each failure starting the soak again. MONITOR_DUE and SOAK_END judge a
reference that no ensemble has in hand by what its monitors gave; MISSING_EDGE fails the activity monitor and moves the
prediction on by a period. -/
def Obligations.VerdictsFollowTheWindow : Prop :=
  ∀ (s : State) (x : RefIn) (r : RefSt) (m n k tn tick pos : Nat) (p : Pend) (at0 : Int) (hz : Nat),
    let i := x.idx
    let u := ({ s with prism := { s.prism with now := s.prism.now + s.tickSpan, tick := s.prism.tick + 1 } } : State).runMonitors x
    let v := if u.refLive i then (((u.ref i).soaks (s.prism.tick + 1)).verdict (u.countedRes i) s.tn (s.prism.tick + 1)).v else 2
    (r.forced = none → r.v = 0 → r.win = none → r.pend = [] → 0 < r.cd →
      r.verdict [(m, true)] tn tick = { r with v := 1, cause := 2 ^ m, win := some tn, pend := [⟨m, tn + r.cd, tn, 0, false⟩] }) ∧
    (r.forced = none → r.v = 1 → r.win = some n → tn < n + 8 → r.pend = [p] → p.raised < tn → p.due = tn →
      (p.again = false → r.verdict [(p.mon, false)] tn tick = { r with v := 0, cause := 0, win := none, pend := [] }) ∧
      (p.again = false → p.results = 0 →
        r.verdict [] tn tick = { r with v := 2, cause := 2 ^ p.mon, win := none, pend := [], soak := some tick }) ∧
      r.verdict [(p.mon, true)] tn tick = { r with v := 2, cause := 2 ^ p.mon, win := none, pend := [], soak := some tick }) ∧
    (r.forced = none → r.v = 2 → r.soak = some k →
      r.verdict [(m, true)] tn tick = { r with soak := some tick } ∧
      (bitsOf r.lim1 PRS_LIM1_SOAK.lo PRS_LIM1_SOAK.width * 32000 ≤ tick - k →
        r.verdict [] tn tick = { r with v := 0, cause := 0, soak := none }) ∧
      (tick - k < bitsOf r.lim1 PRS_LIM1_SOAK.lo PRS_LIM1_SOAK.width * 32000 → r.verdict [] tn tick = r)) ∧
    (i < 32 → s.judgesAlone i = true → (s.ref i).forced = none →
      ((s.ref i).pend.any (fun p => p.due ≤ s.tn) = true ∨ (s.ref i).win = some n ∧ n + 8 ≤ s.tn →
        ∃ t, exec (.monitorDue x) s = .next t ∧ t.verdictOf i = v % 4 ∧ t.prism.tick = s.prism.tick ∧ t.prism.now = s.prism.now ∧
          (∀ j, j ≠ i → t.ref j = s.ref j) ∧ t.mil = s.mil ∧ t.ens = s.ens) ∧
      ((s.ref i).v = 2 → (s.ref i).soak ≠ none → v = 0 → u.refLive i = true →
        ∃ t, exec (.soakEnd x) s = .next t ∧ t.verdictOf i = 0 ∧ (t.ref i).soak = none ∧ (∀ j, j ≠ i → t.ref j = s.ref j))) ∧
    ((s.ref m).pred = some at0 → s.refHz m = some hz → hz < 32000 → s.refLive m = true →
      at0 + bitsOf (s.ref m).lim1 PRS_LIM1_ACTWIN.lo PRS_LIM1_ACTWIN.width * 500000 < s.prism.now + pos →
      ∃ t, exec (.missingEdge m pos) s = .next t ∧
        t.prism.refs = s.prism.refs.modify m (fun y => { y with res := y.res ++ [(0, true)], pred := some (at0 + s.edgePeriod m) }) ∧
        { t with prism := { t.prism with refs := s.prism.refs } } = s)

/-- R193–R196: what comes over the time-code inputs. A sentence or frame with a bad checksum or parity counts CKSUM, one that
cannot be read, or comes with no edge to name, counts FORMAT. With ALIGN = 1 a good sentence waits for the next edge; with
ALIGN = 0 one that ends within 900 ms of its edge gives it its second, as a good IRIG-B frame does; a bad frame leaves its
edge without one. The result passes where it continues the second before, agrees with the LTC of a locked time channel, and
the UTC offset is valid or not needed; the monitor of index 48 has it. That a second sentence for one edge changes nothing
is the model's choice (log entry 62). On-time edges that came before a sentence in its tick are taken before it. -/
def Obligations.TimecodesAreRead : Prop :=
  ∀ (s : State) (x0 : TodIn) (y : IrigIn) (sec at2 : Nat) (off : Int) (li : Bool),
    let x := { x0 with edges := [] }
    let tc := s.prism.tc
    let waits := tc.edge = some (sec, at2, off, li) ∧ tc.done = false
    let idle := tc.edge = none ∨ tc.done = true
    let err := PRS_TC_ERR_CKSUM.idx
    let bump := fun (t : State) (f : Fld) => t.get prsR f = min (s.get prsR f + 1) (2 ^ f.width - 1)
    let count := fun (o : Host.Outcome State Fault Refusal) (f : Fld) => ∃ t, o = .next t ∧ bump t f ∧
      s.others t [prsR + f.idx] ∧ { t with regs := s.regs } = s
    let result := fun (t : State) (v : Option Int) (utc : Bool) =>
      let fails := v = none ∨ tc.prev.any (fun e => v != some (e.1 + Int.ofNat e.2)) = true ∨
        (s.on ltcR LTC_STATUS_SET = true ∧ s.qualState = 3 ∧ v ≠ some (if 250000000000 ≤ at2 then (sec : Int) + 1 else sec)) ∨
        (utc = true ∧ s.on ltcR LTC_UTCOFF_VALID = false)
      t.prism.tc.done = true ∧ t.prism.tc.prev = (match v with | some w => some (w, 0) | none => tc.prev) ∧
      (fails → t.on prsR PRS_TC_STATUS_LOCK = false ∧ bump t PRS_TC_ERR_TODFAIL ∧
        t.prism.refs = s.prism.refs.modify 48 (fun r => { r with res := r.res ++ [(4, true)] })) ∧
      (¬fails → t.on prsR PRS_TC_STATUS_LOCK = true ∧ t.get prsR PRS_TC_ERR_TODFAIL = s.get prsR PRS_TC_ERR_TODFAIL ∧
        t.prism.refs = s.prism.refs.modify 48 (fun r => { r with res := r.res ++ [(4, false)] })) ∧
      (v = none → bump t PRS_TC_ERR_MISSING) ∧ s.others t [prsR + PRS_TC_STATUS_LOCK.idx, prsR + err] ∧
      { t with regs := s.regs, prism := { t.prism with tc := tc, refs := s.prism.refs } } = s
    let tod := s.on prsR PRS_TC_CFG_EN = true ∧ s.on prsR PRS_TC_CFG_SRC = false ∧ x.known = true
    let good := x.cksum = true ∧ x.wellFormed = true ∧ (x.rmc = true → x.active = true)
    let utc := clockSeconds x.year (dayOfYear x.year x.month x.day) x.hour x.min x.sec
    let now := s.ltc.sec * 1000000000 + s.ltc.ns + x.ends
    let inTime := now * 500 ≤ sec * 500000000000 + at2 + 450000000000
    (s.on prsR PRS_TC_CFG_EN = false → exec (.todSentence x0) s = .next s) ∧
    (s.on prsR PRS_TC_CFG_EN = true → exec (.todSentence x0) s = exec (.todSentence x) (s.tcEarly x0.edges)) ∧
    (¬tod → exec (.todSentence x) s = .next s) ∧
    (tod → x.cksum = false → count (exec (.todSentence x) s) PRS_TC_ERR_CKSUM) ∧
    (tod → x.cksum = true → ¬good → count (exec (.todSentence x) s) PRS_TC_ERR_FORMAT) ∧
    (tod → good → s.on prsR PRS_TC_CFG_ALIGN = true → exec (.todSentence x) s = .next { s with prism := { s.prism with
      tc := { tc with next := (utc, x.sec == 60, now) :: tc.next } } }) ∧
    (tod → good → s.on prsR PRS_TC_CFG_ALIGN = false →
      (tc.edge = none → count (exec (.todSentence x) s) PRS_TC_ERR_FORMAT) ∧
      (tc.edge = some (sec, at2, off, li) → ¬inTime → count (exec (.todSentence x) s) PRS_TC_ERR_FORMAT) ∧
      (tc.edge = some (sec, at2, off, li) → inTime → tc.done = true → exec (.todSentence x) s = .next s) ∧
      (waits → inTime → x.sec = 60 → li = false → count (exec (.todSentence x) s) PRS_TC_ERR_FORMAT) ∧
      (waits → inTime → (x.sec = 60 → li = true) → ∃ t, exec (.todSentence x) s = .next t ∧ result t (some (utc + off)) true ∧
        t.get prsR PRS_TC_ERR_FORMAT = s.get prsR PRS_TC_ERR_FORMAT)) ∧
    let ts := s.get prsR PRS_TC_CFG_TS
    let bad := fun (f : Fld) => (idle → count (exec (.irigBFrameReceived y) s) f) ∧
      (waits → ∃ t, exec (.irigBFrameReceived y) s = .next t ∧ result t none true ∧ bump t f)
    let read := clockSeconds (s.irigYear y) (y.doy - 1) y.hour y.min y.sec -
      (if ts = 1 ∧ codeCtl y.code then y.offset * 1800 else 0)
    let control := fun (t : State) =>
      (codeCtl y.code = true → t.on prsR PRS_TC_STATUS_LSP = y.leapPending ∧ t.on prsR PRS_TC_STATUS_LSS = y.leapSign ∧
        t.get prsR PRS_TC_STATUS_TQ = y.tq % 16 ∧ t.prism.tc.dst = y.dst ∧
        t.prism.tc.carries = some (y.leapPending && !y.leapSign, y.leapPending && y.leapSign)) ∧
      (codeCtl y.code = false → t.get prsR PRS_TC_STATUS_LSP = s.get prsR PRS_TC_STATUS_LSP ∧
        t.get prsR PRS_TC_STATUS_LSS = s.get prsR PRS_TC_STATUS_LSS ∧ t.get prsR PRS_TC_STATUS_TQ = s.get prsR PRS_TC_STATUS_TQ ∧
        t.prism.tc.dst = tc.dst ∧ t.prism.tc.carries = none)
    (s.irigTaken y = false → exec (.irigBFrameReceived y) s = .next s) ∧
    (s.irigTaken y = true →
      (codeCtl y.code = true → y.parity = false → bad PRS_TC_ERR_CKSUM) ∧
      ((codeCtl y.code = true → y.parity = true) → y.wellFormed = false ∨ State.irigAgrees y = false → bad PRS_TC_ERR_FORMAT) ∧
      ((codeCtl y.code = true → y.parity = true) → y.wellFormed = true → State.irigAgrees y = true →
        (idle → ∃ t, exec (.irigBFrameReceived y) s = .next t ∧ control t ∧ bump t PRS_TC_ERR_FORMAT ∧ t.prism.tc.done = tc.done) ∧
        (waits → y.sec = 60 → li = false → ∃ t, exec (.irigBFrameReceived y) s = .next t ∧ control t ∧ result t none true ∧
          bump t PRS_TC_ERR_FORMAT) ∧
        (waits → (y.sec = 60 → li = true) → ∃ t, exec (.irigBFrameReceived y) s = .next t ∧ control t ∧
          result t (some (if ts = 2 then read else read + off)) (ts != 2) ∧
          t.get prsR PRS_TC_ERR_FORMAT = s.get prsR PRS_TC_ERR_FORMAT)))

/-- R259, R276, R290: a channel that runs, is not forced and has no change waiting. After CNT samples within THR in ACQUIRE it
goes to LOCKED, cause 1; after ULCNT samples beyond 4 × THR in LOCKED it goes to ACQUIRE, cause 1; each at the next
boundary. A speculation whose reference is not GOOD in its eighth tick commits. -/
def Obligations.ChannelsLockAndUnlock : Prop :=
  ∀ (s : State) (c n j k : Nat),
    let x := s.chan c
    let runs := s.millerRuns = true ∧ x.on = true ∧ x.frozen = none ∧ x.changes = [] ∧ s.milForce c = 0 ∧ s.hasSource c = true
    (runs → s.milState c = 1 → s.get (milR c) MIL_LOCK_CNT ≤ x.c.lockN →
      exec (.channelLock c) s = .next { s with mil := s.mil.modify c (fun y => { y with changes := [⟨2, 1, x.ref⟩] }) }) ∧
    (runs → s.milState c = 1 → x.c.lockN < s.get (milR c) MIL_LOCK_CNT → exec (.channelLock c) s = .next s) ∧
    (runs → s.milState c = 2 → s.get (milR c) MIL_LOCK_ULCNT ≤ x.c.unlockN →
      ∃ t, exec (.channelUnlock c) s = .next t ∧ (t.chan c).changes = [⟨1, 1, x.ref⟩] ∧ (t.chan c).c.lockN = 0 ∧
        (t.chan c).c.unlockN = 0 ∧ (t.chan c).c.pk = 0 ∧ (∀ d, d ≠ c → t.chan d = s.chan d) ∧ { t with mil := s.mil } = s) ∧
    (runs → s.milState c = 2 → x.c.unlockN < s.get (milR c) MIL_LOCK_ULCNT → exec (.channelUnlock c) s = .next s) ∧
    (s.millerRuns = true → x.on = true → x.frozen = none → x.ending = none → x.specN = some n → n + 8 ≤ s.tn - 1 →
      x.ref = some j → s.verdictOf j ≠ 0 →
      ∃ t, exec (.speculationLimit c) s = .next t ∧ (t.chan c).ending = some true ∧
        (x.sidx = some k → (t.chan c).changes.head? = some ⟨2, 3, some k⟩ ∧ (s.selCur c = some k → (t.chan c).ref = some k)) ∧
        (∀ d, d ≠ c → t.chan d = s.chan d))

/-- R219–R221, R226, R233: an ensemble's slots at the end of a tick. LEARN ends in IN with the mean square residual learned and,
where OMODE asks for it, the mean taken into d, or in TSUSP with cause 3 where the mean is over DMAX; TAMPER rejoins as OUT;
every 2^ATAU s the Allan estimates move; the Hearth anchor is taken where it is due; an asymmetry window ends in OUT with
fewer than 16 samples, where Herald's quarantine starts, in TSUSP with cause 4 over AMAX, or in IN with the correction
applied. -/
def Obligations.EnsembleSlotsMove : Prop :=
  ∀ (s : State) (e m : Nat) (z z1 z2 : Rat) (l : List Rat), e < 8 → m < 8 →
    let nsU : Rat := 500
    let acc := (s.slot e m).acc
    let learned := acc.take (2 ^ s.get (ensR e) GLB_ENS_CFG_OTC)
    let dmax : Rat := (s.get (ensR e) GLB_ENS_ACFG_DMAX : Rat) * 10 * nsU
    let amax : Rat := (s.get (ensR e) GLB_ENS_ACFG_AMAX : Rat) * 10 * nsU
    let wide := dmax ≠ 0 ∧ dmax < |State.meanOf learned|
    let pi := s.mIdx e m - 36
    ((s.ensOf e).on = true → s.mState e m = 1 → 2 ^ s.get (ensR e) GLB_ENS_CFG_OTC ≤ acc.length →
      ∃ t, exec (.learnEnd e m) s = .next t ∧ (t.slot e m).ms = State.meanOf (learned.map (fun r => r * r)) ∧
        (t.slot e m).acc = [] ∧ (wide → (t.slot e m).learned = false ∧ (t.slot e m).d = (s.slot e m).d) ∧
        (¬wide → (t.slot e m).learned = true ∧ (t.slot e m).d =
          if s.on (ensR e) GLB_ENS_CFG_OMODE = true ∨ (s.slot e m).pil = true then (s.slot e m).d
          else q16 ((s.slot e m).d + State.meanOf learned)) ∧
        (wide → t.mState e m = 4 ∧ t.get (emsR e m) GLB_EM_STAT_CAUSE = 3) ∧
        (¬wide → t.mState e m = 2 ∧ t.get (emsR e m) GLB_EM_STAT_CAUSE = 0) ∧
        (∀ k, k < 8 → k ≠ m → t.mState e k = s.mState e k)) ∧
    ((s.ensOf e).on = true → s.mState e m = 5 → s.on (ensR e) GLB_ENS_CFG_AUTO = true → (s.slot e m).tpass.2 = true →
      s.get (ensR e) GLB_ENS_TCFG_REJOIN * 32000 ≤ (s.slot e m).tpass.1 →
      ∃ t, exec (.tamperRejoin e m) s = .next t ∧ t.mState e m = 0 ∧ t.get (emsR e m) GLB_EM_STAT_CAUSE = 0 ∧
        t.get (emsR e m) GLB_EM_STAT_FAILS = 0 ∧ (∀ k, k < 8 → k ≠ m → t.mState e k = s.mState e k)) ∧
    ((s.ensOf e).on = true → s.on (ensR e) GLB_ENS_CFG_WMODE = true →
      (s.ensOf e).atick + 32000 * 2 ^ s.get (ensR e) GLB_ENS_CFG_ATAU ≤ s.prism.tick →
      ∃ t, exec (.allanWeightUpdate e) s = .next t ∧
        (t.ensOf e).atick = (s.ensOf e).atick + 32000 * 2 ^ s.get (ensR e) GLB_ENS_CFG_ATAU ∧
        (∀ k, s.mState e k ≠ 2 → t.slot e k = s.slot e k) ∧
        (s.mState e m = 2 → (s.slot e m).z = some z → (s.slot e m).zs = z1 :: z2 :: l → (s.slot e m).nd < 15 →
          let tau : Rat := (2 ^ s.get (ensR e) GLB_ENS_CFG_ATAU : Nat)
          let D := z - 2 * z1 + z2
          (t.slot e m).v = (s.slot e m).v + (D * D / (2 * tau * tau) - (s.slot e m).v) / 16 ∧ (t.slot e m).zs = [z, z1] ∧
            (t.slot e m).nd = (s.slot e m).nd + 1)) ∧
    (s.reanchorDue e = true →
      ∃ t, exec (.hearthReanchor e) s = .next t ∧ t.on (ensR e) GLB_ENS_STATUS_HANCH = true ∧
        (t.ensOf e).anchor = (s.ensOf e).x.map (fun v => (v, (s.ensOf e).fe, s.prism.tick, s.prism.now)) ∧ (t.ensOf e).dH = 0 ∧
        s.others t [ensR e + GLB_ENS_STATUS_HANCH.idx] ∧ { t with regs := s.regs, ens := s.ens } = s) ∧
    (s.asymDue e = true → m = s.get (ensR e) GLB_ENS_STATUS_ASLOT → s.mState e m = 3 → 36 ≤ s.mIdx e m → s.mIdx e m < 44 →
      ∃ t, exec (.asymWindowEnd e) s = .next t ∧ (t.ensOf e).asymEnd = none ∧ t.prism.asymOut = [] ∧
        (acc.length < 16 → t.mState e m = 0 ∧ t.on (pjR pi) HRD_PI_JSTAT_QUARN = true ∧
          (t.pi pi).quarEnd = some (s.prism.tick + s.get (pjR pi) HRD_PI_PATH_QUAR * 32000)) ∧
        (16 ≤ acc.length → amax < |State.meanOf acc| → t.mState e m = 4 ∧ t.get (emsR e m) GLB_EM_STAT_CAUSE = 4 ∧
          t.on (pjR pi) HRD_PI_JSTAT_PATHS = false) ∧
        (16 ≤ acc.length → |State.meanOf acc| ≤ amax → t.mState e m = 2 ∧ (t.slot e m).ms = (s.slot e m).ms ∧
          t.on (pjR pi) HRD_PI_JSTAT_PATHS = false ∧
          t.getI (pjR pi) HRD_PI_PCOR_PCOR = clampI (-2147483648) 2147483647
            (s.getI (pjR pi) HRD_PI_PCOR_PCOR - Config.quant (State.meanOf acc / nsU * 256))))

/-- R309–R312, R317: at the end of an interval that its boundary has closed the Hearth appends its entry to the history, which
holds 4,096, keeps each running channel's mean, and asks for a refit; every 1,024 ticks it takes a reading from the source
TSRC selects, and holds the last one while the thermistor is open or shorted; TOUT stands while the reading is outside the
model's temperatures. -/
def Obligations.HearthLearns : Prop :=
  ∀ (s : State) (die v : Int) (therm : Option Int) (k : Nat) (h : ClosedIv) (md : Model),
    (s.hearth.closed = some h →
      let n : Rat := if h.ticks = 0 then 1 else h.ticks
      let mean := fun (c : Nat) => (h.sums.getD c (0, false)).1 / n
      let ent : HistEnt := { sec := h.sec, y := mean s.learnChan, t := h.tsum / n,
                             flags := if h.ticks = 0 then h.flags ||| 1 else h.flags }
      ∃ t, exec .hearthIntervalEnd s = .next t ∧ t.hearth.closed = none ∧ t.hearth.count = s.hearth.count + 1 ∧
        t.hearth.modelNext ≠ none ∧ t.hearth.ivStart = s.hearth.ivStart ∧ t.hearth.ticks = s.hearth.ticks ∧
        (s.hearth.hist.length < 4096 → t.hearth.hist = s.hearth.hist ++ [ent]) ∧
        (s.hearth.hist.length = 4096 → t.hearth.hist = s.hearth.hist.drop 1 ++ [ent]) ∧
        (h.sums.length = s.mil.length → k < s.mil.length → k < 16 → (t.chan k).means =
          if (s.chan k).on = true ∧ s.milState k ≠ 0 then
            ((h.sec, mean k, ent.t, (h.sums.getD k (0, false)).2) :: (s.chan k).means).take 16
          else (s.chan k).means) ∧
        t.ltc = s.ltc ∧ t.prism = s.prism) ∧
    (s.hearth.closed = none → exec .hearthIntervalEnd s = .next s) ∧
    (3 ≤ s.mode → (s.hearth.tempTick = none ∨ s.hearth.tempTick = some k ∧ k + 1024 ≤ s.prism.tick) →
      let ext := s.get glb1R GLB_HRT_CFG_TSRC = 1
      (ext → therm = none → ∃ t, exec (.temperatureReading die therm) s = .next t ∧ t.hearth.temp = s.hearth.temp ∧
        t.get glb1R GLB_HRT_TEMP_TEMP = s.get glb1R GLB_HRT_TEMP_TEMP ∧ t.hearth.tempTick = some s.prism.tick ∧ 15 ∈ t.wd.held) ∧
      ((if ext then therm = some v else die = v) → -32768 ≤ v → v < 32768 →
        ∃ t, exec (.temperatureReading die therm) s = .next t ∧ t.getI glb1R GLB_HRT_TEMP_TEMP = v ∧ t.hearth.temp = (v : Rat) / 256 ∧
          t.hearth.tempTick = some s.prism.tick ∧ 15 ∉ t.wd.held ∧
          s.others t [glb1R + GLB_HRT_TEMP_TEMP.idx, glb1R + GLB_HRT_STATUS_TOUT.idx] ∧
          { t with regs := s.regs, hearth := s.hearth, host := s.host, wd := { t.wd with held := s.wd.held } } = s ∧
          (s.hearth.model = none → t.on glb1R GLB_HRT_STATUS_TOUT = false ∧ t.host = s.host) ∧
          (s.hearth.model = some md → md.tfit = true →
            let g : Rat := (s.get glb1R GLB_HRT_CFG1_TMARG : Rat) / 4
            t.on glb1R GLB_HRT_STATUS_TOUT = Decidable.decide (md.tmax + g < t.hearth.temp ∨ t.hearth.temp < md.tmin - g)))) ∧
    (s.mode < 3 ∨ s.hearth.tempTick = some k ∧ s.prism.tick < k + 1024 → exec (.temperatureReading die therm) s = .next s)

/-! ## Looms, outputs and generators -/

/-- R338, R340–R343, R347: a coarse measurement keeps its band where it measures at or below N × FC; at the end of the check the
Loom is LOCKED, its search recorded and its held outputs started; a failed attempt starts the next search until RETRY are
used up and FAIL follows; a loss of lock is counted and leaves UNLOCKED; a band hop moves one band and is counted; a glide
takes one of its equal steps at each boundary; a comb slew ends where nothing is left of it. -/
def Obligations.LoomsSearchAndLock : Prop :=
  ∀ (s : State) (n hz r cb k w bit b : Nat) (fb : Option Nat) (fine after : Int) (f g steps i last : Nat), n < s.nLom →
    let l := s.loomSt n
    let now := s.prism.tick
    let get := fun (u : State) (x : Fld) => u.get (lomR n) x
    let elsewhere := fun (t : State) => (∀ m, m ≠ n → t.loomSt m = s.loomSt m) ∧ t.mil = s.mil ∧ t.prism = s.prism ∧ t.ltc = s.ltc
    (l.search = some ⟨k, cb, .coarse bit b fb⟩ → k + 1 + 2 * (9 - bit) ≤ now → 0 < bit → bit ≤ 8 → b + 2 ^ bit < 512 →
      let kept := hz * 65536 ≤ l.n * l.fc
      let c := if kept then b + 2 ^ bit else b
      ∃ t, exec (.bandSearchMeasurement n hz) s = .next t ∧
        (t.loomSt n).search = some ⟨k, cb, .coarse (bit - 1) c (if kept then some hz else fb)⟩ ∧
        get t LOM_STATUS_BAND = c + 2 ^ (bit - 1) ∧ elsewhere t ∧
        s.others t [lomR n + LOM_STATUS_BAND.idx, lomR n + LOM_MEAS_FREQ.idx]) ∧
    (s.measDue n = false → exec (.bandSearchMeasurement n hz) s = .next s) ∧
    (l.search = some ⟨k, cb, .check w r⟩ → w ≤ now → cb < 512 → 1 ≤ r → r ≤ 4 →
      ∃ t, exec (.loomLock n) s = .next t ∧ t.loomState n = 2 ∧ t.loomSt n = { l with search := none, ofs := 0, slew := none } ∧
        get t LOM_STATUS_SLEW = 0 ∧ get t LOM_SRCH_TICKS = 29 + 2 * r ∧ get t LOM_SRCH_CBAND = cb ∧ get t LOM_SRCH_REFINE = r ∧ elsewhere t ∧
        (∀ o, o < s.nOut → (s.outSt o).en = true → s.outSrc o = n → s.outState o = 2 →
          t.outState o = if s.outWithin o then 5 else 4)) ∧
    (l.search = some ⟨k, cb, .failed w⟩ → w ≤ now →
      ∃ t, exec (.loomAttemptFail n) s = .next t ∧ elsewhere t ∧
        (l.tries ≤ get s LOM_CFG_RETRY → t.loomState n = 1 ∧ (t.loomSt n).tries = l.tries + 1 ∧
          (t.loomSt n).search = some ⟨w, 0, .coarse 8 0 none⟩ ∧ get t LOM_STATUS_BAND = 256) ∧
        (get s LOM_CFG_RETRY < l.tries → t.loomState n = 5 ∧ (t.loomSt n).search = none ∧
          get t LOM_CNT_FAILS = min (get s LOM_CNT_FAILS + 1) 255)) ∧
    ((l.search = none ∨ l.search = some ⟨k, cb, .check w r⟩) → exec (.loomAttemptFail n) s = .next s) ∧
    (s.loomUsable n = true →
      ∃ t, exec (.loomLossOfLock n) s = .next t ∧ t.loomState n = 4 ∧ get t LOM_CNT_LOSSES = min (get s LOM_CNT_LOSSES + 1) 255 ∧
        get t LOM_STATUS_SLEW = 0 ∧ elsewhere t) ∧
    (s.loomUsable n = false → l.search = some ⟨k, cb, .check w r⟩ → now + 8 < w → exec (.loomLossOfLock n) s = .next s) ∧
    (s.loomUsable n = false → l.search = some ⟨k, cb, .check w r⟩ → w ≤ now + 8 →
      ∃ t, exec (.loomLossOfLock n) s = .next t ∧ t.loomSt n = { l with search := some ⟨k, cb, .failed (now + 1)⟩ } ∧ elsewhere t ∧
        t.regs = s.regs) ∧
    (s.loomUsable n = true → s.on (lomR n) LOM_CFG_HOP = true → 75 < fine → get s LOM_STATUS_BAND < 511 →
      ∃ t, exec (.bandHop n fine after) s = .next t ∧ get t LOM_STATUS_BAND = get s LOM_STATUS_BAND + 1 ∧
        get t LOM_CNT_HOPS = min (get s LOM_CNT_HOPS + 1) 65535 ∧ t.getI (lomR n) LOM_STATUS_FINE = clampI (-100) 100 after ∧
        s.others t [lomR n + LOM_STATUS_BAND.idx, lomR n + LOM_CNT_HOPS.idx] ∧ { t with regs := s.regs } = s) ∧
    (s.on (lomR n) LOM_CFG_HOP = false ∨ fine.natAbs ≤ 75 → exec (.bandHop n fine after) s = .next s) ∧
    (l.glide = some (f, g, steps, i, last) → last < now →
      ∃ t, exec (.glideStep n) s = .next t ∧ elsewhere t ∧
        (i + 1 < steps → t.loomState n = 3 ∧ (t.loomSt n).glide = some (f, g, steps, i + 1, now) ∧
          (t.loomSt n).fc = (Config.quant ((f : Rat) + ((g : Rat) - f) * (i + 1 : Nat) / steps)).toNat) ∧
        (i + 1 = steps → t.loomState n = 2 ∧ (t.loomSt n).glide = none ∧ (t.loomSt n).fc = g)) ∧
    (l.slew ≠ none → s.slewLeft n = 0 →
      ∃ t, exec (.combSlewEnd n) s = .next t ∧ t.loomSt n = { l with slew := none } ∧ get t LOM_STATUS_SLEW = 0 ∧ elsewhere t ∧
        s.others t [lomR n + LOM_STATUS_SLEW.idx] ∧ { t with loom := s.loom, regs := s.regs } = s) ∧
    (s.slewLeft n ≠ 0 → exec (.combSlewEnd n) s = .next s)

/-- R351, R367, R369, R370, R378, R379: a bridge is ready 64 ticks after its subject was chosen; an output that starts is in RUN
from its first rising edge, which also ends its part in a group's reset and its phase-lost mark, and from which a bypass
divider counts; a fine-delay move of one 0.5 ps step in 10 ns ends in the tick in which it is there, and clears FSLEW; a
group's reset is over when every member has had its first edge; a SYNC_IN_N edge, after the first edges that came before it
in the tick (state `u`), is stamped, one that finds a group in reset is counted, and one resets the armed groups that are
not. R381, R385: the 1PPS edge of a second starts the outputs that carry it and is made once; a timecode frame starts at an
LTC second while the generator is enabled, TQ shows its quality, and the outputs that carry it start. -/
def Obligations.OutputsRunFromTheirLooms : Prop :=
  (∀ (s : State) (g o after k : Nat) (r : Int) (t0 p0 : Rat), g < 8 → o < s.nOut →
     let way : Rat := (s.get (outR o) OUT_DLY_FDLY : Rat) - p0
     let gone : Rat := ratMax 0 (s.oscS s.tickLeftUnits - t0) * 100000000
     (8 * g < s.nOut → s.on (bankR g) OUT_BANK_STATUS_BSUB_V = true → s.on (bankR g) OUT_BANK_STATUS_BRDY = false →
       ((s.bridgeSt g).since + 64 ≤ s.prism.tick → setsField s (.bridgeReady g) (bankR g) OUT_BANK_STATUS_BRDY 1) ∧
       (s.prism.tick < (s.bridgeSt g).since + 64 → exec (.bridgeReady g) s = .next s)) ∧
     (s.outSrc o < 8 → (s.outSt o).rise = some r → (s.outState o = 5 ∨ (s.outSt o).resetting = some k) →
       ((r : Rat) ≤ s.loomHalf (s.outSrc o) after →
         ∃ t, exec (.outputFirstEdge o after) s = .next t ∧ t.outState o = 1 ∧ t.outSt o = { s.outSt o with resetting := none } ∧
           ((s.outSt o).resetting = some k → t.on (outR o) OUT_STATUS_PLOST = false) ∧
           ((s.outSt o).resetting = none → t.on (outR o) OUT_STATUS_PLOST = s.on (outR o) OUT_STATUS_PLOST) ∧
           (∀ p, p ≠ o → t.outSt p = s.outSt p) ∧ s.others t [outR o + OUT_STATUS_STATE.idx] ∧ { t with regs := s.regs, out := s.out } = s) ∧
       (s.loomHalf (s.outSrc o) after < (r : Rat) → exec (.outputFirstEdge o after) s = .next s)) ∧
     (s.bypassDue o (s.oscS after) = true →
       ∃ t, exec (.outputFirstEdge o after) s = .next t ∧ t.outState o = 1 ∧
         t.outSt o = { s.outSt o with resetting := none, byp := some ⟨true, true, State.outHigh (s.outSt o), s.oscS after⟩ } ∧
         (∀ p, p ≠ o → t.outSt p = s.outSt p) ∧ s.others t [outR o + OUT_STATUS_STATE.idx] ∧ { t with regs := s.regs, out := s.out } = s) ∧
     ((s.outSt o).fmove = some (t0, p0) → gone < |way| → exec (.fineDelayMoveEnd o) s = .next s) ∧
     ((s.outSt o).fmove = some (t0, p0) → |way| ≤ gone →
       ∃ t, exec (.fineDelayMoveEnd o) s = .next t ∧ t.on (outR o) OUT_STATUS_FSLEW = false ∧
         t.outSt o = { s.outSt o with fmove := none } ∧ (∀ p, p ≠ o → t.outSt p = s.outSt p) ∧
         s.others t [outR o + OUT_STATUS_FSLEW.idx] ∧ { t with regs := s.regs, out := s.out } = s) ∧
     ((s.outSt o).fmove = none → exec (.fineDelayMoveEnd o) s = .next s) ∧
     (s.on tcdR (TCD_SG_STATUS_ACTIVE.bit g) = true →
       ((∀ x ∈ s.out, x.resetting ≠ some g) → setsField s (.syncGroupResetDone g) tcdR (TCD_SG_STATUS_ACTIVE.bit g) 0) ∧
       ((∃ x ∈ s.out, x.resetting = some g) → exec (.syncGroupResetDone g) s = .next s)) ∧
     (s.mode < 3 → exec (.syncInEdge after) s = .next s) ∧
     (3 ≤ s.mode →
       let u := (List.range 8).foldl State.sgEnd ((List.range s.nOut).foldl (fun v j => if v.firstDue j after then v.firstEdge j else v) s)
       let p := (s.ltc.ns * 2 ^ 32 + s.ltc.frac + (Config.quant ((after : Rat) / 500 * (1 + s.ltc.inc) * 2 ^ 32)).toNat : Nat)
       let busy := u.get tcdR TCD_SG_STATUS_ACTIVE
       let free := (List.range 8).filter (fun j => u.on tcdR (TCD_SG_CTL_ARM.bit j) && !u.on tcdR (TCD_SG_STATUS_ACTIVE.bit j))
       ∃ t, exec (.syncInEdge after) s = .next t ∧ t.get tcdR TCD_SYNC_S_S_LO = (recTime s.ltc.sec p).1 % 2 ^ 32 ∧
         t.get tcdR TCD_SYNC_NS_NS = (recTime s.ltc.sec p).2 / 65536 % 2 ^ TCD_SYNC_NS_NS.width ∧ t.ltc = s.ltc ∧ t.loom = s.loom ∧
         t.get tcdR TCD_SG_STATUS_IGN = (if busy = 0 then u.get tcdR TCD_SG_STATUS_IGN
           else min (u.get tcdR TCD_SG_STATUS_IGN + 1) (2 ^ TCD_SG_STATUS_IGN.width - 1)) ∧
         (free = [] → u.others t [tcdR + TCD_SYNC_S_S_LO.idx, tcdR + TCD_SYNC_NS_NS.idx, tcdR + TCD_SG_STATUS_IGN.idx] ∧ t.out = u.out) ∧
         (free = [g] →
           t.on tcdR (TCD_SG_CTL_ARM.bit g) = !u.on tcdR (TCD_SG_CTL_ONCE.bit g) ∧
           ((∀ j, j < u.nOut → (u.on (outR j) OUT_CFG_SGEN && u.get (outR j) OUT_CFG_SG == g) = false) → t.out = u.out) ∧
           ((u.on (outR o) OUT_CFG_SGEN && u.get (outR o) OUT_CFG_SG == g) = true → (u.outSt o).en = true → u.outSrc o < 8 →
             u.loomUsable (u.outSrc o) = true → u.outState o = 1 →
             (t.outSt o).resetting = some g ∧ t.on tcdR (TCD_SG_STATUS_ACTIVE.bit g) = true)))) ∧
  (∀ (s : State) (o : Nat) (q e : Int), o < s.nOut →
     let outs := fun (t : State) (k : Nat) => s.outState o = 5 → (t.outState o = if s.outSrc o = k then 1 else 5)
     (s.ppsOn = true → s.ppsEdgeAt = some (q, e) → s.tcd.last ≠ some q →
       ∃ t, exec .ppsEdge s = .next t ∧ t.tcd.last = some q ∧ t.ltc = s.ltc ∧ t.loom = s.loom ∧
         (s.tcd.pulseEnd = none → t.tcd.pulseEnd ≠ none ∧ outs t 9) ∧
         (∀ j, s.outSrc j ≠ 9 → t.outSt j = s.outSt j)) ∧
     (s.ppsOn = false ∨ s.ppsEdgeAt = none ∨ s.tcd.last = some q ∧ s.ppsEdgeAt = some (q, e) → exec .ppsEdge s = .next s) ∧
     (6 ≤ s.mode → bitsOf s.tcd.tc 0 1 = 1 → s.ltc.ns = 0 → s.tcd.frameSec ≠ some s.ltc.sec →
       ∃ t, exec .timecodeFrame s = .next t ∧ t.tcd.frameSec = some s.ltc.sec ∧ t.on tcdR TCD_TC_STATUS_RUN = true ∧
         t.get tcdR TCD_TC_STATUS_TQ = s.tcQuality (bitsOf s.tcd.tc 5 2) ∧ t.tcd.cut = false ∧ t.tcd.last = s.tcd.last ∧
         (∃ f, t.tcd.frame = some f ∧ f.manchester = (bitsOf s.tcd.tc 4 1 == 1) ∧ (f.year.isSome = true ↔ 4 ≤ bitsOf s.tcd.tc 1 3)) ∧
         outs t 10 ∧ t.ltc = s.ltc ∧ t.loom = s.loom) ∧
     (s.mode < 6 ∨ s.ltc.ns ≠ 0 ∨ s.tcd.frameSec = some s.ltc.sec → exec .timecodeFrame s = .next s))

/-! ## Lens and Tally -/

/-- R400, R401, R403, R405–R407, R410, R411: the signal's passing a level is an edge where it switches the comparator, at THR
rising and at THR − HYS falling. A selected edge of an enabled input that passes the 2.0 ns dead time is stamped for Tally
and, with STREAM = 1, written as one stream record; one inside the dead time is counted and not stamped; one that is not
selected only switches the comparator. An ARMED unit opens on its start, an OPEN one takes its stops up to the 64th, and its
window ends at start + WIN. -/
def Obligations.EdgesAreStamped : Prop :=
  ∀ (s : State) (i pos u j : Nat) (c : Crossing) (l : Int), i < s.nLns → s.inTick pos = true → u < 2 →
    let rising := c.rising
    let thr := signed (s.lensIn i).thr 12
    let switched := if rising = true then s.on (lniR i) LNS_IN_STATUS_LVL = false ∧ c.mv = thr
      else s.on (lniR i) LNS_IN_STATUS_LVL = true ∧ c.mv = thr - (s.lensIn i).hys
    let raw := lensStamp (s.ltcRaw pos)
    let now : Int := (s.ltcRaw pos : Int) - s.ltc.stepped
    let sl := s.get (lniR i) LNS_IN_CFG_SLOPE
    let selected := sl = 2 ∨ sl = 3 ∨ (sl = 0 ∧ rising = true) ∨ (sl = 1 ∧ rising = false)
    let live := 7 ≤ s.mode ∧ s.mode ≤ 12 ∧ s.on pwrR PWR_STATUS_CHG = false ∧ s.on (lniR i) LNS_IN_CFG_EN = true
    let idle := s.unitState 0 = 0 ∧ s.unitState 1 = 0
    let x := s.unit u
    (¬switched → exec (.lensEdge i c pos) s = .next s) ∧
    (switched → ¬(selected ∧ live) → setsField s (.lensEdge i c pos) (lniR i) LNS_IN_STATUS_LVL rising.toNat) ∧
    (switched → selected → live → ((s.lensIn i).last = none ∨ (s.lensIn i).last = some l ∧ 2 * 2 ^ 32 ≤ now - l) →
      ∃ t, exec (.lensEdge i c pos) s = .next t ∧ t.on (lniR i) LNS_IN_STATUS_LVL = rising ∧
        t.lens.ins = s.lens.ins.modify i (fun y => { y with last := some now }) ∧
        t.tally = { s.tally with stamps := s.tally.stamps ++ [(i, raw)] } ∧ t.get (lniR i) LNS_MISS_COUNT = s.get (lniR i) LNS_MISS_COUNT ∧
        (s.on (lniR i) LNS_IN_CFG_STREAM = false → t.lens.stream = s.lens.stream ∧ t.seqs = s.seqs) ∧
        (s.on (lniR i) LNS_IN_CFG_STREAM = true →
          let p := lensTime (s.ltcRaw pos)
          t.lens.stream = s.lens.stream ++ [(i, (s.lensIn i).ring,
            timeRec p.1 p.2 (0x40 + i) (!rising).toNat 0 s.qual (s.nextSeq (0x40 + i)).1)]) ∧
        (idle → s.others t [lniR i + LNS_IN_STATUS_LVL.idx] ∧ t.lens.units = s.lens.units) ∧ t.ltc = s.ltc ∧ t.lens.buf = s.lens.buf) ∧
    (switched → selected → live → (s.lensIn i).last = some l → now - l < 2 * 2 ^ 32 →
      ∃ t, exec (.lensEdge i c pos) s = .next t ∧ t.lens.ins = s.lens.ins ∧ t.tally = s.tally ∧ t.lens.stream = s.lens.stream ∧
        t.get (lniR i) LNS_MISS_COUNT = min (s.get (lniR i) LNS_MISS_COUNT + 1) (2 ^ 32 - 1)) ∧
    (switched → selected → live → (∀ y ∈ x.last, y.1 ≠ i) →
      ∃ t, exec (.lensEdge i c pos) s = .next t ∧
        (s.unitState u = 1 → x.start = i → x.hist = [] → t.unitState u = 2 ∧ t.get (bstR u) LNS_BST_STATUS_NSTOPS = 0) ∧
        (s.unitState u = 2 → s.burstOver u now = false → x.stops / 2 ^ i % 2 = 1 → x.got.length < 64 →
          t.unitState u = (if x.got.length = 63 then 3 else 2) ∧ t.get (bstR u) LNS_BST_STATUS_NSTOPS = x.got.length + 1 ∧
          (t.unit u).got = x.got ++ [⟨i, rising, now⟩]) ∧
        (s.unitState u = 3 → t.unitState u = 3 ∧ t.unit u = x)) ∧
    (s.burstOver u (now + 1) = true →
      ∃ t, exec (.burstWindowEnd u pos) s = .next t ∧ t.unitState u = 3 ∧ t.unit u = { x with endc := 0 } ∧ (j ≠ u → t.unit j = s.unit j) ∧
        s.others t [bstR u + LNS_BST_STATUS_STATE.idx] ∧ { t with lens := s.lens, regs := s.regs } = s) ∧
    (s.burstOver u (now + 1) = false → exec (.burstWindowEnd u pos) s = .next s)

/-- R435, R437, R439, R449, R451: a STAT window closes with its N-th sample and a FREQ window at its gate edge, each counted and
followed by the next window; the sentinel's window closes at its gate edge, without values where LOST was set or fewer than
three edges came; LOST is set, and counted, where 4/FNOM pass with no used edge by the end of the running tick. -/
def Obligations.TallyWindowsClose : Prop :=
  ∀ (s : State) (m v e w : Nat) (x : Int) (sp : Bool), m < 64 →
    let y := s.meas m
    let z := s.tally.sen
    let counted := fun (t : State) => t.get (tlyR m) TLY_CNT_WIN = min (s.get (tlyR m) TLY_CNT_WIN + 1) 65535
    let us := s.tally.work.filter (fun p => p.1 == s.get senR TLY_SEN_CFG_IN)
    let runs := s.tallyRuns = true ∧ y.absorbed = false ∧ s.tmState m = 1 ∧ s.get (tlyR m) TLY_CFG_SRCK = 1 ∧ y.samp = some (x, sp)
    let elsewhere := fun (t : State) => (∀ k, k ≠ m → t.meas k = s.meas k) ∧ t.tally.sen = z ∧ t.ltc = s.ltc
    (runs → s.tmKind m = 0 → s.get (tlyR m) TLY_N_N ≤ y.samples.length + 1 →
      ∃ t, exec (.tallyWindowClose m) s = .next t ∧ counted t ∧ t.tmState m = 1 ∧ (t.meas m).samples = [] ∧
        (t.meas m).winAt = some s.tn ∧ (t.meas m).absorbed = true ∧ elsewhere t) ∧
    (runs → s.tmKind m = 0 → y.samples.length + 1 < s.get (tlyR m) TLY_N_N → exec (.tallyWindowClose m) s = .next s) ∧
    (runs → s.tmKind m = 1 → s.edgeDue m s.tn = some e →
      ∃ t, exec (.tallyWindowClose m) s = .next t ∧ counted t ∧ t.tmState m = 1 ∧ (t.meas m).samples = [(s.ltcRaw 0, x)] ∧
        (t.meas m).winAt = some e ∧ (t.meas m).slotAt = e ∧ elsewhere t) ∧
    (s.senOn = true → z.absorbed = false → z.winAt = some w → 0 < s.get senR TLY_SEN_GATE_GATE →
      (w + 32 * s.get senR TLY_SEN_GATE_GATE ≤ s.tn →
        ∃ t, exec .sentinelWindowClose s = .next t ∧ t.tally.sen.winAt = some (w + 32 * s.get senR TLY_SEN_GATE_GATE) ∧
          t.tally.sen.edges = [] ∧ t.tally.sen.absorbed = true ∧ t.tally.sen.pub ≠ none ∧ t.tally.meas = s.tally.meas ∧ t.ltc = s.ltc ∧
          (z.lost = true ∨ z.edges.length + us.length < 3 → ∃ fl, t.tally.sen.pub = some (fl, 0, 0, 0) ∧ fl % 2 = 0)) ∧
      (s.tn < w + 32 * s.get senR TLY_SEN_GATE_GATE → exec .sentinelWindowClose s = .next s)) ∧
    (s.senOn = true → z.last = some v →
      let limit : Rat := (v : Rat) + 8 * s.senHalf
      let waits := ((if z.absorbed then [] else s.tally.work) ++ s.tally.stamps).filter (fun p => p.1 == s.get senR TLY_SEN_CFG_IN)
      let used := fun (p : Nat × Nat) => s.senHalf ≤ (p.2 : Rat) - v ∧ (p.2 : Rat) < limit
      (z.lost = false → limit < (s.ltcRaw s.tickRest : Rat) → (∀ p ∈ waits, ¬used p) →
        ∃ t, exec .sentinelLost s = .next t ∧ t.tally.sen = { z with lost := true, lostIn := true, lostNow := true } ∧
          t.get senR TLY_SEN_CNT_LOSTS = min (s.get senR TLY_SEN_CNT_LOSTS + 1) 65535 ∧ t.tally.meas = s.tally.meas ∧ t.ltc = s.ltc) ∧
      (z.lost = true ∨ (s.ltcRaw s.tickRest : Rat) ≤ limit ∨ (∃ p ∈ waits, used p) → exec .sentinelLost s = .next s))

/-! ## Herald -/

/-- R463, R467, R471, R472, R484, R505, R507: a port's link and what its loss does; the PTP messages of a multicast instance. An
exchange gives its offset and path delay from its times, unless an LTC step lies inside it; a path delay more than PSTEP off
is an outlier and not filtered in; requests put their answers in the queue; a frame no instance takes is discarded and
counted. -/
def Obligations.ExchangesAreFormed : Prop :=
  ∀ (s : State) (m : PtpIn) (p k j : Nat) (align : Bool) (par : Parent) (d ms t2 y t4 t2p cp : Int) (w : SyncWait) (dq : DelayReq),
    let sat := fun (f : Fld) (v : Nat) => min (v + 1) (2 ^ f.width - 1)
    let x := s.pi k
    let taken := fun (peer : Bool) => s.hears m.port m.raw = true ∧ s.piMatch m peer = some k ∧ s.piUnicast k = false
    let parent := x.parent = some par ∧ par.port = m.port
    let mine := parent ∧ par.clk = m.clk ∧ par.pnum = m.pnum
    let answers := m.rclk = s.piId k ∧ m.rpnum = m.port + 1
    let counted := fun (t : State) (f : Fld) => t.get (hrpR m.port) f = sat f (s.get (hrpR m.port) f)
    let elsewhere := fun (t : State) => (j ≠ k → t.pi j = s.pi j) ∧ t.ltc = s.ltc
    let pstep : Int := s.get (pjR k) HRD_PI_PATH_PSTEP * 65536
    let inTime := s.stepBetween m.ts (s.ingress m) = false
    let o := s.ingress m - m.ts - m.corr - d - s.piAsym k m.port
    -- the link
    (p < s.nHrd → s.portTrains p = true →
      ∃ t, exec (.portLinkChange p true align) s = .next t ∧ t.on (hrpR p) HRD_PORT_STATUS_LINK = true ∧
        t.on (hrpR p) HRD_PORT_STATUS_ALIGN = align ∧ s.others t [hrpR p + HRD_PORT_STATUS_LINK.idx] ∧ t.hrd = s.hrd) ∧
    (p < s.nHrd → s.portLink p = true → k < 8 →
      ∃ t, exec (.portLinkChange p false align) s = .next t ∧ t.portLink p = false ∧ t.ltc = s.ltc ∧
        (x.on = true → s.piUses k p = true → 6 ≤ s.mode → t.ps k p = 2)) ∧
    (p < s.nHrd → s.portTrains p = false → exec (.portLinkChange p true align) s = .next s) ∧
    -- Sync and Follow_Up
    (taken false → mine → m.twoStep = false → x.mpd = some d → x.outl = none → inTime →
      ∃ t, exec (.sync m) s = .next t ∧ counted t HRD_RX_SYNC_COUNT ∧ (t.pi k).ms = some (s.ingress m - m.ts - m.corr, s.ingress m) ∧
        (t.pi k).ex = x.ex ++ [(o, s.ingress m)] ∧ (t.pi k).lastEx = s.prism.tick ∧ (t.pi k).mpd = x.mpd ∧
        t.getI (piR k) HRD_PI_OFM_OFM = clampI (-2147483648) 2147483647 (qdiv o 256) ∧ elsewhere t) ∧
    (taken false → mine → m.twoStep = true →
      ∃ t, exec (.sync m) s = .next t ∧ counted t HRD_RX_SYNC_COUNT ∧ (t.pi k).ex = x.ex ∧ (t.pi k).ms = x.ms ∧
        (t.pi k).syncs = (⟨m.seq, s.ingress m, m.corr⟩ :: x.syncs.filter (fun v => v.seq != m.seq)).take 8 ∧ elsewhere t) ∧
    (taken false → mine → x.syncs.find? (fun v => v.seq == m.seq) = some w → x.mpd = some d → x.outl = none →
      s.stepBetween m.ts w.t2 = false →
      ∃ t, exec (.followUp m) s = .next t ∧ counted t HRD_RX_FUP_COUNT ∧
        (t.pi k).ex = x.ex ++ [(w.t2 - m.ts - (w.corr + m.corr) - d - s.piAsym k m.port, w.t2)] ∧
        (t.pi k).syncs = x.syncs.filter (fun v => v.seq != m.seq) ∧ elsewhere t) ∧
    (taken false → mine → m.twoStep = false → s.stepBetween m.ts (s.ingress m) = true →
      ∃ t, exec (.sync m) s = .next t ∧ counted t HRD_STEPDISC_COUNT ∧ (t.pi k).ex = x.ex ∧ (t.pi k).ms = x.ms ∧ elsewhere t) ∧
    -- requests
    (taken false → s.piP2P k = false → s.ps k m.port = 6 →
      ∃ t, exec (.delayReq m) s = .next t ∧ counted t HRD_RX_DREQ_COUNT ∧ t.pi k = x ∧ elsewhere t ∧ t.hrd.queue = s.hrd.queue ++
        [{ kind := 0, inst := k, port := m.port, slot := none, seq := m.seq, clk := m.clk, pnum := m.pnum, sig := 1, rx := s.ingress m, corr := m.corr }]) ∧
    (taken false → (s.piP2P k = true ∨ s.ps k m.port ≠ 6) →
      setsField s (.delayReq m) (hrpR m.port) HRD_RX_DREQ_COUNT (sat HRD_RX_DREQ_COUNT (s.get (hrpR m.port) HRD_RX_DREQ_COUNT))) ∧
    (taken true → (s.piP2P k = false ∨ s.ps k m.port = 2 ∨ s.ps k m.port = 3 ∨ s.silent k m.port = true) →
      setsField s (.pdelayReq m) (hrpR m.port) HRD_RX_PDLY_COUNT (sat HRD_RX_PDLY_COUNT (s.get (hrpR m.port) HRD_RX_PDLY_COUNT))) ∧
    (taken true → s.piP2P k = true → s.ps k m.port ≠ 2 → s.ps k m.port ≠ 3 → s.silent k m.port = false →
      ∃ t, exec (.pdelayReq m) s = .next t ∧ counted t HRD_RX_PDLY_COUNT ∧ t.pi k = x ∧ elsewhere t ∧ t.hrd.queue = s.hrd.queue ++
        [{ kind := 1, inst := k, port := m.port, slot := none, seq := m.seq, clk := m.clk, pnum := m.pnum, rx := s.ingress m, corr := m.corr }]) ∧
    -- path delay
    (taken false → mine → answers → x.dreqs.find? (fun v => v.port == m.port && v.seq == m.seq) = some dq → x.ms = some (ms, t2) →
      s.stepBetween t2 dq.sent = false → s.stepBetween dq.sent t2 = false → y = qdiv (ms + (m.ts - dq.sent - m.corr)) 2 →
      ∃ t, exec (.delayResp m) s = .next t ∧ counted t HRD_RX_DRESP_COUNT ∧ (t.pi k).dreqs = x.dreqs.erase dq ∧ elsewhere t ∧
        (x.mpd = none → (t.pi k).mpd = some y ∧ t.getI (piR k) HRD_PI_MPD_MPD = clampI (-2147483648) 2147483647 (qdiv y 256)) ∧
        (x.mpd = some d → |y - d| ≤ pstep →
          (t.pi k).mpd = some (d + qdiv (y - d) (2 ^ s.get (piR k) HRD_PI_IVL_MPDF)) ∧ (t.pi k).outl = none) ∧
        (x.mpd = some d → pstep < |y - d| → x.outl = none →
          (t.pi k).mpd = some d ∧ (t.pi k).outl = some y ∧ counted t HRD_PATHOUT_COUNT)) ∧
    (taken true → parent → s.piP2P k = true → answers →
      x.dreqs.find? (fun v => v.port == m.port && v.seq == m.seq) = some dq → x.mpd = none →
      (m.twoStep = true →
        ∃ t, exec (.pdelayResp m) s = .next t ∧ counted t HRD_RX_PDLY_COUNT ∧ (t.pi k).mpd = none ∧ elsewhere t ∧
          (t.pi k).dreqs = x.dreqs.map (fun e => if e = dq then { e with resp := some (s.ingress m, m.ts, m.corr) } else e)) ∧
      (m.twoStep = false → s.stepBetween dq.sent (s.ingress m) = false →
        ∃ t, exec (.pdelayResp m) s = .next t ∧ counted t HRD_RX_PDLY_COUNT ∧ elsewhere t ∧
          (t.pi k).mpd = some (qdiv (s.ingress m - dq.sent - 0 - m.corr) 2) ∧ (t.pi k).dreqs = x.dreqs.erase dq) ∧
      (dq.resp = some (t4, t2p, cp) → s.stepBetween dq.sent t4 = false →
        ∃ t, exec (.pdelayRespFollowUp m) s = .next t ∧ counted t HRD_RX_PDLY_COUNT ∧ elsewhere t ∧
          (t.pi k).mpd = some (qdiv (t4 - dq.sent - (m.ts - t2p) - (cp + m.corr)) 2) ∧ (t.pi k).dreqs = x.dreqs.erase dq)) ∧
    -- frames of no instance
    (s.hears m.port m.raw = true → (s.on (hrpR m.port) HRD_PORT_CFG_PTPHOST = false ∨ m.version ≠ 2) →
      let disc := fun (c : Instr) =>
        setsField s c (hrpR m.port) HRD_RX_DISC_COUNT (sat HRD_RX_DISC_COUNT (s.get (hrpR m.port) HRD_RX_DISC_COUNT))
      disc (.managementMessage m) ∧
      (s.piMatch m false = none → disc (.sync m) ∧ disc (.followUp m) ∧ disc (.delayReq m) ∧ disc (.delayResp m)) ∧
      (s.piMatch m true = none → disc (.pdelayReq m) ∧ disc (.pdelayResp m) ∧ disc (.pdelayRespFollowUp m))) ∧
    (s.heraldRuns = false → exec (.sync m) s = .next s ∧ exec (.followUp m) s = .next s ∧ exec (.delayReq m) s = .next s ∧
      exec (.delayResp m) s = .next s ∧ exec (.pdelayReq m) s = .next s ∧ exec (.pdelayResp m) s = .next s ∧
      exec (.pdelayRespFollowUp m) s = .next s ∧ exec (.managementMessage m) s = .next s)

/-- R475, R484, R495–R498: Announce messages and the unicast negotiation. A new foreign master is kept while a port holds fewer
than eight; a grantor grants what R496 allows and denies the rest; a grantee records a grant, counts a denial, renews at
three quarters of the duration and asks again; a cancelled type is acknowledged; a grant ends at its expiry. At most 488
entries are read in a tick, and a read that comes too late is charged and gives nothing. Frames that are not PTP pass the
address filter, and reach the host without their FCS. -/
def Obligations.SessionsAreNegotiated : Prop :=
  ∀ (s : State) (m : PtpIn) (a : Ann) (r : SigIn) (f : FrameIn) (k n t0 port : Nat) (x : Sess) (g : Grant) (d : Desc)
    (key : Nat × Nat × Nat) (w : Nat) (late : Bool),
    let sat := fun (f : Fld) (v : Nat) => min (v + 1) (2 ^ f.width - 1)
    let matched := s.hears m.port m.raw = true ∧ s.piMatch m false = some k
    let known := matched ∧ s.seOn = true ∧ s.piUnicast k = true ∧ s.sessOf k m.port m.addr = some (n, x) ∧ s.hrd.cache.contains n = true ∧
      (x.clk ≠ 0 ∨ x.pnum ≠ 0)
    let u := ((s.bump (hrpR m.port) HRD_RX_SIG_COUNT).cacheTouch n).learn n m
    let mult := fun (y : Sess) => if r.typ = 1 ∧ s.piTwoStep y.inst = true then 2 else 1
    let held := match x.grants.getD r.typ none with | some g => ivlRate g.l * mult x | none => 0
    let mac := s.get (hrpR f.port) HRD_MAC_HI_MAC * 2 ^ 32 + s.get (hrpR f.port) HRD_MAC_LO_MAC
    let ask := x.asks.getD t0 {}
    let request : Msg := 
      { kind := 6, inst := x.inst, port := x.port, slot := some n, seq := 0, tlv := ⟨t0, x.minl.getD t0 0, s.get hrcR HRD_SE_CFG_REQD⟩ }
    let asked := State.setAsk x t0 (fun b =>
      { b with sent := some s.prism.tick, retry := none, next := some (s.ltc.sec + 1 + 2 ^ min 4 b.fails) })
    let failed := fun (ty : Nat) => let back := min 4 (x.asks.getD ty {}).fails
      State.setAsk { x with denials := min 65535 (x.denials + 1) } ty (fun b =>
        { sent := none, retry := some (s.prism.tick + 32000 * 2 ^ back), fails := b.fails + 1, next := some (s.ltc.sec + 2 ^ back) })
    -- Announce
    (matched → s.piUnicast k = false → 4 ≤ s.ps k m.port → m.clk ≠ s.piId k →
      (s.piPort k m.port).foreign.length < 8 → (∀ y ∈ (s.piPort k m.port).foreign, y.clk ≠ m.clk ∨ y.pnum ≠ m.pnum) →
      ∃ t, exec (.announce m a) s = .next t ∧ t.get (hrpR m.port) HRD_RX_ANN_COUNT = sat HRD_RX_ANN_COUNT (s.get (hrpR m.port) HRD_RX_ANN_COUNT) ∧
        (t.pi k).annNew = true ∧ (t.pi k).ports = (s.pi k).ports.modify m.port (fun y =>
          { y with foreign := y.foreign ++ [⟨m.clk, m.pnum, none, a, m.logInt, [s.prism.tick], false⟩] }) ∧
        (∀ j, j ≠ k → t.pi j = s.pi j) ∧ t.hrd.sess = s.hrd.sess) ∧
    -- a grantor
    (known → x.request = false → x.inst = k → x.port = m.port → r.typ < 3 → u.mayGrant k m.port r.typ = true →
      x.minl.getD r.typ 0 ≤ r.logInt → State.p5Range r.typ r.logInt = true →
      u.portLoad m.port - held + ivlRate r.logInt * mult x ≤ s.get hrcR (HRD_SE_PCAP_CAP.at m.port) * 1000 →
      let dur := min r.dur (s.get hrcR HRD_SE_CFG_DMAX)
      ∃ t, exec (.requestUnicastTransmission m r) s = .next t ∧
        t.sess? n = some (State.setGrant x r.typ (some { l := r.logInt, exp := s.ltc.sec + dur, dur := dur, given := s.ltc.sec, start := s.tn + 1, old := State.grantNow x r.typ s.tn })) ∧
        t.hrd.queue = s.hrd.queue ++ [{ kind := 6, inst := k, port := m.port, slot := some n, seq := 0, sig := 1, tlv := { r with dur := dur } }]) ∧
    (known → (x.request = true ∨ x.inst = k ∧ x.port = m.port ∧ (3 ≤ r.typ ∨ r.logInt < x.minl.getD r.typ 0 ∨ State.p5Range r.typ r.logInt = false)) →
      ∃ t, exec (.requestUnicastTransmission m r) s = .next t ∧ t.sess? n = some x ∧
        t.get hrcR HRD_SE_CNT_DENY = sat HRD_SE_CNT_DENY (s.get hrcR HRD_SE_CNT_DENY) ∧
        t.hrd.queue = s.hrd.queue ++ [{ kind := 6, inst := k, port := m.port, slot := some n, seq := 0, sig := 1, tlv := { r with dur := 0 } }]) ∧
    -- a grantee
    (known → x.request = true → r.typ < 3 → (x.asks.getD r.typ {}).sent ≠ none →
      (r.dur ≠ 0 → ∃ t, exec (.grantUnicastTransmission m r) s = .next t ∧ t.hrd.queue = s.hrd.queue ∧
        t.sess? n = some (State.setAsk { (State.setGrant x r.typ (some
            { l := r.logInt, exp := s.ltc.sec + r.dur, dur := r.dur, given := s.ltc.sec, start := s.tn + 1, old := State.grantNow x r.typ s.tn }))
          with denials := 0 } r.typ (fun _ => { next := some (s.ltc.sec + (r.dur * 3 + 3) / 4) }))) ∧
      (r.dur = 0 → ∃ t, exec (.grantUnicastTransmission m r) s = .next t ∧ t.sess? n = some (failed r.typ))) ∧
    (known → x.grants.getD r.typ none = some g →
      ∃ t, exec (.cancelUnicastTransmission m r) s = .next t ∧ t.hrd.cancels = s.hrd.cancels ++ [(n, r.typ)] ∧
        t.hrd.queue = s.hrd.queue ++ [{ kind := 6, inst := x.inst, port := x.port, slot := some n, seq := 0, sig := 3, tlv := ⟨r.typ, 0, 0⟩ }]) ∧
    (matched → s.piUnicast k = false → setsField s (.acknowledgeCancelUnicastTransmission m) (hrpR m.port) HRD_RX_SIG_COUNT
      (sat HRD_RX_SIG_COUNT (s.get (hrpR m.port) HRD_RX_SIG_COUNT))) ∧
    (s.sess? n = some x → x.grants.getD t0 none = some g →
      (g.exp ≤ s.ltc.sec → ∃ t, exec (.grantExpiry n t0) s = .next t ∧
        t.sess? n = some (State.setAsk (State.setGrant x t0 none) t0 (fun b => { b with next := none })) ∧ t.hrd.queue = s.hrd.queue) ∧
      (s.ltc.sec < g.exp → exec (.grantExpiry n t0) s = .next s) ∧
      (s.wants n x t0 = true → ask.sent = none → ask.retry = none →
        (g.given * 4 + g.dur * 3 ≤ s.ltc.sec * 4 →
          ∃ t, exec (.grantRenewal n t0) s = .next t ∧ t.sess? n = some asked ∧ t.hrd.queue = s.hrd.queue ++ [request]) ∧
        (s.ltc.sec * 4 < g.given * 4 + g.dur * 3 → exec (.grantRenewal n t0) s = .next s))) ∧
    (s.sess? n = some x → s.wants n x t0 = true →
      (ask.sent = some w → w + 32000 ≤ s.prism.tick →
        ∃ t, exec (.requestRetry n t0) s = .next t ∧ t.sess? n = some (failed t0) ∧ t.hrd.queue = s.hrd.queue) ∧
      (ask.sent = none → ask.retry = none → x.grants.getD t0 none = none →
        ∃ t, exec (.requestRetry n t0) s = .next t ∧ t.sess? n = some asked ∧ t.hrd.queue = s.hrd.queue ++ [request])) ∧
    -- reads of the table
    (s.heraldRuns = true → port < s.nHrd → s.seOn = true →
      (488 < s.hrd.reads + 1 → exec (.sessionEntryFetch port (some n) key late) s = .next s) ∧
      (s.hrd.reads + 1 ≤ 488 → ∃ t, exec (.sessionEntryFetch port (some n) key late) s = .next t ∧ t.hrd.reads = s.hrd.reads + 1 ∧
        t.hrd.cache = (if late = true then s.hrd.cache else (n :: s.hrd.cache.filter (· != n)).take 4096) ∧
        t.hrd.sess = s.hrd.sess ∧ t.host.up = s.host.up ++ [⟨0, 5, 0, 64⟩]) ∧
      (488 < s.hrd.reads + 8 → exec (.sessionEntryFetch port none key late) s = .next s) ∧
      (s.hrd.reads + 8 ≤ 488 → ∃ t, exec (.sessionEntryFetch port none key late) s = .next t ∧ t.hrd.reads = s.hrd.reads + 8 ∧
        t.hrd.looked = (if late = true then s.hrd.looked else s.hrd.looked ++ [key]) ∧ t.hrd.sess = s.hrd.sess)) ∧
    -- other frames
    (s.hears f.port f.raw = true →
      (f.etherType = 0x8808 → exec (.nonPtpFrame f) s = .next s) ∧
      (f.etherType ≠ 0x8808 → f.dst ≠ mac → f.dst ≠ 0xFFFFFFFFFFFF → (f.dst / 2 ^ 40 % 2 = 0 ∨ s.on (hrpR f.port) HRD_PORT_CFG_MCHOST = false) →
        setsField s (.nonPtpFrame f) (hrpR f.port) HRD_RX_FILT_COUNT (sat HRD_RX_FILT_COUNT (s.get (hrpR f.port) HRD_RX_FILT_COUNT))) ∧
      (f.etherType ≠ 0x8808 → f.dst = mac → (f.raw.length - 4) * 256 ≤ s.hrd.rxTok → s.dataHalted = false →
        s.hrd.bufs.find? (fun b => b.ring == s.get (hrpR f.port) HRD_PORT_CFG_RXRING) = some d →
        ∃ t, exec (.nonPtpFrame f) s = .next t ∧ t.hrd.bufs = s.hrd.bufs.erase d ∧ t.hrd.rxTok = s.hrd.rxTok - (f.raw.length - 4) * 256))

/-- R474, R475, R480–R483, R486, R499, R500, R509: Herald's timers, its ESMC and what it sends. The next due message takes its
tokens and is counted, or is deferred, and after 8 ticks skipped; a host frame leaves once it finds tokens; a port's
received rank follows its PDUs and is 15 after the timeout; quarantine ends with its offset removed. -/
def Obligations.HeraldKeepsItsTimes : Prop :=
  ∀ (s : State) (k p w ring pos : Nat) (y : PiSt) (z : PiPort) (e : EsmcIn) (es : EsmcSt) (m : Msg) (d : Desc) (lock : Bool),
    let sat := fun (f : Fld) (v : Nat) => min (v + 1) (2 ^ f.width - 1)
    let now := s.prism.tick
    let failedExt := fun (t : State) (mon : Nat) =>
      t.prism.refs = s.prism.refs.modify (36 + k) (fun r => { r with res := r.res ++ [(mon, true)] })
    let n := s.msgCount m
    let b := hrpR m.port
    let q := e.frame.port
    let rank := esmcRank e.ssm e.essm
    (s.heraldRuns = true → s.hrd.pis[k]? = some y → y.on = true → y.ports[p]? = some z → p < 4 → s.ps k p = 4 → z.expired = false →
      z.since + s.get (piR k) HRD_PI_IVL_ATMO * ivlTicks (s.getI (piR k) HRD_PI_IVL_LANN) ≤ now →
      ∃ t, exec (.announceTimeout k) s = .next t ∧ (t.pi k).annNew = true ∧ (t.piPort k p).expired = true ∧ (t.pi k).parent = y.parent ∧
        (∀ j, j ≠ k → t.pi j = s.pi j) ∧ t.regs = s.regs) ∧
    (s.heraldRuns = true → s.hrd.pis[k]? = some y → y.timedOut = false → p < 4 → s.ps k p = 9 →
      y.lastEx + s.get (piR k) HRD_PI_IVL_STMO * ivlTicks (y.ivl.getD (s.getI (piR k) HRD_PI_IVL_LSYNC)) ≤ now →
      ∃ t, exec (.syncTimeout k) s = .next t ∧ t.pi k = { y with timedOut := true } ∧ failedExt t 0 ∧ t.regs = s.regs) ∧
    (s.hrd.pis[k]? = some y → y.quarEnd = some w →
      (w ≤ now + 1 → ∃ t, exec (.quarantineEnd k) s = .next t ∧ t.pi k = { y with q := 0, quarEnd := none } ∧
        t.on (pjR k) HRD_PI_JSTAT_QUARN = false ∧ t.get (pjR k) HRD_PI_JSTAT_QLEFT = 0 ∧ t.get (pjR k) HRD_PI_QOFF_Q = 0 ∧
        (65536 ≤ |y.q| → failedExt t 6) ∧ (|y.q| < 65536 → t.prism = s.prism)) ∧
      (now + 1 < w → exec (.quarantineEnd k) s = .next s)) ∧
    (s.hears q e.frame.raw = true → s.on (hrpR q) HRD_ESMC_CFG_EN = true →
      (e.valid = false → setsField s (.esmcPdu e) (hrpR q) HRD_ESMC_CNT_ERR (sat HRD_ESMC_CNT_ERR (s.get (hrpR q) HRD_ESMC_CNT_ERR))) ∧
      (e.valid = true → ∃ t, exec (.esmcPdu e) s = .next t ∧ t.get (hrpR q) HRD_ESMC_STATUS_RXQL = rank ∧
        t.get (hrpR q) HRD_ESMC_CNT_RXPDU = sat HRD_ESMC_CNT_RXPDU (s.get (hrpR q) HRD_ESMC_CNT_RXPDU) ∧
        t.on (hrpR q) HRD_ESMC_STATUS_TMO = false ∧ t.hrd.esmc = s.hrd.esmc.modify q (fun x => { x with lastRx := now }) ∧ t.ltc = s.ltc)) ∧
    (s.heraldRuns = true → p < s.nHrd → s.on (hrpR p) HRD_ESMC_CFG_EN = true → s.hrd.esmc[p]? = some es → es.on = true →
      (s.on (hrpR p) HRD_ESMC_STATUS_TMO = false → es.lastRx + 32000 * s.get (hrpR p) HRD_ESMC_CFG_TMO ≤ now →
        ∃ t, exec (.esmcTimeout p) s = .next t ∧ t.on (hrpR p) HRD_ESMC_STATUS_TMO = true ∧ t.get (hrpR p) HRD_ESMC_STATUS_RXQL = 15 ∧
          s.others t [hrpR p + HRD_ESMC_STATUS_TMO.idx] ∧ t.hrd = s.hrd) ∧
      (s.on (hrpR p) HRD_ESMC_STATUS_TMO = true → exec (.esmcTimeout p) s = .next s) ∧
      (s.portLink p = true → es.lastTx ≠ some s.ltc.sec →
        ∃ t, exec (.esmcInformationPdu p) s = .next t ∧ t.get (hrpR p) HRD_ESMC_STATUS_TXQL = s.esmcTxRank p % 16 ∧
          (t.esmc p).lastTx = some s.ltc.sec ∧ (t.esmc p).sent = some (rankCode (s.on (hrpR p) HRD_ESMC_CFG_EXT) (s.esmcTxRank p)) ∧
          s.others t [hrpR p + HRD_ESMC_STATUS_TXQL.idx] ∧ t.ltc = s.ltc) ∧
      (es.lastTx = some s.ltc.sec → exec (.esmcInformationPdu p) s = .next s)) ∧
    (s.dueMsgs.head? = some m → m.slot = none →
      (2 * n ≤ s.hrd.tokens.getD m.port 0 → s.hrd.sent + n ≤ s.aggCap →
        ∃ t, exec (.messageDue m pos) s = .next t ∧ t.hrd.sent = s.hrd.sent + n ∧
          t.hrd.tokens = s.hrd.tokens.modify m.port (· - 2 * n) ∧ t.hrd.done = s.hrd.done ++ [m] ∧ t.hrd.queue = s.hrd.queue.erase m ∧
          t.hrd.ptpTx = some (s.ptpOut m (min pos (s.tickLeft * 65536 - 1))) ∧
          (m.kind = 2 → t.get b HRD_TX_SYNC_COUNT = sat HRD_TX_SYNC_COUNT (s.get b HRD_TX_SYNC_COUNT) ∧
            (s.piTwoStep m.inst = true → t.get b HRD_TX_FUP_COUNT = sat HRD_TX_FUP_COUNT (s.get b HRD_TX_FUP_COUNT))) ∧
          (m.kind = 0 → t.get b HRD_TX_DRESP_COUNT = sat HRD_TX_DRESP_COUNT (s.get b HRD_TX_DRESP_COUNT)) ∧
          (m.kind = 3 → t.get b HRD_TX_ANN_COUNT = sat HRD_TX_ANN_COUNT (s.get b HRD_TX_ANN_COUNT))) ∧
      (s.hrd.tokens.getD m.port 0 < 2 * n → (∀ x ∈ s.hrd.deferred, x.1 ≠ m) →
        ∃ t, exec (.messageDue m pos) s = .next t ∧ t.get b HRD_DEFER_COUNT = sat HRD_DEFER_COUNT (s.get b HRD_DEFER_COUNT) ∧
          t.hrd.deferred = s.hrd.deferred ++ [(m, now)] ∧ t.hrd.sent = s.hrd.sent ∧ t.hrd.done = s.hrd.done ++ [m])) ∧
    (s.dueMsgs.head? ≠ some m → exec (.messageDue m pos) s = .next s) ∧
    ((m, w) ∈ s.hrd.deferred → w + 8 ≤ now →
      ∃ t, exec (.messageSkip m) s = .next t ∧ t.get b HRD_SKIP_RATE_COUNT = sat HRD_SKIP_RATE_COUNT (s.get b HRD_SKIP_RATE_COUNT) ∧
        t.hrd.deferred = s.hrd.deferred.filter (fun x => x.1 != m) ∧ t.hrd.done = s.hrd.done ++ [m] ∧ t.hrd.sent = s.hrd.sent) ∧
    (s.hrd.txq.find? (fun x => x.ring == ring) = some d → s.heraldRuns = true → s.portLink d.target = true →
      (d.len * 256 ≤ s.hrd.txTok → (∀ x ∈ s.dueMsgs, x.port ≠ d.target) → ∃ t, exec (.hostFrameSent ring) s = .next t ∧ t.hrd.txTok = s.hrd.txTok - d.len * 256 ∧
        t.hrd.txq = s.hrd.txq.erase d ∧ t.hrd.queue = s.hrd.queue) ∧
      (s.hrd.txTok < d.len * 256 → exec (.hostFrameSent ring) s = .next s)) ∧
    (p < s.nHrd → 6 ≤ s.mode → setsField s (.receiveClockLockChange p lock) (hrpR p) HRD_PORT_STATUS_RXLOCK lock.toNat) ∧
    (s.mode < 6 → exec (.receiveClockLockChange p lock) s = .next s)

/-! ## Polsis and Mirror -/

/-- R519, R521, R523–R527: a link's frames, its coming up and going down, the swap of its lanes and the estimate of its
asymmetry. -/
def Obligations.LinksComeUpAndSwap : Prop :=
  ∀ (s : State) (m : LinkIn) (p w : Nat) (j : Rat), p < s.nPlk →
    let sat := fun (f : Fld) => min (s.get (plkR p) f + 1) (2 ^ f.width - 1)
    let x := s.plkP p
    let b := plkR p
    let now := s.prism.tick
    let others := fun (t : State) => (∀ q, q ≠ p → t.plkP q = s.plkP q) ∧ t.ltc = s.ltc
    let step : Rat := (s.get glb1R GLB_PLK_SWAP_ASTEP : Rat) * 65536 / 10
    let ended := x.after = some w ∧ w + s.plkFit * 32000 ≤ now + 1
    let leads := s.plkRole p = 2 ∨ s.plkRole p ≠ 1 ∧ s.plkNode < s.get b PLK_STATUS_PEER
    (m.port = p → x.on = true →
      (m.valid = false → ∃ t, exec (.linkFrameReceived m) s = .next t ∧ t.get b PLK_CNT0_CRCERR = sat PLK_CNT0_CRCERR ∧
        t.plkP p = { x with good := 0 } ∧ others t ∧ s.others t [b + PLK_CNT0_CRCERR.idx]) ∧
      (m.valid = true → m.node ≠ s.plkNode → plkCompatible (s.plkRole p) m.role = true →
        ∃ t, exec (.linkFrameReceived m) s = .next t ∧ (t.plkP p).good = min 32 (x.good + 1) ∧ (t.plkP p).miss = 0 ∧
          (t.plkP p).rx = some (m.seq, (s.now16 + m.pos).toNat) ∧ t.get b PLK_STATUS_PROLE = m.role ∧
          t.get b PLK_STATUS_PEER = m.node ∧ t.on b PLK_STATUS_MISMATCH = false ∧ others t) ∧
      (m.valid = true → (m.node = s.plkNode ∨ plkCompatible (s.plkRole p) m.role = false) →
        ∃ t, exec (.linkFrameReceived m) s = .next t ∧ (t.plkP p).good = 0 ∧ t.on b PLK_STATUS_MISMATCH = true ∧
          t.plkUp p = false ∧ others t)) ∧
    (x.on = false → m.port = p → s.plkRole p ≠ 4 → exec (.linkFrameReceived m) s = .next s) ∧
    (x.on = true → s.plkUp p = false →
      (32 ≤ x.good → ∃ t, exec (.polsisLinkUp p) s = .next t ∧ t.plkUp p = true ∧ t.plkCal p = false ∧ (t.plkP p).calib = true ∧
        (t.plkP p).up = now ∧ (leads → t.plkLeader p = true) ∧ (¬leads → t.plkLeader p = false) ∧ others t) ∧
      (x.good < 32 → exec (.polsisLinkUp p) s = .next s)) ∧
    (s.plkUp p = true →
      (16 ≤ x.miss + 1 → x.got = false → s.on b PLK_STATUS_GAP = false → ∃ t, exec (.polsisLinkDown p) s = .next t ∧ t.plkUp p = false ∧ t.plkCal p = false ∧
        t.on b PLK_STATUS_OLOCK = false ∧ t.on b PLK_STATUS_GAP = false ∧ (t.plkP p).good = 0 ∧ others t ∧
        s.others t [b + PLK_STATUS_LINK.idx, b + PLK_DELAY_DRX.idx, b + PLK_ASYM_DHAT.idx]) ∧
      (x.miss + 1 < 16 ∨ x.got = true ∨ s.on b PLK_STATUS_GAP = true → exec (.polsisLinkDown p) s = .next s)) ∧
    (s.on b PLK_STATUS_GAP = true → x.turned = false →
      ∃ t, exec (.laneSwap p) s = .next t ∧ t.on b PLK_STATUS_ORIENT = !s.on b PLK_STATUS_ORIENT ∧
        t.get b PLK_CNT2_SWAPS = sat PLK_CNT2_SWAPS ∧ t.plk.ports = s.plk.ports.modify p (fun y => { y with turned := true }) ∧
        s.others t [b + PLK_STATUS_ORIENT.idx, b + PLK_CNT2_SWAPS.idx, b + PLK_DELAY_DRX.idx, b + PLK_ASYM_DHAT.idx] ∧ { t with regs := s.regs, plk := s.plk } = s) ∧
    (s.on b PLK_STATUS_GAP = false → exec (.laneSwap p) s = .next s) ∧
    (ended → s.plkCal p = true →
      (s.plkJump p = none → ∃ t, exec (.asymmetryUpdate p) s = .next t ∧ t.plkP p = { x with after := none, gap := none, before := none } ∧
        t.regs = s.regs ∧ others t) ∧
      (s.plkJump p = some j → ∃ t, exec (.asymmetryUpdate p) s = .next t ∧ (t.plkP p).after = none ∧ others t ∧
        (|j - x.dhat| ≤ step → (t.plkP p).dhat = x.dhat + Config.quant ((j - x.dhat) / (2 ^ s.get glb1R GLB_PLK_SWAP_AF : Nat)) ∧
          t.prism = s.prism) ∧
        (step < |j - x.dhat| → (t.plkP p).dhat = Config.quant j ∧ t.get b PLK_CNT2_AMISS = sat PLK_CNT2_AMISS ∧
          t.prism.refs = s.prism.refs.modify (44 + p) (fun r => { r with res := r.res ++ [(6, true)] })))) ∧
    (ended → s.plkCal p = false →
      (s.plkJump p = some j → ∃ t, exec (.calibrationEnd p) s = .next t ∧ t.plkCal p = true ∧ (t.plkP p).dhat = Config.quant j ∧
        (t.plkP p).calib = false ∧ (t.plkP p).after = none ∧ others t) ∧
      (s.plkJump p = none → ∃ t, exec (.calibrationEnd p) s = .next t ∧ t.plkCal p = false ∧ (t.plkP p).calib = true ∧
        (t.plkP p).dhat = 0 ∧ others t)) ∧
    (x.after = none → exec (.asymmetryUpdate p) s = .next s ∧ exec (.calibrationEnd p) s = .next s)

/-- R530–R533: what becomes of a time frame, and what its absence does: a frame of this node's own origin, one past LIFE and one
on a DOWN or MIRROR port are discarded and counted; the first accepted origin is locked and gives the tick's sample; FLOSS
ticks without a sample fail the activity monitor, and without a frame of its origin release an unforced lock. -/
def Obligations.TimeFramesAreTaken : Prop :=
  ∀ (s : State) (m : TimeIn) (p o : Nat), p < s.nPlk →
    let b := plkR p
    let sat := fun (f : Fld) => min (s.get b f + 1) (2 ^ f.width - 1)
    let x := s.plkP p
    let ready := m.port = p ∧ x.on = true
    let client := s.plkRole p ≠ 2 ∧ s.plkRole p ≠ 4
    let live := s.plkUp p = true ∧ s.inRun = true ∧ s.plkCal p = true
    let hears := ready ∧ m.valid = true ∧ client ∧ live
    let locked := s.on b PLK_STATUS_OLOCK = true ∧ s.get b PLK_ORIGIN_ORIGIN = m.f.origin
    let locks := s.on b PLK_STATUS_OLOCK = false ∧ s.on b PLK_PORT_CFG_OSEL = false
    let acc := ((m.f.acclat : Int) + s.plkDrx p).toNat
    let life := s.get glb1R GLB_PLK_CFG1_LIFE * 65536
    let t0 := s.now16 + m.pos
    (ready → m.valid = false → setsField s (.timeFrameReceived m) b PLK_CNT0_CRCERR (sat PLK_CNT0_CRCERR)) ∧
    (ready → m.valid = true → ¬client → setsField s (.timeFrameReceived m) b PLK_CNT1_ROLEDISC (sat PLK_CNT1_ROLEDISC)) ∧
    (hears → m.f.origin = s.plkNode → setsField s (.timeFrameReceived m) b PLK_CNT1_OWNDISC (sat PLK_CNT1_OWNDISC)) ∧
    (hears → m.f.origin ≠ s.plkNode → life < acc → setsField s (.timeFrameReceived m) b PLK_CNT0_LIFEDISC (sat PLK_CNT0_LIFEDISC)) ∧
    (hears → m.f.origin ≠ s.plkNode → acc ≤ life → x.samp = none → locked ∨ locks →
      ∃ t, exec (.timeFrameReceived m) s = .next t ∧ t.on b PLK_STATUS_OLOCK = true ∧ t.get b PLK_ORIGIN_ORIGIN = m.f.origin ∧
        (t.plkP p).samp = some ⟨t0 - (m.f.sec * sec16 + m.f.ns * 65536 + m.f.frac + acc), t0⟩ ∧ (t.plkP p).q = some (m.f.ql, m.f.cc) ∧
        (t.plkP p).origMiss = 0) ∧
    (hears → m.f.origin ≠ s.plkNode → acc ≤ life → ¬locked → ¬locks →
      ∃ t, exec (.timeFrameReceived m) s = .next t ∧ (t.plkP p).samp = x.samp ∧ t.get b PLK_ORIGIN_ORIGIN = s.get b PLK_ORIGIN_ORIGIN) ∧
    ((x.on = false ∨ m.valid = true ∧ client ∧ ¬live) → m.port = p → exec (.timeFrameReceived m) s = .next s) ∧
    (s.inRun = true → x.lossDone = false →
      (s.get b PLK_PORT_CFG_FLOSS ≤ x.noSamp + 1 → x.samp = none → ∃ t, exec (.frameLoss p) s = .next t ∧
        t.prism.refs = s.prism.refs.modify (44 + p) (fun r => { r with res := r.res ++ [(0, true)] }) ∧
        t.plk.ports = s.plk.ports.modify p (fun y => { y with lossDone := true }) ∧ t.regs = s.regs ∧ t.ltc = s.ltc) ∧
      (x.noSamp + 1 < s.get b PLK_PORT_CFG_FLOSS ∨ x.samp ≠ none → exec (.frameLoss p) s = .next s)) ∧
    (s.on b PLK_STATUS_OLOCK = true → s.on b PLK_PORT_CFG_OSEL = false →
      (s.get b PLK_PORT_CFG_FLOSS ≤ x.origMiss → setsField s (.originRelease p) b PLK_STATUS_OLOCK 0) ∧
      (x.origMiss < s.get b PLK_PORT_CFG_FLOSS → exec (.originRelease p) s = .next s)) ∧
    (s.on b PLK_PORT_CFG_OSEL = true → exec (.originRelease p) s = .next s) ∧
    ((∃ e ∈ s.plk.origs, e.origin = o ∧ e.tick + 64 ≤ s.prism.tick) →
      ∃ t, exec (.originEntryFree o) s = .next t ∧ t.plk.origs = s.plk.origs.filter (fun e => e.origin != o) ∧
        t.get glb1R GLB_PLK_STATUS_ORIGS = t.plk.origs.length % 32 ∧ s.others t [glb1R + GLB_PLK_STATUS_ORIGS.idx] ∧
        t.plk.ports = s.plk.ports ∧ { t with regs := s.regs, plk := s.plk } = s) ∧
    ((∀ e ∈ s.plk.origs, e.origin = o → s.prism.tick < e.tick + 64) → exec (.originEntryFree o) s = .next s)

/-- R544, R546, R548–R550, R554, R558, R559, R564, R568: the key line and what the standby commits. A sample of a tick counts
free samples and claims at the fourth or fifth; a line that reads high twice while the key is held is stuck; a holdoff and
an override end; a whole snapshot of one epoch is committed and any other is not; at the boundary after its claim the part
takes over. -/
def Obligations.TheKeyIsClaimedAndTaken : Prop :=
  ∀ (s : State) (high : Bool) (w a e : Nat) (h : MirIn) (l : List (Nat × List Rat)) (cur : Nat),
    let now := s.prism.tick
    let get := fun (u : State) (f : Fld) => u.get mirR f
    let free := if high then min 7 (get s MIR_KEY_FREE + 1) else 0
    let samples := s.paired = true ∧ 6 ≤ s.mode ∧ s.mir.sampled ≠ some now
    let newer := s.mir.epoch = none ∨ s.mir.epoch = some cur ∧ 0 < signed ((h.epoch + 2 ^ 32 - cur) % 2 ^ 32) 32
    let waits := s.standsBy = true ∧ s.mir.recv = some (h, w) ∧ w < now
    (samples → ∃ t, exec (.keySample high) s = .next t ∧ t.on mirR MIR_KEY_SENSE = high ∧ get t MIR_KEY_FREE = free ∧
      t.mir.sampled = some now ∧ t.on mirR MIR_STATUS_DRV = t.drivers ∧ t.ltc = s.ltc ∧ t.mil = s.mil ∧
      (s.hasKey = false → s.standsBy = true → s.on mirR MIR_CFG_NOCLAIM = false → s.mir.holdoff = none →
        (s.on mirR MIR_STATUS_LINK = true ∨ s.on mirR MIR_CFG_BLIND = false) →
        ((if s.on mirR MIR_KEY_EPRIO then 4 else 5) ≤ free → t.hasKey = true ∧ t.mir.claim = some now) ∧
        (free < (if s.on mirR MIR_KEY_EPRIO then 4 else 5) → t.hasKey = false ∧ t.mir.claim = s.mir.claim)) ∧
      (s.hasKey = true → high = true → s.mir.highs = 1 → t.on mirR MIR_STATUS_LSTUCK = true ∧ t.hasKey = true) ∧
      (s.hasKey = true → high = false → t.on mirR MIR_STATUS_LSTUCK = false ∧ t.mir.highs = 0 ∧ t.hasKey = true)) ∧
    (¬samples → exec (.keySample high) s = .next s) ∧
    (s.paired = true → ∃ t, exec (.keySenseChange high) s = .next t ∧ t.mir.line = high ∧ t.mir.safeDrv = (s.mir.safeDrv && high) ∧
      t.mir.partner = (s.mir.partner || !high) ∧ t.mir.holdoff = (if high && s.mir.partner then none else s.mir.holdoff) ∧
      t.on mirR MIR_STATUS_DRV = t.drivers ∧ s.others t [mirR + MIR_STATUS_DRV.idx] ∧ { t with regs := s.regs, mir := s.mir } = s) ∧
    (s.mir.holdoff = some w →
      (w ≤ now → exec .holdoffExpiry s = .next { s with mir := { s.mir with holdoff := none } }) ∧
      (now < w → exec .holdoffExpiry s = .next s)) ∧
    (s.mir.ovr = some (a, w) →
      (w ≤ now → ∃ t, exec .overrideEnd s = .next t ∧ t.mir = { s.mir with ovr := none, ovrEnd := some now } ∧
        t.on mirR MIR_KEY_KEY_OVERRIDE = false ∧ (s.hasMir = true → t.on mirR MIR_STATUS_DRV = t.drivers) ∧
        s.others t [mirR + MIR_KEY_KEY_OVERRIDE.idx, mirR + MIR_STATUS_DRV.idx] ∧ { t with regs := s.regs, mir := s.mir } = s) ∧
      (now < w → exec .overrideEnd s = .next s)) ∧
    (waits → newer → s.snapWhole h = true → State.snapBad h = none →
      ∃ t, exec .snapshotCommit s = .next t ∧ t.mir.recv = none ∧ t.mir.com = some h ∧ t.mir.epoch = some h.epoch ∧ t.mir.got = true ∧
        get t MIR_EPOCH_EPOCH = h.epoch % 2 ^ 32 ∧ t.mode = 11) ∧
    (waits → newer → s.snapWhole h = true → State.snapBad h = some a →
      ∃ t, exec .snapshotCommit s = .next t ∧ t.mir = { s.mir with recv := none } ∧
        get t MIR_CNT0_MISMATCH = min (get s MIR_CNT0_MISMATCH + 1) 65535) ∧
    (waits → (s.snapWhole h = false ∨ s.mir.epoch = some cur ∧ signed ((h.epoch + 2 ^ 32 - cur) % 2 ^ 32) 32 ≤ 0) →
      ∃ t, exec .snapshotCommit s = .next t ∧ t.mir = { s.mir with recv := none } ∧ get t MIR_EPOCH_EPOCH = get s MIR_EPOCH_EPOCH) ∧
    ((s.mir.recv = none ∨ s.standsBy = false) → exec .snapshotCommit s = .next s) ∧
    (s.standsBy = true → s.mir.coll = some (e, l) →
      (32 ≤ l.length → ∃ t, exec .hearthSnapshotCommit s = .next t ∧ t.mir = { s.mir with coll := none, hcom := some l } ∧
        t.on mirR MIR_STATUS_HSNAP = true ∧ get t MIR_HEPOCH_HEPOCH = e % 2 ^ 16 ∧ get t MIR_HEPOCH_HFRAGS = 0 ∧
        s.others t [mirR + MIR_STATUS_HSNAP.idx, mirR + MIR_HEPOCH_HEPOCH.idx] ∧ { t with regs := s.regs, mir := s.mir } = s) ∧
      (l.length < 32 → exec .hearthSnapshotCommit s = .next s)) ∧
    (s.on mirR MIR_STATUS_LINK = true → (s.paired = false ∨ s.mirUp = false) →
      ∃ t, exec .mirrorLinkLost s = .next t ∧ t.on mirR MIR_STATUS_LINK = false ∧ t.mir.recv = s.mir.recv ∧ t.mir.coll = none ∧
        t.hasKey = s.hasKey ∧ t.ltc = s.ltc ∧ t.mil = s.mil) ∧
    ((s.on mirR MIR_STATUS_LINK = false ∨ s.paired = true ∧ s.mirUp = true) → exec .mirrorLinkLost s = .next s) ∧
    (s.paired = true → s.mir.claim = some w →
      (w < now → ∃ t, exec .takeover s = .next t ∧ t.mode = get s MIR_CFG_TAKE ∧ t.mir.claim = none ∧
        get t MIR_CNT1_TAKES = min (get s MIR_CNT1_TAKES + 1) 65535 ∧ t.get64 mirR MIR_TAKE_TN_LO_TN MIR_TAKE_TN_HI_TN = s.tn % 2 ^ 64 ∧
        t.on mirR MIR_STATUS_DRV = t.drivers ∧ t.hasKey = s.hasKey) ∧
      (now ≤ w → exec .takeover s = .next s))

/-! ## Granary's stores, the tamper log and Watchman -/

/-- R238, R239, R582, R583, R596, R597: a tamper edge of the selected slope that holds for FILT is stamped, counted in WC3 and
written into the log; in M1 any edge of an enabled pin sets its EMB bit; a page store takes the first queued page that is
dirty or forced, writes the copy that is not current with the next sequence number, and a store that fails leaves the page
dirty; the increment of a wear counter that is being written ends, and those that came meanwhile are the next step. -/
def Obligations.PagesAreStored : Prop :=
  ∀ (s : State) (pin ns hold p c i : Nat) (rising ok worn force : Bool) (rest : List (Nat × Bool)), pin < 2 → i < 16 →
    let en := s.on glbR (if pin = 0 then GLB_TMP_CFG_EN0 else GLB_TMP_CFG_EN1)
    let sl := s.get glbR (if pin = 0 then GLB_TMP_CFG_SLOPE0 else GLB_TMP_CFG_SLOPE1)
    let lvl := if pin = 0 then GLB_TMP_STATUS_LVL0 else GLB_TMP_STATUS_LVL1
    let accepted := en = true ∧ (sl = 2 ∨ sl = 0 ∧ rising = true ∨ sl = 1 ∧ rising = false) ∧
      s.get glbR GLB_TMP_CFG_FILT * 1000 ≤ hold
    let at0 := s.ltc.ns + ns
    let r := timeRec (s.ltc.sec + at0 / 1000000000) (at0 % 1000000000 * 65536) (0x50 + pin) (!rising).toNat 0 s.qual (s.nextSeq (0x50 + pin)).1
    let n := 32 * s.get glbR GLB_TMP_LOG_COUNT
    let pos := s.get glbR GLB_TMP_NEXT_NEXT % n
    let edge := fun (t : State) => t.on glbR lvl = rising ∧ t.ltc = s.ltc ∧ t.gran.wear = s.gran.wear.modify 3 (fun w => if w.now = 0 then { w with now := 1 } else { w with pend := w.pend + 1 })
    let page := s.pageSt p
    let now := if page.curB then page.b else page.a
    let new : Copy := { seq := now.seq + 1, crc := true, commit := true }
    let w := s.gran.wear.getD c {}
    (en = false ∨ ¬accepted ∧ s.mode ≠ 1 ∨ s.mode = 0 ∨ s.mode = 2 →
      setsField s (.tamperEdge pin rising ⟨ns, hold⟩) glbR lvl rising.toNat) ∧
    (en = true → s.mode = 1 → ∃ t, exec (.tamperEdge pin rising ⟨ns, hold⟩) s = .next t ∧ t.on glbR lvl = rising ∧
      t.on glbR (if pin = 0 then GLB_TMP_STATUS_EMB0 else GLB_TMP_STATUS_EMB1) = true ∧
      s.others t [glbR + lvl.idx] ∧ { t with regs := s.regs, tmp := { t.tmp with seq := s.tmp.seq } } = s ∧
      t.tmp.seq = s.tmp.seq.set pin 1) ∧
    (accepted → 3 ≤ s.mode → n = 0 → ∃ t, exec (.tamperEdge pin rising ⟨ns, hold⟩) s = .next t ∧ edge t ∧ t.gran.sram = s.gran.sram ∧ t.tmp = s.tmp) ∧
    (accepted → 3 ≤ s.mode → 0 < n → s.tmp.storing = false → ∃ t, exec (.tamperEdge pin rising ⟨ns, hold⟩) s = .next t ∧ edge t ∧
      t.sramByte ((s.get glbR GLB_TMP_LOG_FIRST + pos / 32) * 512 + pos % 32 * 16 + i) = (leBytes 16 r).getD i 0 ∧
      t.get glbR GLB_TMP_NEXT_NEXT = (pos + 1) % n % 2 ^ 11 ∧ t.gran.dirty.contains (s.get glbR GLB_TMP_LOG_FIRST + pos / 32) = true) ∧
    (accepted → 3 ≤ s.mode → 0 < n → s.tmp.storing = true → ∃ t, exec (.tamperEdge pin rising ⟨ns, hold⟩) s = .next t ∧ edge t ∧
      t.gran.sram = s.gran.sram ∧
      (s.tmp.queue.length < 16 → t.tmp.queue = s.tmp.queue ++ [r]) ∧
      (16 ≤ s.tmp.queue.length → t.tmp = s.tmp ∧ t.get glbR GLB_TMP_STATUS_LOST = min (s.get glbR GLB_TMP_STATUS_LOST + 1) 65535)) ∧
    (s.gran.busy = none → 3 ≤ s.mode → s.gran.queue = (p, force) :: rest → p < 1024 → (force = true ∨ s.gran.dirty.contains p = true) →
      ∃ t, exec .pageStoreStart s = .next t ∧ t.gran.busy = some p ∧ t.on grnR GRN_STATUS_BUSY = true ∧ t.get grnR GRN_STATUS_BPAGE = p ∧
        t.gran.dirty = s.gran.dirty.filter (· != p) ∧ t.gran.sram = s.gran.sram ∧ t.gran.shadow = s.gran.shadow ∧
        t.pageSt p = (if page.curB then { page with a := { page.a with crc := false, commit := false } }
          else { page with b := { page.b with crc := false, commit := false } })) ∧
    ((s.gran.busy ≠ none ∨ s.mode < 3 ∨ s.gran.queue = []) → exec .pageStoreStart s = .next s) ∧
    (s.gran.busy = some p → ok = true →
      ∃ t, exec (.pageStoreComplete ok) s = .next t ∧ t.gran.busy = none ∧ t.on grnR GRN_STATUS_BUSY = false ∧
        t.pageSt p = (if page.curB then { page with a := new, curB := false } else { page with b := new, curB := true }) ∧
        (∀ k, k < 512 → t.shadowByte (!page.curB).toNat (p * 512 + k) = s.sramByte (p * 512 + k))) ∧
    (s.gran.busy = some p → p < 1024 → ok = false →
      ∃ t, exec (.pageStoreComplete ok) s = .next t ∧ t.gran.busy = none ∧ t.pageSt p = page ∧ t.gran.dirty.contains p = true ∧
        t.on grnR GRN_ERR_VERIFY = true ∧ t.get grnR GRN_ERR_PAGE = p ∧ t.gran.shadow = s.gran.shadow) ∧
    (s.gran.busy = none → exec (.pageStoreComplete ok) s = .next s) ∧
    (0 < w.now → ∃ t, exec (.wearCounterWrite c worn) s = .next t ∧
      t.gran = { s.gran with wear := s.gran.wear.set c ⟨min (w.value + w.now) (2 ^ 48 - 1), w.pend, 0, w.worn || worn⟩ } ∧
      t.regs = s.regs ∧ t.ltc = s.ltc ∧ (worn = false → t.host = s.host)) ∧
    (w.now = 0 → exec (.wearCounterWrite c worn) s = .next s)

/-- R600–R603, R606, R607, R609, R612, R615: a source whose latch bit is clear sets it, is counted, is recorded first where
nothing was, and starts its reaction; one whose bit is set is only counted; a suppressed one is only marked consequential. A
reaction ends at its boundary and the queued one of highest severity starts; suppressions end; four missed signals give
WF01; a SAFE reaction enters M13. -/
def Obligations.FaultsAreRecorded : Prop :=
  ∀ (s : State) (n k b : Nat) (r : React),
    let get := fun (t : State) (f : Fld) => t.get wchR f
    let cnt := fun (t : State) => assocD 0 t.wd.cnt n = min 65535 (assocD 0 s.wd.cnt n + 1)
    let one := exec (.faultOccurrence [n] [] []) s
    let arises := 2 ≤ s.mode ∧ n ≠ 0 ∧ s.wfPresent n = true ∧ State.wfHeld n = false
    let quiet := s.wd.cur = none ∧ s.mode ≠ 13
    let now := s.prism.tick
    let idle := fun (m : Nat) => ∀ j, j < 96 → j ≠ m → s.on wchR (State.mapBit WCH_PEND_PEND j) = false
    (s.mode < 2 → one = .next s) ∧
    (arises → s.suppressed n = false → s.latched n = false → quiet → s.on wchR WCH_FIRST_VALID = false →
      ∃ t, one = .next t ∧ t.latched n = true ∧ cnt t ∧ t.on wchR WCH_FIRST_VALID = true ∧ get t WCH_FIRST_SRC = n ∧
        get t WCH_FIRST_SEV = s.effSev n ∧ t.on wchR WCH_FIRST_MULTI = false ∧
        t.get64 wchR WCH_FIRST_TN_LO_TN WCH_FIRST_TN_HI_TN = s.tn % 2 ^ 64 ∧
        t.on wchR WCH_STATUS_RACT = true ∧ get t WCH_STATUS_RSRC = n ∧ get t WCH_STATUS_RSEV = s.effSev n ∧
        (s.effSev n = 3 → t.wd.safeAt = some (now + 1)) ∧ (s.effSev n < 2 → t.wd.isol = s.wd.isol ∧ t.wd.safeAt = s.wd.safeAt) ∧
        t.ltc = s.ltc ∧ t.mil = s.mil ∧ t.prism = s.prism) ∧
    (arises → s.suppressed n = false → s.latched n = true →
      ∃ t, one = .next t ∧ cnt t ∧ t.regs = s.regs ∧ t.wd = { s.wd with cnt := t.wd.cnt } ∧ t.host = s.host) ∧
    (arises → s.suppressed n = true →
      ∃ t, one = .next t ∧ t.on wchR (State.mapBit WCH_CONS_CONS n) = true ∧
        assocD 0 t.wd.ccnt n = min 65535 (assocD 0 s.wd.ccnt n + 1) ∧ t.wd = { s.wd with ccnt := t.wd.ccnt } ∧ t.host = s.host ∧
        s.others t [wchR + (State.mapBit WCH_CONS_CONS n).idx]) ∧
    (s.wd.cur = some r → r.ends ≤ now → idle 96 →
      ∃ t, exec .reactionEnd s = .next t ∧ t.wd.cur = none ∧ t.on wchR WCH_STATUS_RACT = false ∧ get t WCH_STATUS_RSRC = 0 ∧
        get t WCH_STATUS_RSEV = 0 ∧ s.others t [wchR + WCH_STATUS_RACT.idx] ∧ t.host = s.host ∧
        ((n, k, none) ∈ s.wd.supp → (n, k, some (s.actionEnd n + 2)) ∈ t.wd.supp)) ∧
    (s.wd.cur = some r → r.ends ≤ now → k < 96 → s.on wchR (State.mapBit WCH_PEND_PEND k) = true → idle k →
      assocD 0 s.wd.sev k ≤ 3 →
      ∃ t, exec .reactionEnd s = .next t ∧ t.on wchR (State.mapBit WCH_PEND_PEND k) = false ∧ t.on wchR WCH_STATUS_RACT = true ∧
        get t WCH_STATUS_RSRC = k ∧ get t WCH_STATUS_RSEV = assocD 0 s.wd.sev k) ∧
    ((s.wd.cur = none ∨ s.wd.cur = some r ∧ now < r.ends) → exec .reactionEnd s = .next s) ∧
    (∃ t, exec (.suppressionEnd n) s = .next t ∧ t.wd.supp = s.wd.supp.filter (fun e => !(e.1 == n && (e.2.2.map (fun x => Decidable.decide (x ≤ now))).getD false)) ∧
      { t with wd := s.wd } = s) ∧
    (3 ≤ s.mode → 4 ≤ s.wd.missed → s.wd.barked ≠ some now → s.suppressed 1 = false → (∀ e ∈ s.wd.supp, e.2.1 = 1 → e.2.2 ≠ some now) →
      s.latched 1 = false →
      ∃ t, exec .reeveWatchdog s = .next t ∧ t.wd.barked = some now ∧ t.latched 1 = true ∧
        assocD 0 t.wd.cnt 1 = min 65535 (assocD 0 s.wd.cnt 1 + 1) ∧
        (s.wd.cur = none → s.effSev 1 = 2 → t.wd.isol = s.wd.isol ++ [{ src := 1, tick := now, start := now + 1, done := now + 4 }])) ∧
    ((s.mode < 3 ∨ s.wd.missed < 4 ∨ s.wd.barked = some now) → exec .reeveWatchdog s = .next s) ∧
    (s.wd.safeAt = some b → b ≤ now → 3 ≤ s.mode → s.mode ≠ 13 →
      ∃ t, exec .safeEntry s = .next t ∧ t.mode = 13 ∧ t.wd.safeAt = none ∧ t.on pwrR PWR_STATUS_CHG = false ∧
        t.get pwrR PWR_STATUS_TARGET = 0 ∧ t.host.haltAt = some now ∧ (s.mode < 6 → t.on pwrR PWR_STATUS_SAFEBOOT = true) ∧
        (6 ≤ s.mode → t.on pwrR PWR_STATUS_SAFEBOOT = s.on pwrR PWR_STATUS_SAFEBOOT) ∧ t.hasKey = false ∧
        (s.hasKey = true → t.get mirR MIR_STATUS_RCAUSE = 1)) ∧
    ((s.wd.safeAt = none ∨ s.wd.safeAt = some b ∧ now < b) → exec .safeEntry s = .next s)

/-! ## Supplies, resets and start-up -/

/-- R322, R586, R620, R624–R627: a power-fail warning is counted and stamped, sets PF and starts the power-fail store; a rail
that leaves its range shows so, and a core rail without a warning raises WF18; at the boundary after a core failure with
VBAK the part is in M1 and the Hearth NCO, which takes c1 once per LTC second, drives the LTC; without VBAK it loses time
and SRAM. -/
def Obligations.SuppliesFailAndReturn : Prop :=
  ∀ (s : State) (pin vbak : Bool) (ns r w : Nat) (c1 : Rat),
    let on := fun (t : State) (f : Fld) => t.on pwrR f
    let at0 := s.ltc.ns + ns
    let pages := (List.range 1024).filter (fun p => s.gran.marks.contains p && s.gran.dirty.contains p)
    let time := fun (t : State) => t.ltc.sec = s.ltc.sec ∧ t.ltc.ns = s.ltc.ns ∧ t.ltc.frac = s.ltc.frac
    let warned := 2 ≤ s.mode ∧ (pin = true ∨ on s PWR_HOLD_EN = true)
    let n := s.ltc.sec - s.hearth.emberSec
    (warned → ∃ t, exec (.powerFailWarning pin ns) s = .next t ∧ on t PWR_STATUS_PFW = true ∧ on t PWR_STATUS_PF = true ∧
      t.get pwrR PWR_CNT_PFWARN = min (s.get pwrR PWR_CNT_PFWARN + 1) 65535 ∧ t.ltc = s.ltc ∧ t.pwr.clearing = false ∧
      (pin = true → t.get pwrR PWR_PFW_NS_NS = at0 % 1000000000 ∧ t.get pwrR PWR_PFW_S_S_LO = (s.ltc.sec + at0 / 1000000000) % 2 ^ 32) ∧
      (on s PWR_STATUS_PF = false → 6 ≤ s.mode → t.pwr.warned = true ∧
        ((∀ q ∈ s.gran.reqs, q.tamper = false) → t.gran.sram = s.gran.sram ∧ t.gran.queue = pages.map (fun p => (p, false)) ++
          s.gran.queue.filter (fun e => s.gran.marks.contains e.1 && !pages.contains e.1)) ∧ t.gran.wear = s.gran.wear.modify 0 (fun x => if x.now = 0 then { x with now := 1 } else { x with pend := x.pend + 1 }) ∧
        (pages ≠ [] → t.gran.pf = true ∧ t.gran.journal = true)) ∧
      (on s PWR_STATUS_PF = false → s.mode < 6 → s.pwr.recovered = false → t.gran = s.gran ∧ t.pwr.warned = s.pwr.warned)) ∧
    (¬warned → exec (.powerFailWarning pin ns) s = .next s) ∧
    (on s PWR_STATUS_PFW = true → ∃ t, exec .powerFailCleared s = .next t ∧ on t PWR_STATUS_PFW = false ∧
      t.pwr = { s.pwr with clearing := true } ∧ on t PWR_STATUS_PF = on s PWR_STATUS_PF ∧
      ((∀ k, k < 5 → on s (PWR_RAIL_OK.bit k) = true) → s.others t [pwrR + PWR_STATUS_PFW.idx] ∧
        { t with regs := s.regs, pwr := s.pwr } = s) ∧
      (r < 5 → on s (PWR_RAIL_OK.bit r) = false → s.wd.held.contains 18 = false → s.suppressed 18 = false →
        t.latched 18 = true ∧ t.wd.held.contains 18 = true)) ∧
    (on s PWR_STATUS_PFW = false → exec .powerFailCleared s = .next s) ∧
    (r < 15 → ∃ t, exec (.railOutOfRange r) s = .next t ∧ on t (PWR_RAIL_OK.bit r) = false ∧ on t (PWR_RAIL_OUT.bit r) = true ∧
      t.ltc = s.ltc ∧
      ((5 ≤ r ∨ on s PWR_STATUS_PFW = true) → s.others t [pwrR + PWR_RAIL_OK.idx] ∧ { t with regs := s.regs } = s) ∧
      (r < 5 → on s PWR_STATUS_PFW = false → s.wd.held.contains 18 = false → s.suppressed 18 = false →
        t.latched 18 = true ∧ t.wd.held.contains 18 = true)) ∧
    (r < 15 → ∃ t, exec (.railReturnToRange r) s = .next t ∧ on t (PWR_RAIL_OK.bit r) = true ∧ on t (PWR_RAIL_OUT.bit r) = on s (PWR_RAIL_OUT.bit r) ∧
      t.ltc = s.ltc ∧ s.others t [pwrR + PWR_RAIL_OK.idx] ∧
      (r < 5 → (∀ k, k < 5 → k ≠ r → on s (PWR_RAIL_OK.bit k) = true) → t.wd.held.contains 18 = false)) ∧
    (15 ≤ r → exec (.railOutOfRange r) s = .next s ∧ exec (.railReturnToRange r) s = .next s) ∧
    (2 ≤ s.mode → s.pwr.coreFail = none →
      ∃ t, exec (.coreFailure vbak) s = .next t ∧ t.pwr = { s.pwr with coreFail := some s.prism.tick } ∧ t.hearth.emberDue = vbak ∧
        t.host.staged = [] ∧ t.ltc.due = [] ∧ time t ∧ t.mode = s.mode) ∧
    ((s.mode < 2 ∨ s.pwr.coreFail ≠ none) → exec (.coreFailure vbak) s = .next s) ∧
    (s.hearth.emberDue = true → s.pwr.coreFail = some w →
      (w < s.prism.tick → ∃ t, exec .emberEntry s = .next t ∧ t.mode = 1 ∧ t.hearth.emberOn = true ∧ t.hearth.emberDue = false ∧
        t.pwr.coreFail = none ∧ time t ∧ t.tcd.ember = s.hearth.kPps ∧
        (s.hearth.emberOn = false → t.ltc.inc = t.hearth.ember ∧ t.hearth.emberStart = s.ltc.sec ∧ t.hearth.emberSec = s.ltc.sec)) ∧
      (s.prism.tick ≤ w → exec .emberEntry s = .next s)) ∧
    (s.hearth.emberOn = true → s.hearth.emberSec < s.ltc.sec →
      ∃ t, exec .emberSecond s = .next t ∧ t.hearth.emberSec = s.ltc.sec ∧ time t ∧ t.regs = s.regs ∧
        (s.hearth.kC1 = some c1 → t.hearth.ember = clampQ (-(1 / 1000)) (1 / 1000) (s.hearth.ember + c1 * n) ∧ t.ltc.inc = t.hearth.ember) ∧
        (s.hearth.kC1 = none → t.hearth.ember = s.hearth.ember ∧ t.ltc = s.ltc)) ∧
    ((s.hearth.emberOn = false ∨ s.ltc.sec ≤ s.hearth.emberSec) → exec .emberSecond s = .next s) ∧
    (s.mode = 1 → ∃ t, exec .vbakLoss s = .next t ∧ t.mode = 0 ∧ t.ltc = {} ∧ t.on ltcR LTC_STATUS_COLD = true ∧
      t.on ltcR LTC_STATUS_SET = false ∧ t.gran.sram = [] ∧ t.gran.shadow = s.gran.shadow ∧ t.gran.pages = s.gran.pages ∧
      t.hearth.emberOn = false ∧ t.pending = s.pending) ∧
    (s.mode ≠ 1 → exec .vbakLoss s = .next s)

/-- R98, R99, R588, R593, R595, R619, R620, R634, R635, R637: from the rails to a run mode step by step, and what the resets
leave: RST_N low takes a running part to M2 with every core register at its reset value and the LTC and SRAM kept; PERST_N
and a function level reset wait for the boundary; a VF taken away loses its rings. -/
def Obligations.ThePartStartsAndResets : Prop :=
  ∀ (s : State) (ok boot ver crc f n k w : Nat) (prio : Bool) (flash : Option (List Byte)),
    let time := fun (t : State) => t.ltc.sec = s.ltc.sec ∧ t.ltc.ns = s.ltc.ns ∧ t.ltc.frac = s.ltc.frac
    let step := s.get glbR GLB_ID_STEP
    let img := State.imageCheck step s.granImage
    let loads := s.mode = 4 ∧ s.pwr.recovered = true ∧ s.pwr.tried = false
    let recN := leNat (s.sramRead State.imageBase 4)
    let applies := s.mode = 6 ∧ s.pwr.imageDone = false ∧ s.pwr.imageFrom ≠ none ∧ s.wd.reeveHold = none ∧ s.pwr.starting = false
    let auto := s.pwr.starting = true ∧ s.mode = 6 ∧ s.pwr.autoAt = some w ∧ w ≤ s.prism.tick
    let m := s.get pwrR PWR_AUTO_MODE
    -- rails and POR
    (s.mode = 0 → ∃ t, exec (.coreRailsInRange ok) s = .next t ∧ t.mode = 2 ∧ t.get pwrR PWR_RAIL_OK = ok % 2 ^ 15 ∧
      s.others t [pwrR + PWR_STATUS_MODE.idx, pwrR + PWR_RAIL_OK.idx] ∧ { t with regs := s.regs } = s) ∧
    (s.mode = 1 → ∃ t, exec (.coreRailsInRange ok) s = .next t ∧ t.mode = 2 ∧ t.get pwrR PWR_RAIL_OK = ok % 2 ^ 15 ∧
      t.on pwrR PWR_STATUS_EMBRET = true ∧ t.on glb1R GLB_HRT_EMBST_EMB = true ∧ time t ∧ t.gran.sram = s.gran.sram ∧
      t.gran.retained = true ∧ t.on ltcR LTC_STATUS_SET = s.on ltcR LTC_STATUS_SET ∧ t.on ltcR LTC_STATUS_COLD = s.on ltcR LTC_STATUS_COLD) ∧
    (2 ≤ s.mode → exec (.coreRailsInRange ok) s = .next s) ∧
    (s.mode = 2 → s.pwr.rstLow = false → ∃ t, exec (.porRelease boot prio) s = .next t ∧ t.mode = 3 ∧
      t.get pwrR PWR_BOOT_STRAP = boot % 4 ∧ t.pwr.prio = prio ∧ time t) ∧
    ((s.mode ≠ 2 ∨ s.pwr.rstLow = true) → exec (.porRelease boot prio) s = .next s) ∧
    -- resets
    (3 ≤ s.mode → ∃ t, exec (.rstN true) s = .next t ∧ t.mode = 2 ∧ t.pwr.rstLow = true ∧ time t ∧
      t.get pwrR PWR_CNT_RESETS = min (s.get pwrR PWR_CNT_RESETS + 1) 65535 ∧ t.gran.sram = s.gran.sram ∧ t.gran.shadow = s.gran.shadow ∧
      t.host.nvf = 0 ∧ t.pending = s.pending ∧
      (∀ j, j ∉ [ltcR + LTC_STATUS_COLD.idx, pwrR + PWR_STATUS_MODE.idx, pwrR + PWR_CNT_RESETS.idx, pwrR + PWR_RAIL_OK.idx,
        pwrR + PWR_BOOT_STRAP.idx, glbR + GLB_TMP_STATUS_LVL0.idx] → t.reg j = (resetWord j).getD 0)) ∧
    (exec (.rstN false) s = .next { s with pwr := { s.pwr with rstLow := false } }) ∧
    (s.mode < 3 → exec (.rstN true) s = .next { s with pwr := { s.pwr with rstLow := true } }) ∧
    (∃ t, exec .perstN s = .next t ∧ t.regs = s.regs ∧ t.host.msix = [] ∧ t.ltc = s.ltc ∧
      (∀ g ∈ List.range (s.host.nvf + 1), g ∈ t.host.flr)) ∧
    (f ≤ s.host.nvf → s.host.flr = [] →
      exec (.functionLevelReset f) s = .next { s with host := { s.host with flr := if f = 0 then List.range (s.host.nvf + 1) else [f] } }) ∧
    (s.host.nvf < f → exec (.functionLevelReset f) s = .next s) ∧
    (3 ≤ s.mode → ∃ t, exec (.vfEnableChange n) s = .next t ∧ t.host.nvf = min n 15 ∧ t.ltc = s.ltc ∧ t.mode = s.mode ∧
      (s.host.nvf ≤ min n 15 → t = { s with host := { s.host with nvf := min n 15 } }) ∧
      (n < f → f ≤ s.host.nvf → f < 16 → k < 17 → t.get (fringR f k) GLB_RING_CFG_LOG2SIZE = 0)) ∧
    (s.mode < 3 → exec (.vfEnableChange n) s = .next s) ∧
    -- the steps of start-up
    (s.mode = 3 → ∃ t, exec (.romComplete true) s = .next t ∧ t.mode = 4 ∧ t.pwr = s.pwr ∧ time t) ∧
    (exec (.romComplete false) s = .next s) ∧
    (s.mode = 4 → s.pwr.recovered = false →
      ∃ t, exec .granaryRecovery s = .next t ∧ t.pwr = { s.pwr with recovered := true } ∧ t.get rveR RVE_STATUS_STATE = 1 ∧
        t.gran.queue = [] ∧ t.gran.busy = none ∧ t.on grnR GRN_STATUS_RET = s.gran.retained ∧ t.mode = 4 ∧ t.gran.shadow = s.gran.shadow ∧
        (s.gran.retained = true → t.gran.sram = s.gran.sram ∧ t.gran.dirty = s.gran.dirty) ∧
        (s.gran.retained = false → t.gran.dirty = [] ∧ (n < 1024 → k < 512 → (s.pageSt n).a.valid = true → (s.pageSt n).b.valid = false →
          t.sramByte (n * 512 + k) = s.shadowByte 0 (n * 512 + k)))) ∧
    (loads → s.get pwrR PWR_BOOT_STRAP ≠ 2 → s.get pwrR PWR_BOOT_STRAP ≠ 1 → img = .inr (ver, crc) →
      ∃ t, exec (.firmwareLoad flash) s = .next t ∧ t.mode = 5 ∧ t.pwr.tried = true ∧ t.get pwrR PWR_BOOT_SRC = 1 ∧
        t.get pwrR PWR_BOOT_VERSION = ver % 65536 ∧ t.get rveR RVE_FWCRC_CRC = crc % 2 ^ 32 ∧ t.get rveR RVE_STATUS_STATE = 2) ∧
    (loads → s.get pwrR PWR_BOOT_STRAP = 3 → img = .inl n → n < 8 →
      ∃ t, exec (.firmwareLoad flash) s = .next t ∧ t.mode = 4 ∧ t.pwr.tried = true ∧ t.get pwrR PWR_BOOT_ERR = n) ∧
    (loads → s.get pwrR PWR_BOOT_STRAP = 2 → exec (.firmwareLoad flash) s = .next { s with pwr := { s.pwr with tried := true } }) ∧
    (¬loads → exec (.firmwareLoad flash) s = .next s) ∧
    (s.mode = 5 → ∃ t, exec (.calibrationComplete crc) s = .next t ∧ t.mode = 6 ∧ t.pwr.imageDone = false ∧
      t.pwr.imageFrom = some s.prism.tick ∧ time t ∧
      (s.gran.lost = [] → crc % 32 = 31 → t.get grnR GRN_CALST_VALID = 63 ∧ t.on lnsR LNS_CAL_VALID = true ∧ t.wd = s.wd) ∧
      (s.gran.lost = [] → crc = 0 → t.get grnR GRN_CALST_VALID = 1 ∧ t.on lnsR LNS_CAL_VALID = false ∧
        (s.suppressed 46 = false → t.latched 46 = true))) ∧
    (s.mode ≠ 5 → exec (.calibrationComplete crc) s = .next s) ∧
    (applies → recN = 0 → ∃ t, exec .registerImageApply s = .next t ∧ t.pwr = { s.pwr with imageDone := true, imageFrom := none } ∧
      { t with pwr := s.pwr } = s) ∧
    (applies → 4095 < recN → ∃ t, exec .registerImageApply s = .next t ∧ t.pwr.imageDone = true ∧ t.regs = s.regs ∧
      t.host.events.any (fun e => e.ev == 113 && e.inst == 64 && e.data == 4) = true) ∧
    (applies → recN = 1 → crc32 (s.sramRead (State.imageBase + 8) 8) = leNat (s.sramRead (State.imageBase + 4) 4) →
      ∃ t, exec .registerImageApply s = .next t ∧ t.pwr.imageDone = true ∧
        t.regs = (s.writeHalf ⟨0, true, false⟩ (leNat (s.sramRead (State.imageBase + 8) 4) % 2 ^ 22) 15 (leNat (s.sramRead (State.imageBase + 12) 4)) 0).regs) ∧
    ((s.pwr.imageDone = true ∨ s.pwr.imageFrom = none) → exec .registerImageApply s = .next s) ∧
    (auto → m = 6 → exec .autoModeEntry s = .next { s with pwr := { s.pwr with starting := false, autoAt := none } }) ∧
    (auto → m ≠ 6 → s.paired = false → ∃ t, exec .autoModeEntry s = .next t ∧ t.mode = m ∧ t.pwr.starting = false ∧ t.pwr.autoAt = none) ∧
    (auto → 7 ≤ m → m ≤ 10 → s.paired = true → ∃ t, exec .autoModeEntry s = .next t ∧ t.mode = 11 ∧ t.pwr.starting = false) ∧
    ((s.pwr.starting = false ∨ s.mode ≠ 6) → exec .autoModeEntry s = .next s)

/-- R355, R356, R380, R388, R393: the commands of the Looms, the outputs and the generators. Each puts the fields its mask
selects into their registers and leaves the others; LOOM_TUNE and OUT_CTL that would pass a limit, and LOOM_RELOCK of a Loom
that is off, complete with INVAL and change nothing; a mask of 0 changes nothing; LOOM_RELOCK starts a search. SYNC_GROUP
arms groups, for one edge or for every one, disarms them, or resets them at once. -/
def Obligations.OutputCommandsApply : Prop :=
  ∀ (s : State) (d : Desc),
    let pl := d.payload.getD []
    let n := d.target
    let x := s.taken (rowDesc d 0 0)
    (Applies s (.loomTune d) →
      let sel := fun i => leAt pl 11 1 / 2 ^ i % 2 = 1
      let fc := if sel 0 then leAt pl 0 6 else x.fcReg n
      let nn := if sel 1 then leAt pl 6 1 else x.get (lomR n) LOM_N_N
      (leAt pl 11 1 = 0 → leAt pl 10 1 = 0 → completes s (.loomTune d) .ok (fun m u => u = m)) ∧
      (¬(leAt pl 11 1 = 0 ∧ leAt pl 10 1 = 0) → State.targetOk (nn * fc) = false → completes s (.loomTune d) .inval (fun m u => u = m)) ∧
      (¬(leAt pl 11 1 = 0 ∧ leAt pl 10 1 = 0) → State.targetOk (nn * fc) = true → completes s (.loomTune d) .ok (fun m u =>
        u.get (lomR n) LOM_N_N = nn ∧
        u.get (lomR n) LOM_CFG_CHAN = (if sel 2 then leAt pl 7 1 else m.get (lomR n) LOM_CFG_CHAN) ∧
        u.get (lomR n) LOM_CFG_PDIV = (if sel 3 then leAt pl 8 1 else m.get (lomR n) LOM_CFG_PDIV) ∧
        u.get (lomR n) LOM_CFG_GLIDE = (if sel 4 then leAt pl 9 1 else m.get (lomR n) LOM_CFG_GLIDE) ∧
        u.get (lomR n) LOM_CFG_EN = m.get (lomR n) LOM_CFG_EN ∧
        (sel 0 → n < m.loom.length → u.fcReg n = fc)))) ∧
    (Applies s (.loomRelock d) →
      let en := s.on (lomR n) LOM_CFG_EN
      let runs := (s.loomSt n).on = true ∧ s.loomState n = 1
      (en = false → completes s (.loomRelock d) .inval (fun m u => u = m)) ∧
      (en = true → runs → completes s (.loomRelock d) .ok (fun m u => u = m)) ∧
      (en = true → ¬runs → completes s (.loomRelock d) .ok (fun m u =>
        u.loomState n = 1 ∧ u.get (lomR n) LOM_STATUS_BAND = 256 ∧ (n < m.loom.length →
          u.get (lomR n) LOM_STATUS_TRIES = 1 ∧ (u.loomSt n).on = true ∧ (u.loomSt n).search.isSome ∧
          (u.loomSt n).glide = none ∧ (u.loomSt n).slew = none)))) ∧
    (Applies s (.outCtl d) →
      let sel := fun i => leAt pl 12 1 / 2 ^ i % 2 = 1
      let fl := leAt pl 10 1
      let div := if sel 0 then leAt pl 0 4 else x.get (outR n) OUT_DIV_DIV
      let half : Bool := if sel 0 then fl / 2 % 2 = 1 else x.on (outR n) OUT_CFG_HALF
      let src := if sel 3 then leAt pl 8 1 else x.get (outR n) OUT_CFG_SRC
      let fmt := if sel 4 then leAt pl 9 1 else x.get (outR n) OUT_CFG_FMT
      let en : Bool := if sel 5 then fl % 2 = 1 else x.on (outR n) OUT_CFG_EN
      let bad := (sel 4 ∧ fmt = 2 ∧ x.get (bankR (n / 8)) OUT_BANK_STATUS_VDDO = 1) ∨
        (en = true ∧ src ≤ 8 ∧ x.withinLimit (n / 8) src fmt div half = false)
      (leAt pl 12 1 = 0 → completes s (.outCtl d) .ok (fun m u => u = m)) ∧
      (leAt pl 12 1 ≠ 0 → bad → completes s (.outCtl d) .inval (fun m u => u = m)) ∧
      (leAt pl 12 1 ≠ 0 → ¬bad → completes s (.outCtl d) .ok (fun m u =>
        u.get (outR n) OUT_DIV_DIV = div ∧ u.on (outR n) OUT_CFG_HALF = half ∧ u.get (outR n) OUT_CFG_SRC = src ∧
        u.get (outR n) OUT_CFG_FMT = fmt ∧ u.on (outR n) OUT_CFG_EN = en ∧
        u.get (outR n) OUT_DLY_CDLY = (if sel 1 then leAt pl 4 2 else m.get (outR n) OUT_DLY_CDLY) ∧
        u.get (outR n) OUT_DLY_FDLY = (if sel 2 then leAt pl 6 2 else m.get (outR n) OUT_DLY_FDLY) ∧
        u.get (outR n) OUT_CFG_POLICY = (if sel 6 then fl / 4 % 2 else m.get (outR n) OUT_CFG_POLICY) ∧
        u.get (outR n) OUT_CFG_SGEN = (if sel 7 then fl / 8 % 2 else m.get (outR n) OUT_CFG_SGEN) ∧
        u.get (outR n) OUT_CFG_SG = (if sel 7 then fl / 16 % 8 else m.get (outR n) OUT_CFG_SG)))) ∧
    (Applies s (.syncGroup d) → completes s (.syncGroup d) .ok (fun m u =>
      let act := leAt pl 1 1
      (List.range 8).all (fun g =>
        let named := leAt pl 0 1 / 2 ^ g % 2 = 1
        u.on tcdR (TCD_SG_CTL_ARM.bit g) == (if named ∧ act ≠ 0 then act != 2 else m.on tcdR (TCD_SG_CTL_ARM.bit g)) &&
        u.on tcdR (TCD_SG_CTL_ONCE.bit g) == (if named ∧ 2 ≤ act then act == 3 else m.on tcdR (TCD_SG_CTL_ONCE.bit g)) &&
        (!(named && act == 0) || u.tcd.sgAt.contains (g, m.tn))) = true ∧
      (act ≠ 0 → m.others u [tcdR + TCD_SG_CTL_ARM.idx] ∧ { u with regs := m.regs } = m))) ∧
    (Applies s (.tcdCtl d) → completes s (.tcdCtl d) .ok (fun m u =>
      let sel := fun i => leAt pl 12 1 / 2 ^ i % 2 = 1
      let put := fun (i k w : Nat) => if sel i then u.holdsWord k w = true else u.reg k = m.reg k
      put 0 (tcdR + TCD_TC_CFG_EN.idx) (leAt pl 0 4) ∧ put 1 (tcdR + TCD_PPS_CFG_EN.idx) (leAt pl 4 4) ∧
      put 2 (tcdR + TCD_PPS_OFF_OFF.idx) (leAt pl 8 4) ∧
      (sel 0 → u.tcd.tcN = (u.reg (tcdR + TCD_TC_CFG_EN.idx)).toNat) ∧ (sel 1 → u.tcd.widthN = u.get tcdR TCD_PPS_CFG_WIDTH) ∧
      (sel 2 → u.tcd.offN = u.getI tcdR TCD_PPS_OFF_OFF) ∧
      m.others u [tcdR + TCD_TC_CFG_EN.idx, tcdR + TCD_PPS_CFG_EN.idx, tcdR + TCD_PPS_OFF_OFF.idx] ∧
      { u with regs := m.regs, tcd := m.tcd } = m))

/-- R410, R427, R430, R454, R455: the commands of Lens and Tally. LENS_ARM disarms a unit, which closes an open burst, arms it,
or starts a burst at once, and completes with INVAL while one is open or closed; CAP_RING_CTL marks a ring of the function's
own that is on; TM_CTL and SENTINEL_CTL put their payload into the registers and start anew. -/
def Obligations.MeasureCommandsApply : Prop :=
  ∀ (s : State) (d : Desc),
    let pl := d.payload.getD []
    let n := d.target
    let act := leAt pl 0 1
    (Applies s (.lensArm d) →
      (act = 0 → s.unitState n = 0 → completes s (.lensArm d) .ok (fun m u => u = m)) ∧
      (act = 0 → s.unitState n ≠ 0 → completes s (.lensArm d) .ok (fun m u => u.on (bstR n) LNS_BST_CTL_ARM = false ∧
        u.unitState n = (if m.unitState n = 2 then 3 else if m.unitState n = 1 then 0 else m.unitState n) ∧
        m.others u [bstR n + LNS_BST_CTL_ARM.idx, bstR n + LNS_BST_STATUS_STATE.idx] ∧
        { u with regs := m.regs, lens := { u.lens with units := m.lens.units } } = m)) ∧
      (act = 1 → s.unitState n ≠ 0 → completes s (.lensArm d) .ok (fun m u => u = m)) ∧
      (act = 1 → s.unitState n = 0 → s.lensRuns = false → completes s (.lensArm d) .ok (fun m u =>
        u.on (bstR n) LNS_BST_CTL_ARM = true ∧ u.unitState n = 0 ∧ u.lens = m.lens)) ∧
      (act = 1 → s.unitState n = 0 → s.lensRuns = true → completes s (.lensArm d) .ok (fun m u =>
        u.on (bstR n) LNS_BST_CTL_ARM = true ∧ u.unitState n = 1 ∧
        m.others u [bstR n + LNS_BST_CTL_ARM.idx, bstR n + LNS_BST_STATUS_STATE.idx] ∧
        { u with regs := m.regs, lens := { u.lens with units := m.lens.units } } = m ∧
        u.lens.units = m.lens.units.modify n (fun b => { b with
          start := m.get (bstR n) LNS_BST_CFG_START, stops := m.get (bstR n) LNS_BST_CFG_STOPS
          win := m.get (bstR n) LNS_BST_WIN_WIN, pre := m.get (bstR n) LNS_BST_PRE_PRE, ring := m.get (bstR n) LNS_BST_CFG_RING
          hist := [], burst := none, got := [], missed := 0, ooo := 0, trunc := false }))) ∧
      (act = 2 → 2 ≤ s.unitState n → completes s (.lensArm d) .inval (fun m u => u = m)) ∧
      (act = 2 → s.unitState n < 2 → s.lensRuns = false → completes s (.lensArm d) .ok (fun m u => u = m)) ∧
      (act = 2 → s.unitState n < 2 → s.lensRuns = true → (s.unit n).hist.length < 64 → completes s (.lensArm d) .ok (fun m u => u.unitState n = 2 ∧
        (n < m.lens.units.length → (u.unit n).burst.map (fun b => (b.input, b.edge)) = some (0, 2))))) ∧
    (Applies s (.capRingCtl d) →
      (s.ringOwner (dringR n) ≠ d.func → completes s (.capRingCtl d) .denied (fun m u => u = m)) ∧
      (s.ringOwner (dringR n) = d.func → s.ringOn (dringR n) = false → completes s (.capRingCtl d) .inval (fun m u => u = m)) ∧
      (s.ringOwner (dringR n) = d.func → s.ringOn (dringR n) = true → completes s (.capRingCtl d) .ok (fun m u => u = { m with
        lens := { m.lens with marks := m.lens.marks ++
          [(n, m.tn % 2 ^ 64 * 2 ^ 64 + 0xF4 * 2 ^ 26 + leAt pl 1 2 % 2 ^ 16)] } }))) ∧
    (Applies s (.tmCtl d) → completes s (.tmCtl d) .ok (fun m u =>
      let set := leAt pl 15 1 = 0
      (set → u.holdsWord (tlyR n) (leAt pl 0 4) = true ∧ u.get (tlyR n) TLY_PER_PER = leAt pl 8 4 ∧
        u.get (tlyR n) TLY_WCFG_TAU0 = leAt pl 12 2 ∧ u.get (tlyR n) TLY_WCFG_MMAX = leAt pl 14 1 ∧
        (u.tmKind n = 1 → u.get (tlyR n) TLY_GATE_GATE = leAt pl 4 4 ∧ u.get (tlyR n) TLY_N_N = m.get (tlyR n) TLY_N_N) ∧
        (u.tmKind n ≠ 1 → u.get (tlyR n) TLY_N_N = leAt pl 4 4 ∧ u.get (tlyR n) TLY_GATE_GATE = m.get (tlyR n) TLY_GATE_GATE)) ∧
      (¬set → u.reg (tlyR n) = m.reg (tlyR n)) ∧
      (¬set → m.tmState n = 2 → m.tmZero n = true → u = m) ∧
      ((set ∨ m.tmState n ≠ 2 ∨ m.tmZero n = false) → (u.on (tlyR n) TLY_CFG_EN = false ∨ m.mode = 6) → u.tmState n = 0) ∧ (∀ k, k ≠ n → u.meas k = m.meas k))) ∧
    (Applies s (.sentinelCtl d) → completes s (.sentinelCtl d) .ok (fun m u =>
      u.holdsWord (senR + TLY_SEN_CFG_EN.idx) (leAt pl 0 4) = true ∧ u.get senR TLY_SEN_GATE_GATE = leAt pl 4 2 ∧
      u.get senR TLY_SEN_LIM1_EHYS = leAt pl 6 2 % 2 ^ 10 ∧ u.holdsWord (senR + TLY_SEN_DLY_DLY.idx) (leAt pl 8 4) = true ∧
      u.holdsWord (senR + TLY_SEN_LIM0_UDEV.idx) (leAt pl 12 4) = true ∧
      u.get senR TLY_SEN_STATUS_FLAGS / 2 % 2 = 0 ∧ u.get senR TLY_SEN_ROCOF_ROCOF = 0 ∧
      (u.tally.sen.edges = [] ∧ u.tally.sen.winAt = none ∧ u.tally.sen.freqs = []) ∧
      (u.on senR TLY_SEN_CFG_EN = false → u.tally.sen.lost = false) ∧
      { u.tally with sen := m.tally.sen } = m.tally))

/-- R464, R487, R493, R495, R506, R513: the commands of Herald. PTP_INST puts its words into the instance, unless another
enabled one clashes; SESS_ADD puts a session in the first free slot of its probe, or counts ADDFAIL; SESS_DEL empties a
slot; ACCEPT_STEP adds the latched change to the accepted offset, or steps the LTC forward by it, or slews it back through
the time channel, and ends the refusal; ASYM_SET sets a port's asymmetry, or clears the path correction. -/
def Obligations.HeraldCommandsApply : Prop :=
  ∀ (s : State) (d : Desc) (slot c : Nat),
    let pl := d.payload.getD []
    let n := d.target
    (Applies s (.ptpInst d) →
      let w0 := leAt pl 0 4
      let clash := w0 % 2 = 1 ∧ s.piClash n (bitsOf w0 9 4) (bitsOf w0 7 2) (bitsOf w0 13 8) = true
      (clash → completes s (.ptpInst d) .inval (fun m u => u = m)) ∧
      (¬clash → completes s (.ptpInst d) .ok (fun m u =>
        (List.range 6).all (fun i => u.holdsWord (piR n + i) (leAt pl (4 * i) 4)) = true ∧
        ((m.pi n).on = false → m.others u ((List.range 6).map (piR n + ·)) ∧ { u with regs := m.regs } = m)))) ∧
    (Applies s (.sessAdd d) →
      let b0 := leAt pl 0 1
      let k := bitsOf b0 2 3
      let p := bitsOf b0 5 2
      let x : Sess := { request := bitsOf b0 1 1 = 1, inst := k, port := p, origin := false, addr := leAt pl 8 16
                        clk := leAt pl 26 8, pnum := leAt pl 24 2
                        minl := (List.range 3).map (fun i => signed (leAt pl (36 + i) 1) 8) }
      let full := x.request = true ∧ 8 ≤ (s.hrd.sess.filter (fun e => e.2.request && e.2.inst == k && e.2.port == p)).length
      let may := s.seOn = true ∧ s.piUnicast k = true ∧ s.piUses k p = true ∧ s.sessOf k p x.addr = none ∧ ¬full
      (¬may → completes s (.sessAdd d) .inval (fun m u => u = m)) ∧
      (may → (s.probe k p x.addr).all (fun i => (s.sess? i).isSome) = true → completes s (.sessAdd d) .inval (fun m u =>
        u.get hrcR HRD_SE_CNT_ADDFAIL = min (m.get hrcR HRD_SE_CNT_ADDFAIL + 1) 65535 ∧ u.hrd = m.hrd)) ∧
      (may → (s.probe k p x.addr).find? (fun i => (s.sess? i).isNone) = some slot → completes s (.sessAdd d) .ok (fun m u =>
        u.sess? slot = some x ∧ u.get hrcR HRD_SE_LAST_SLOT = slot % 2 ^ HRD_SE_LAST_SLOT.width ∧ u.on hrcR HRD_SE_LAST_VALID = true ∧
        u.hostMem = (m.sessStore slot x true).hostMem))) ∧
    (Applies s (.sessDel d) →
      (s.sess? (leAt pl 0 4) = none → completes s (.sessDel d) .inval (fun m u => u = m)) ∧
      (s.sess? (leAt pl 0 4) ≠ none → completes s (.sessDel d) .ok (fun _ u => u.sess? (leAt pl 0 4) = none))) ∧
    (Applies s (.acceptStep d) →
      let act := leAt pl 0 1
      let refused := s.on (pjR n) HRD_PI_JSTAT_REFUSED
      (refused = false → completes s (.acceptStep d) .inval (fun m u => u = m)) ∧
      (refused = true → act = 1 → completes s (.acceptStep d) .ok (fun m u =>
        u.hrd.pis = m.hrd.pis.modify n (fun x => { x with a := x.a + (m.pi n).c, good := 0 }) ∧
        u.on (pjR n) HRD_PI_JSTAT_REFUSED = false ∧ u.mil = m.mil)) ∧
      (refused = true → act = 0 → s.timeChan = none → completes s (.acceptStep d) .inval (fun m u => u = m)) ∧
      (refused = true → act = 0 → s.timeChan = some c → (s.pi n).c ≤ 0 →
        let x := ((s.taken (rowDesc d 0 0x3B)).milUndo.chanPhase c 1 (s.pi n).c)
        (x.2 = false → completes s (.acceptStep d) .inval (fun m u => u = m)) ∧
        (x.2 = true → completes s (.acceptStep d) .ok (fun m u => u.mil = x.1.mil ∧
          u.hrd.pis = m.hrd.pis.modify n (fun y => { y with a := 0, good := 0 }) ∧ u.on (pjR n) HRD_PI_JSTAT_REFUSED = false))) ∧
      (refused = true → act = 0 → s.timeChan = some c → 0 < (s.pi n).c →
        let amt := ((s.pi n).c / 65536).toNat
        let quiet := s.ltc.due = [] ∧ s.host.staged.all (fun x =>
          Decidable.decide ((s.ltc.sec * 1000000000 + s.ltc.ns + amt) / 31250 < max x.d.apply x.ready)) = true
        (s.ltc.landed = true → ∃ t, exec (.acceptStep d) s = .next t ∧ t.ltcRaw 0 = s.ltcRaw 0 ∧
          t.ltc.due = s.ltc.due ++ [⟨rowDesc d 0 0x3B, s.tn, s.host.seq⟩] ∧ t.on (pjR n) HRD_PI_JSTAT_REFUSED = true) ∧
        (s.ltc.landed = false → s.ltc.sec + amt / 1000000000 + (s.ltc.ns + amt % 1000000000) / 1000000000 < 2 ^ 48 →
          ∃ t, exec (.acceptStep d) s = .next t ∧ (quiet → t.ltcRaw 0 = s.ltcRaw 0 + amt * 2 ^ 32 ∧ (t.pi n).a = 0 ∧
            t.on (pjR n) HRD_PI_JSTAT_REFUSED = false ∧
            t.get rveR RVE_CMDCNT_APPLIED = min (s.get rveR RVE_CMDCNT_APPLIED + 1) 65535)) ∧
        (s.ltc.landed = false → 2 ^ 48 ≤ s.ltc.sec + amt / 1000000000 + (s.ltc.ns + amt % 1000000000) / 1000000000 →
          ∃ t, exec (.acceptStep d) s = .next t ∧ t.ltcRaw 0 = s.ltcRaw 0 ∧ t.on (pjR n) HRD_PI_JSTAT_REFUSED = true ∧
            t.get rveR RVE_CMDCNT_REJECTED = min (s.get rveR RVE_CMDCNT_REJECTED + 1) 65535))) ∧
    (Applies s (.asymSet d) → completes s (.asymSet d) .ok (fun m u =>
      let p := leAt pl 4 1
      (leAt pl 5 1 = 0 → u.get (pjR n) (HRD_PI_ASYM_ASYM.at p) = leAt pl 0 4) ∧
      (leAt pl 5 1 = 1 → u.get (pjR n) HRD_PI_PCOR_PCOR = 0) ∧
      ((m.pi n).parent = none → m.others u [if leAt pl 5 1 = 0 then pjR n + HRD_PI_ASYM_ASYM.idx + p else pjR n + HRD_PI_PCOR_PCOR.idx] ∧
        { u with regs := m.regs } = m)))

/-- R535, R555, R584, R585, R613: the commands of Polsis, Mirror, the Granary and Watchman. PLK_CTL asks for a swap 32 ticks on,
where the port leads a link that is not calibrating, starts a calibration, or takes a role; KEY_CTL sets and clears NOCLAIM,
and takes an override where one is allowed; GRN_STORE opens a request, unless sixteen are open, and queues its pages;
GRN_PF_MARK marks up to 256 pages; WCH_CLEAR clears the latches, counts and consequential bits it names, and the first-fault
record where asked. -/
def Obligations.KeeperCommandsApply : Prop :=
  ∀ (s : State) (d : Desc),
    let pl := d.payload.getD []
    let n := d.target
    let act := leAt pl 0 1
    (Applies s (.plkCtl d) →
      let may := s.plkUp n = true ∧ s.plkLeader n = true ∧ (s.plkP n).calib = false
      (act = 0 → ¬may → completes s (.plkCtl d) .inval (fun m u => u = m)) ∧
      (act = 0 → may → completes s (.plkCtl d) .ok (fun m u => u = { m with plk := { m.plk with
        ports := m.plk.ports.modify n (fun x => { x with swapAt := (m.prism.tick + 32) :: x.swapAt }) } })) ∧
      (act = 1 → s.plkUp n = false → completes s (.plkCtl d) .ok (fun m u =>
        m.others u [plkR n + PLK_DELAY_DRX.idx, plkR n + PLK_ASYM_DHAT.idx] ∧ { u with regs := m.regs } = { m with plk := { m.plk with
          ports := m.plk.ports.modify n (fun x => { x with dhat := 0 }) } })) ∧
      (act = 1 → s.plkUp n = true → completes s (.plkCtl d) .ok (fun m u => u.on (plkR n) PLK_STATUS_CAL = false ∧
        (n < m.plk.ports.length → (u.plkP n).calib = true ∧ (u.plkP n).dhat = 0))) ∧
      (act = 2 → s.plkRoleOk n (leAt pl 1 1) = false → completes s (.plkCtl d) .inval (fun m u => u = m)) ∧
      (act = 2 → s.plkRoleOk n (leAt pl 1 1) = true → completes s (.plkCtl d) .ok (fun m u =>
        u.get (plkR n) PLK_PORT_CFG_ROLE = leAt pl 1 1 ∧ u.get (plkR n) PLK_PORT_CFG_OSEL = leAt pl 5 1 % 2 ∧
        u.get (plkR n) PLK_ORIG_ORIG = leAt pl 2 3 % 2 ^ PLK_ORIG_ORIG.width ∧ u.plkUp n = false ∧
        (m.plkUp n = false → m.others u [plkR n + PLK_PORT_CFG_ROLE.idx, plkR n + PLK_ORIG_ORIG.idx] ∧ { u with regs := m.regs } =
          { m with plk := { m.plk with ports := m.plk.ports.modify n (fun x => { x with role := leAt pl 1 1 }) } })))) ∧
    (Applies s (.keyCtl d) → s.takeoverDue = false →
      (act = 0 → s.hasKey = false → completes s (.keyCtl d) .ok (fun m u => u = m)) ∧
      (act = 0 → s.hasKey = true → completes s (.keyCtl d) .ok (fun _ u => u.on mirR MIR_KEY_HOLD = false ∧
        u.get mirR MIR_STATUS_RCAUSE = 0 ∧ u.mode = 11)) ∧
      (act = 1 ∨ act = 2 → completes s (.keyCtl d) .ok (fun m u => u.on mirR MIR_CFG_NOCLAIM = (act == 1) ∧
        m.others u [mirR + MIR_CFG_NOCLAIM.idx] ∧ { u with regs := m.regs } = m)) ∧
      (act = 3 →
        let may := s.paired = true ∧ s.hasKey = false ∧ (s.mode = 6 ∨ s.mode = 12) ∧ s.mir.ovr = none ∧
          s.mir.ovrEnd.all (fun e => Decidable.decide (e + 32000 ≤ s.prism.tick)) = true
        (¬may → completes s (.keyCtl d) .denied (fun m u => u = m)) ∧
        (may → completes s (.keyCtl d) .ok (fun m u => u.on mirR MIR_KEY_KEY_OVERRIDE = true ∧
          u.mir = { m.mir with ovr := some (m.prism.tick + 1, m.prism.tick + 3) } ∧
          m.others u [mirR + MIR_KEY_KEY_OVERRIDE.idx] ∧ { u with regs := m.regs, mir := m.mir } = m)))) ∧
    (Applies s (.grnStore d) →
      let first := leAt pl 0 2
      let cnt := leAt pl 2 2
      (16 ≤ s.gran.reqs.length → completes s (.grnStore d) .inval (fun m u => u = m)) ∧
      (s.gran.reqs.length < 16 → completes s (.grnStore d) .ok (fun m u =>
        u.gran.reqs = m.gran.reqs ++ [{ first := first, left := (List.range cnt).map (first + ·) }] ∧
        (List.range cnt).all (fun i => u.gran.queue.any (fun e => e.1 == first + i && (e.2 || leAt pl 4 1 == 0))) = true ∧
        m.others u [grnR + GRN_STATUS_BUSY.idx] ∧
        { u with regs := m.regs, gran := { u.gran with reqs := m.gran.reqs, queue := m.gran.queue } } = m))) ∧
    (Applies s (.grnPfMark d) →
      let named := fun p => Decidable.decide (leAt pl 0 2 ≤ p ∧ p < leAt pl 0 2 + leAt pl 2 2)
      let marks := (List.range 1024).filter (fun p => s.gran.marks.contains p || named p)
      (leAt pl 4 1 = 1 → 256 < marks.length → completes s (.grnPfMark d) .inval (fun m u => u = m)) ∧
      (leAt pl 4 1 = 1 → marks.length ≤ 256 → completes s (.grnPfMark d) .ok (fun m u =>
        u.gran = { m.gran with marks := marks } ∧ u.get grnR GRN_PFCNT_MARKED = marks.length)) ∧
      (leAt pl 4 1 = 0 → completes s (.grnPfMark d) .ok (fun m u =>
        u.gran = { m.gran with marks := m.gran.marks.filter (fun p => !named p) }))) ∧
    (Applies s (.wchClear d) → completes s (.wchClear d) .ok (fun m u =>
      (List.range 96).all (fun i =>
        let named := leAt pl 0 12 / 2 ^ i % 2 = 1
        u.on wchR ((WCH_LAT_LAT.at (i / 32)).bit (i % 32)) == (if named then false else m.on wchR ((WCH_LAT_LAT.at (i / 32)).bit (i % 32))) &&
        u.on wchR ((WCH_CONS_CONS.at (i / 32)).bit (i % 32)) == (if named then false else m.on wchR ((WCH_CONS_CONS.at (i / 32)).bit (i % 32))) &&
        assocD 0 u.wd.cnt i == (if named then 0 else assocD 0 m.wd.cnt i) &&
        assocD 0 u.wd.ccnt i == (if named then 0 else assocD 0 m.wd.ccnt i)) = true ∧
      u.get wchR WCH_FIRST_VALID = (if leAt pl 12 1 = 1 then 0 else m.get wchR WCH_FIRST_VALID) ∧
      { u with regs := m.regs, wd := m.wd } = m))
end

