-- ==== Sys2Proof/Laws/State.lean ====
section
/-! SUPPORT. One lemma per field per update of State, so that no proof unfolds a record update: what each named update
leaves alone, and what the plain ones set. Registers read through an update that is not of the register file. Each holds by rfl;
the parentheses make simp rewrite with it instead of asking the kernel to unfold both sides. -/

namespace Sys2Proof.Machine

namespace State

variable (s : State)

/-! ## setReg -/

@[simp] theorem setReg_variant (k : Nat) (v : Word) : (s.setReg k v).variant = s.variant := (rfl)
@[simp] theorem setReg_ltc (k : Nat) (v : Word) : (s.setReg k v).ltc = s.ltc := (rfl)
@[simp] theorem setReg_free (k : Nat) (v : Word) : (s.setReg k v).free = s.free := (rfl)
@[simp] theorem setReg_hostMem (k : Nat) (v : Word) : (s.setReg k v).hostMem = s.hostMem := (rfl)
@[simp] theorem setReg_host (k : Nat) (v : Word) : (s.setReg k v).host = s.host := (rfl)
@[simp] theorem setReg_wd (k : Nat) (v : Word) : (s.setReg k v).wd = s.wd := (rfl)
@[simp] theorem setReg_prism (k : Nat) (v : Word) : (s.setReg k v).prism = s.prism := (rfl)
@[simp] theorem setReg_ens (k : Nat) (v : Word) : (s.setReg k v).ens = s.ens := (rfl)
@[simp] theorem setReg_tmp (k : Nat) (v : Word) : (s.setReg k v).tmp = s.tmp := (rfl)
@[simp] theorem setReg_mil (k : Nat) (v : Word) : (s.setReg k v).mil = s.mil := (rfl)
@[simp] theorem setReg_milBak (k : Nat) (v : Word) : (s.setReg k v).milBak = s.milBak := (rfl)
@[simp] theorem setReg_hearth (k : Nat) (v : Word) : (s.setReg k v).hearth = s.hearth := (rfl)
@[simp] theorem setReg_gran (k : Nat) (v : Word) : (s.setReg k v).gran = s.gran := (rfl)
@[simp] theorem setReg_loom (k : Nat) (v : Word) : (s.setReg k v).loom = s.loom := (rfl)
@[simp] theorem setReg_out (k : Nat) (v : Word) : (s.setReg k v).out = s.out := (rfl)
@[simp] theorem setReg_bridge (k : Nat) (v : Word) : (s.setReg k v).bridge = s.bridge := (rfl)
@[simp] theorem setReg_tcd (k : Nat) (v : Word) : (s.setReg k v).tcd = s.tcd := (rfl)
@[simp] theorem setReg_lens (k : Nat) (v : Word) : (s.setReg k v).lens = s.lens := (rfl)
@[simp] theorem setReg_tally (k : Nat) (v : Word) : (s.setReg k v).tally = s.tally := (rfl)
@[simp] theorem setReg_hrd (k : Nat) (v : Word) : (s.setReg k v).hrd = s.hrd := (rfl)
@[simp] theorem setReg_plk (k : Nat) (v : Word) : (s.setReg k v).plk = s.plk := (rfl)
@[simp] theorem setReg_mir (k : Nat) (v : Word) : (s.setReg k v).mir = s.mir := (rfl)
@[simp] theorem setReg_pwr (k : Nat) (v : Word) : (s.setReg k v).pwr = s.pwr := (rfl)
@[simp] theorem setReg_bus (k : Nat) (v : Word) : (s.setReg k v).bus = s.bus := (rfl)
@[simp] theorem setReg_spi (k : Nat) (v : Word) : (s.setReg k v).spi = s.spi := (rfl)
@[simp] theorem setReg_seqs (k : Nat) (v : Word) : (s.setReg k v).seqs = s.seqs := (rfl)
@[simp] theorem setReg_pending (k : Nat) (v : Word) : (s.setReg k v).pending = s.pending := (rfl)

/-! ## put -/

@[simp] theorem put_variant (b : Nat) (f : Fld) (v : Nat) : (s.put b f v).variant = s.variant := (rfl)
@[simp] theorem put_ltc (b : Nat) (f : Fld) (v : Nat) : (s.put b f v).ltc = s.ltc := (rfl)
@[simp] theorem put_free (b : Nat) (f : Fld) (v : Nat) : (s.put b f v).free = s.free := (rfl)
@[simp] theorem put_hostMem (b : Nat) (f : Fld) (v : Nat) : (s.put b f v).hostMem = s.hostMem := (rfl)
@[simp] theorem put_host (b : Nat) (f : Fld) (v : Nat) : (s.put b f v).host = s.host := (rfl)
@[simp] theorem put_wd (b : Nat) (f : Fld) (v : Nat) : (s.put b f v).wd = s.wd := (rfl)
@[simp] theorem put_prism (b : Nat) (f : Fld) (v : Nat) : (s.put b f v).prism = s.prism := (rfl)
@[simp] theorem put_ens (b : Nat) (f : Fld) (v : Nat) : (s.put b f v).ens = s.ens := (rfl)
@[simp] theorem put_tmp (b : Nat) (f : Fld) (v : Nat) : (s.put b f v).tmp = s.tmp := (rfl)
@[simp] theorem put_mil (b : Nat) (f : Fld) (v : Nat) : (s.put b f v).mil = s.mil := (rfl)
@[simp] theorem put_milBak (b : Nat) (f : Fld) (v : Nat) : (s.put b f v).milBak = s.milBak := (rfl)
@[simp] theorem put_hearth (b : Nat) (f : Fld) (v : Nat) : (s.put b f v).hearth = s.hearth := (rfl)
@[simp] theorem put_gran (b : Nat) (f : Fld) (v : Nat) : (s.put b f v).gran = s.gran := (rfl)
@[simp] theorem put_loom (b : Nat) (f : Fld) (v : Nat) : (s.put b f v).loom = s.loom := (rfl)
@[simp] theorem put_out (b : Nat) (f : Fld) (v : Nat) : (s.put b f v).out = s.out := (rfl)
@[simp] theorem put_bridge (b : Nat) (f : Fld) (v : Nat) : (s.put b f v).bridge = s.bridge := (rfl)
@[simp] theorem put_tcd (b : Nat) (f : Fld) (v : Nat) : (s.put b f v).tcd = s.tcd := (rfl)
@[simp] theorem put_lens (b : Nat) (f : Fld) (v : Nat) : (s.put b f v).lens = s.lens := (rfl)
@[simp] theorem put_tally (b : Nat) (f : Fld) (v : Nat) : (s.put b f v).tally = s.tally := (rfl)
@[simp] theorem put_hrd (b : Nat) (f : Fld) (v : Nat) : (s.put b f v).hrd = s.hrd := (rfl)
@[simp] theorem put_plk (b : Nat) (f : Fld) (v : Nat) : (s.put b f v).plk = s.plk := (rfl)
@[simp] theorem put_mir (b : Nat) (f : Fld) (v : Nat) : (s.put b f v).mir = s.mir := (rfl)
@[simp] theorem put_pwr (b : Nat) (f : Fld) (v : Nat) : (s.put b f v).pwr = s.pwr := (rfl)
@[simp] theorem put_bus (b : Nat) (f : Fld) (v : Nat) : (s.put b f v).bus = s.bus := (rfl)
@[simp] theorem put_spi (b : Nat) (f : Fld) (v : Nat) : (s.put b f v).spi = s.spi := (rfl)
@[simp] theorem put_seqs (b : Nat) (f : Fld) (v : Nat) : (s.put b f v).seqs = s.seqs := (rfl)
@[simp] theorem put_pending (b : Nat) (f : Fld) (v : Nat) : (s.put b f v).pending = s.pending := (rfl)

/-! ## putI -/

@[simp] theorem putI_variant (b : Nat) (f : Fld) (v : Int) : (s.putI b f v).variant = s.variant := (rfl)
@[simp] theorem putI_ltc (b : Nat) (f : Fld) (v : Int) : (s.putI b f v).ltc = s.ltc := (rfl)
@[simp] theorem putI_free (b : Nat) (f : Fld) (v : Int) : (s.putI b f v).free = s.free := (rfl)
@[simp] theorem putI_hostMem (b : Nat) (f : Fld) (v : Int) : (s.putI b f v).hostMem = s.hostMem := (rfl)
@[simp] theorem putI_host (b : Nat) (f : Fld) (v : Int) : (s.putI b f v).host = s.host := (rfl)
@[simp] theorem putI_wd (b : Nat) (f : Fld) (v : Int) : (s.putI b f v).wd = s.wd := (rfl)
@[simp] theorem putI_prism (b : Nat) (f : Fld) (v : Int) : (s.putI b f v).prism = s.prism := (rfl)
@[simp] theorem putI_ens (b : Nat) (f : Fld) (v : Int) : (s.putI b f v).ens = s.ens := (rfl)
@[simp] theorem putI_tmp (b : Nat) (f : Fld) (v : Int) : (s.putI b f v).tmp = s.tmp := (rfl)
@[simp] theorem putI_mil (b : Nat) (f : Fld) (v : Int) : (s.putI b f v).mil = s.mil := (rfl)
@[simp] theorem putI_milBak (b : Nat) (f : Fld) (v : Int) : (s.putI b f v).milBak = s.milBak := (rfl)
@[simp] theorem putI_hearth (b : Nat) (f : Fld) (v : Int) : (s.putI b f v).hearth = s.hearth := (rfl)
@[simp] theorem putI_gran (b : Nat) (f : Fld) (v : Int) : (s.putI b f v).gran = s.gran := (rfl)
@[simp] theorem putI_loom (b : Nat) (f : Fld) (v : Int) : (s.putI b f v).loom = s.loom := (rfl)
@[simp] theorem putI_out (b : Nat) (f : Fld) (v : Int) : (s.putI b f v).out = s.out := (rfl)
@[simp] theorem putI_bridge (b : Nat) (f : Fld) (v : Int) : (s.putI b f v).bridge = s.bridge := (rfl)
@[simp] theorem putI_tcd (b : Nat) (f : Fld) (v : Int) : (s.putI b f v).tcd = s.tcd := (rfl)
@[simp] theorem putI_lens (b : Nat) (f : Fld) (v : Int) : (s.putI b f v).lens = s.lens := (rfl)
@[simp] theorem putI_tally (b : Nat) (f : Fld) (v : Int) : (s.putI b f v).tally = s.tally := (rfl)
@[simp] theorem putI_hrd (b : Nat) (f : Fld) (v : Int) : (s.putI b f v).hrd = s.hrd := (rfl)
@[simp] theorem putI_plk (b : Nat) (f : Fld) (v : Int) : (s.putI b f v).plk = s.plk := (rfl)
@[simp] theorem putI_mir (b : Nat) (f : Fld) (v : Int) : (s.putI b f v).mir = s.mir := (rfl)
@[simp] theorem putI_pwr (b : Nat) (f : Fld) (v : Int) : (s.putI b f v).pwr = s.pwr := (rfl)
@[simp] theorem putI_bus (b : Nat) (f : Fld) (v : Int) : (s.putI b f v).bus = s.bus := (rfl)
@[simp] theorem putI_spi (b : Nat) (f : Fld) (v : Int) : (s.putI b f v).spi = s.spi := (rfl)
@[simp] theorem putI_seqs (b : Nat) (f : Fld) (v : Int) : (s.putI b f v).seqs = s.seqs := (rfl)
@[simp] theorem putI_pending (b : Nat) (f : Fld) (v : Int) : (s.putI b f v).pending = s.pending := (rfl)

/-! ## putB -/

@[simp] theorem putB_variant (b : Nat) (f : Fld) (v : Bool) : (s.putB b f v).variant = s.variant := (rfl)
@[simp] theorem putB_ltc (b : Nat) (f : Fld) (v : Bool) : (s.putB b f v).ltc = s.ltc := (rfl)
@[simp] theorem putB_free (b : Nat) (f : Fld) (v : Bool) : (s.putB b f v).free = s.free := (rfl)
@[simp] theorem putB_hostMem (b : Nat) (f : Fld) (v : Bool) : (s.putB b f v).hostMem = s.hostMem := (rfl)
@[simp] theorem putB_host (b : Nat) (f : Fld) (v : Bool) : (s.putB b f v).host = s.host := (rfl)
@[simp] theorem putB_wd (b : Nat) (f : Fld) (v : Bool) : (s.putB b f v).wd = s.wd := (rfl)
@[simp] theorem putB_prism (b : Nat) (f : Fld) (v : Bool) : (s.putB b f v).prism = s.prism := (rfl)
@[simp] theorem putB_ens (b : Nat) (f : Fld) (v : Bool) : (s.putB b f v).ens = s.ens := (rfl)
@[simp] theorem putB_tmp (b : Nat) (f : Fld) (v : Bool) : (s.putB b f v).tmp = s.tmp := (rfl)
@[simp] theorem putB_mil (b : Nat) (f : Fld) (v : Bool) : (s.putB b f v).mil = s.mil := (rfl)
@[simp] theorem putB_milBak (b : Nat) (f : Fld) (v : Bool) : (s.putB b f v).milBak = s.milBak := (rfl)
@[simp] theorem putB_hearth (b : Nat) (f : Fld) (v : Bool) : (s.putB b f v).hearth = s.hearth := (rfl)
@[simp] theorem putB_gran (b : Nat) (f : Fld) (v : Bool) : (s.putB b f v).gran = s.gran := (rfl)
@[simp] theorem putB_loom (b : Nat) (f : Fld) (v : Bool) : (s.putB b f v).loom = s.loom := (rfl)
@[simp] theorem putB_out (b : Nat) (f : Fld) (v : Bool) : (s.putB b f v).out = s.out := (rfl)
@[simp] theorem putB_bridge (b : Nat) (f : Fld) (v : Bool) : (s.putB b f v).bridge = s.bridge := (rfl)
@[simp] theorem putB_tcd (b : Nat) (f : Fld) (v : Bool) : (s.putB b f v).tcd = s.tcd := (rfl)
@[simp] theorem putB_lens (b : Nat) (f : Fld) (v : Bool) : (s.putB b f v).lens = s.lens := (rfl)
@[simp] theorem putB_tally (b : Nat) (f : Fld) (v : Bool) : (s.putB b f v).tally = s.tally := (rfl)
@[simp] theorem putB_hrd (b : Nat) (f : Fld) (v : Bool) : (s.putB b f v).hrd = s.hrd := (rfl)
@[simp] theorem putB_plk (b : Nat) (f : Fld) (v : Bool) : (s.putB b f v).plk = s.plk := (rfl)
@[simp] theorem putB_mir (b : Nat) (f : Fld) (v : Bool) : (s.putB b f v).mir = s.mir := (rfl)
@[simp] theorem putB_pwr (b : Nat) (f : Fld) (v : Bool) : (s.putB b f v).pwr = s.pwr := (rfl)
@[simp] theorem putB_bus (b : Nat) (f : Fld) (v : Bool) : (s.putB b f v).bus = s.bus := (rfl)
@[simp] theorem putB_spi (b : Nat) (f : Fld) (v : Bool) : (s.putB b f v).spi = s.spi := (rfl)
@[simp] theorem putB_seqs (b : Nat) (f : Fld) (v : Bool) : (s.putB b f v).seqs = s.seqs := (rfl)
@[simp] theorem putB_pending (b : Nat) (f : Fld) (v : Bool) : (s.putB b f v).pending = s.pending := (rfl)

/-! ## putSat -/

@[simp] theorem putSat_variant (b : Nat) (f : Fld) (v : Nat) : (s.putSat b f v).variant = s.variant := (rfl)
@[simp] theorem putSat_ltc (b : Nat) (f : Fld) (v : Nat) : (s.putSat b f v).ltc = s.ltc := (rfl)
@[simp] theorem putSat_free (b : Nat) (f : Fld) (v : Nat) : (s.putSat b f v).free = s.free := (rfl)
@[simp] theorem putSat_hostMem (b : Nat) (f : Fld) (v : Nat) : (s.putSat b f v).hostMem = s.hostMem := (rfl)
@[simp] theorem putSat_host (b : Nat) (f : Fld) (v : Nat) : (s.putSat b f v).host = s.host := (rfl)
@[simp] theorem putSat_wd (b : Nat) (f : Fld) (v : Nat) : (s.putSat b f v).wd = s.wd := (rfl)
@[simp] theorem putSat_prism (b : Nat) (f : Fld) (v : Nat) : (s.putSat b f v).prism = s.prism := (rfl)
@[simp] theorem putSat_ens (b : Nat) (f : Fld) (v : Nat) : (s.putSat b f v).ens = s.ens := (rfl)
@[simp] theorem putSat_tmp (b : Nat) (f : Fld) (v : Nat) : (s.putSat b f v).tmp = s.tmp := (rfl)
@[simp] theorem putSat_mil (b : Nat) (f : Fld) (v : Nat) : (s.putSat b f v).mil = s.mil := (rfl)
@[simp] theorem putSat_milBak (b : Nat) (f : Fld) (v : Nat) : (s.putSat b f v).milBak = s.milBak := (rfl)
@[simp] theorem putSat_hearth (b : Nat) (f : Fld) (v : Nat) : (s.putSat b f v).hearth = s.hearth := (rfl)
@[simp] theorem putSat_gran (b : Nat) (f : Fld) (v : Nat) : (s.putSat b f v).gran = s.gran := (rfl)
@[simp] theorem putSat_loom (b : Nat) (f : Fld) (v : Nat) : (s.putSat b f v).loom = s.loom := (rfl)
@[simp] theorem putSat_out (b : Nat) (f : Fld) (v : Nat) : (s.putSat b f v).out = s.out := (rfl)
@[simp] theorem putSat_bridge (b : Nat) (f : Fld) (v : Nat) : (s.putSat b f v).bridge = s.bridge := (rfl)
@[simp] theorem putSat_tcd (b : Nat) (f : Fld) (v : Nat) : (s.putSat b f v).tcd = s.tcd := (rfl)
@[simp] theorem putSat_lens (b : Nat) (f : Fld) (v : Nat) : (s.putSat b f v).lens = s.lens := (rfl)
@[simp] theorem putSat_tally (b : Nat) (f : Fld) (v : Nat) : (s.putSat b f v).tally = s.tally := (rfl)
@[simp] theorem putSat_hrd (b : Nat) (f : Fld) (v : Nat) : (s.putSat b f v).hrd = s.hrd := (rfl)
@[simp] theorem putSat_plk (b : Nat) (f : Fld) (v : Nat) : (s.putSat b f v).plk = s.plk := (rfl)
@[simp] theorem putSat_mir (b : Nat) (f : Fld) (v : Nat) : (s.putSat b f v).mir = s.mir := (rfl)
@[simp] theorem putSat_pwr (b : Nat) (f : Fld) (v : Nat) : (s.putSat b f v).pwr = s.pwr := (rfl)
@[simp] theorem putSat_bus (b : Nat) (f : Fld) (v : Nat) : (s.putSat b f v).bus = s.bus := (rfl)
@[simp] theorem putSat_spi (b : Nat) (f : Fld) (v : Nat) : (s.putSat b f v).spi = s.spi := (rfl)
@[simp] theorem putSat_seqs (b : Nat) (f : Fld) (v : Nat) : (s.putSat b f v).seqs = s.seqs := (rfl)
@[simp] theorem putSat_pending (b : Nat) (f : Fld) (v : Nat) : (s.putSat b f v).pending = s.pending := (rfl)

/-! ## putSatI -/

@[simp] theorem putSatI_variant (b : Nat) (f : Fld) (v : Int) : (s.putSatI b f v).variant = s.variant := (rfl)
@[simp] theorem putSatI_ltc (b : Nat) (f : Fld) (v : Int) : (s.putSatI b f v).ltc = s.ltc := (rfl)
@[simp] theorem putSatI_free (b : Nat) (f : Fld) (v : Int) : (s.putSatI b f v).free = s.free := (rfl)
@[simp] theorem putSatI_hostMem (b : Nat) (f : Fld) (v : Int) : (s.putSatI b f v).hostMem = s.hostMem := (rfl)
@[simp] theorem putSatI_host (b : Nat) (f : Fld) (v : Int) : (s.putSatI b f v).host = s.host := (rfl)
@[simp] theorem putSatI_wd (b : Nat) (f : Fld) (v : Int) : (s.putSatI b f v).wd = s.wd := (rfl)
@[simp] theorem putSatI_prism (b : Nat) (f : Fld) (v : Int) : (s.putSatI b f v).prism = s.prism := (rfl)
@[simp] theorem putSatI_ens (b : Nat) (f : Fld) (v : Int) : (s.putSatI b f v).ens = s.ens := (rfl)
@[simp] theorem putSatI_tmp (b : Nat) (f : Fld) (v : Int) : (s.putSatI b f v).tmp = s.tmp := (rfl)
@[simp] theorem putSatI_mil (b : Nat) (f : Fld) (v : Int) : (s.putSatI b f v).mil = s.mil := (rfl)
@[simp] theorem putSatI_milBak (b : Nat) (f : Fld) (v : Int) : (s.putSatI b f v).milBak = s.milBak := (rfl)
@[simp] theorem putSatI_hearth (b : Nat) (f : Fld) (v : Int) : (s.putSatI b f v).hearth = s.hearth := (rfl)
@[simp] theorem putSatI_gran (b : Nat) (f : Fld) (v : Int) : (s.putSatI b f v).gran = s.gran := (rfl)
@[simp] theorem putSatI_loom (b : Nat) (f : Fld) (v : Int) : (s.putSatI b f v).loom = s.loom := (rfl)
@[simp] theorem putSatI_out (b : Nat) (f : Fld) (v : Int) : (s.putSatI b f v).out = s.out := (rfl)
@[simp] theorem putSatI_bridge (b : Nat) (f : Fld) (v : Int) : (s.putSatI b f v).bridge = s.bridge := (rfl)
@[simp] theorem putSatI_tcd (b : Nat) (f : Fld) (v : Int) : (s.putSatI b f v).tcd = s.tcd := (rfl)
@[simp] theorem putSatI_lens (b : Nat) (f : Fld) (v : Int) : (s.putSatI b f v).lens = s.lens := (rfl)
@[simp] theorem putSatI_tally (b : Nat) (f : Fld) (v : Int) : (s.putSatI b f v).tally = s.tally := (rfl)
@[simp] theorem putSatI_hrd (b : Nat) (f : Fld) (v : Int) : (s.putSatI b f v).hrd = s.hrd := (rfl)
@[simp] theorem putSatI_plk (b : Nat) (f : Fld) (v : Int) : (s.putSatI b f v).plk = s.plk := (rfl)
@[simp] theorem putSatI_mir (b : Nat) (f : Fld) (v : Int) : (s.putSatI b f v).mir = s.mir := (rfl)
@[simp] theorem putSatI_pwr (b : Nat) (f : Fld) (v : Int) : (s.putSatI b f v).pwr = s.pwr := (rfl)
@[simp] theorem putSatI_bus (b : Nat) (f : Fld) (v : Int) : (s.putSatI b f v).bus = s.bus := (rfl)
@[simp] theorem putSatI_spi (b : Nat) (f : Fld) (v : Int) : (s.putSatI b f v).spi = s.spi := (rfl)
@[simp] theorem putSatI_seqs (b : Nat) (f : Fld) (v : Int) : (s.putSatI b f v).seqs = s.seqs := (rfl)
@[simp] theorem putSatI_pending (b : Nat) (f : Fld) (v : Int) : (s.putSatI b f v).pending = s.pending := (rfl)

/-! ## bump -/

@[simp] theorem bump_variant (b : Nat) (f : Fld) (n : Nat) : (s.bump b f n).variant = s.variant := (rfl)
@[simp] theorem bump_ltc (b : Nat) (f : Fld) (n : Nat) : (s.bump b f n).ltc = s.ltc := (rfl)
@[simp] theorem bump_free (b : Nat) (f : Fld) (n : Nat) : (s.bump b f n).free = s.free := (rfl)
@[simp] theorem bump_hostMem (b : Nat) (f : Fld) (n : Nat) : (s.bump b f n).hostMem = s.hostMem := (rfl)
@[simp] theorem bump_host (b : Nat) (f : Fld) (n : Nat) : (s.bump b f n).host = s.host := (rfl)
@[simp] theorem bump_wd (b : Nat) (f : Fld) (n : Nat) : (s.bump b f n).wd = s.wd := (rfl)
@[simp] theorem bump_prism (b : Nat) (f : Fld) (n : Nat) : (s.bump b f n).prism = s.prism := (rfl)
@[simp] theorem bump_ens (b : Nat) (f : Fld) (n : Nat) : (s.bump b f n).ens = s.ens := (rfl)
@[simp] theorem bump_tmp (b : Nat) (f : Fld) (n : Nat) : (s.bump b f n).tmp = s.tmp := (rfl)
@[simp] theorem bump_mil (b : Nat) (f : Fld) (n : Nat) : (s.bump b f n).mil = s.mil := (rfl)
@[simp] theorem bump_milBak (b : Nat) (f : Fld) (n : Nat) : (s.bump b f n).milBak = s.milBak := (rfl)
@[simp] theorem bump_hearth (b : Nat) (f : Fld) (n : Nat) : (s.bump b f n).hearth = s.hearth := (rfl)
@[simp] theorem bump_gran (b : Nat) (f : Fld) (n : Nat) : (s.bump b f n).gran = s.gran := (rfl)
@[simp] theorem bump_loom (b : Nat) (f : Fld) (n : Nat) : (s.bump b f n).loom = s.loom := (rfl)
@[simp] theorem bump_out (b : Nat) (f : Fld) (n : Nat) : (s.bump b f n).out = s.out := (rfl)
@[simp] theorem bump_bridge (b : Nat) (f : Fld) (n : Nat) : (s.bump b f n).bridge = s.bridge := (rfl)
@[simp] theorem bump_tcd (b : Nat) (f : Fld) (n : Nat) : (s.bump b f n).tcd = s.tcd := (rfl)
@[simp] theorem bump_lens (b : Nat) (f : Fld) (n : Nat) : (s.bump b f n).lens = s.lens := (rfl)
@[simp] theorem bump_tally (b : Nat) (f : Fld) (n : Nat) : (s.bump b f n).tally = s.tally := (rfl)
@[simp] theorem bump_hrd (b : Nat) (f : Fld) (n : Nat) : (s.bump b f n).hrd = s.hrd := (rfl)
@[simp] theorem bump_plk (b : Nat) (f : Fld) (n : Nat) : (s.bump b f n).plk = s.plk := (rfl)
@[simp] theorem bump_mir (b : Nat) (f : Fld) (n : Nat) : (s.bump b f n).mir = s.mir := (rfl)
@[simp] theorem bump_pwr (b : Nat) (f : Fld) (n : Nat) : (s.bump b f n).pwr = s.pwr := (rfl)
@[simp] theorem bump_bus (b : Nat) (f : Fld) (n : Nat) : (s.bump b f n).bus = s.bus := (rfl)
@[simp] theorem bump_spi (b : Nat) (f : Fld) (n : Nat) : (s.bump b f n).spi = s.spi := (rfl)
@[simp] theorem bump_seqs (b : Nat) (f : Fld) (n : Nat) : (s.bump b f n).seqs = s.seqs := (rfl)
@[simp] theorem bump_pending (b : Nat) (f : Fld) (n : Nat) : (s.bump b f n).pending = s.pending := (rfl)

/-! ## put64 -/

@[simp] theorem put64_variant (b : Nat) (lo hi : Fld) (v : Int) : (s.put64 b lo hi v).variant = s.variant := (rfl)
@[simp] theorem put64_ltc (b : Nat) (lo hi : Fld) (v : Int) : (s.put64 b lo hi v).ltc = s.ltc := (rfl)
@[simp] theorem put64_free (b : Nat) (lo hi : Fld) (v : Int) : (s.put64 b lo hi v).free = s.free := (rfl)
@[simp] theorem put64_hostMem (b : Nat) (lo hi : Fld) (v : Int) : (s.put64 b lo hi v).hostMem = s.hostMem := (rfl)
@[simp] theorem put64_host (b : Nat) (lo hi : Fld) (v : Int) : (s.put64 b lo hi v).host = s.host := (rfl)
@[simp] theorem put64_wd (b : Nat) (lo hi : Fld) (v : Int) : (s.put64 b lo hi v).wd = s.wd := (rfl)
@[simp] theorem put64_prism (b : Nat) (lo hi : Fld) (v : Int) : (s.put64 b lo hi v).prism = s.prism := (rfl)
@[simp] theorem put64_ens (b : Nat) (lo hi : Fld) (v : Int) : (s.put64 b lo hi v).ens = s.ens := (rfl)
@[simp] theorem put64_tmp (b : Nat) (lo hi : Fld) (v : Int) : (s.put64 b lo hi v).tmp = s.tmp := (rfl)
@[simp] theorem put64_mil (b : Nat) (lo hi : Fld) (v : Int) : (s.put64 b lo hi v).mil = s.mil := (rfl)
@[simp] theorem put64_milBak (b : Nat) (lo hi : Fld) (v : Int) : (s.put64 b lo hi v).milBak = s.milBak := (rfl)
@[simp] theorem put64_hearth (b : Nat) (lo hi : Fld) (v : Int) : (s.put64 b lo hi v).hearth = s.hearth := (rfl)
@[simp] theorem put64_gran (b : Nat) (lo hi : Fld) (v : Int) : (s.put64 b lo hi v).gran = s.gran := (rfl)
@[simp] theorem put64_loom (b : Nat) (lo hi : Fld) (v : Int) : (s.put64 b lo hi v).loom = s.loom := (rfl)
@[simp] theorem put64_out (b : Nat) (lo hi : Fld) (v : Int) : (s.put64 b lo hi v).out = s.out := (rfl)
@[simp] theorem put64_bridge (b : Nat) (lo hi : Fld) (v : Int) : (s.put64 b lo hi v).bridge = s.bridge := (rfl)
@[simp] theorem put64_tcd (b : Nat) (lo hi : Fld) (v : Int) : (s.put64 b lo hi v).tcd = s.tcd := (rfl)
@[simp] theorem put64_lens (b : Nat) (lo hi : Fld) (v : Int) : (s.put64 b lo hi v).lens = s.lens := (rfl)
@[simp] theorem put64_tally (b : Nat) (lo hi : Fld) (v : Int) : (s.put64 b lo hi v).tally = s.tally := (rfl)
@[simp] theorem put64_hrd (b : Nat) (lo hi : Fld) (v : Int) : (s.put64 b lo hi v).hrd = s.hrd := (rfl)
@[simp] theorem put64_plk (b : Nat) (lo hi : Fld) (v : Int) : (s.put64 b lo hi v).plk = s.plk := (rfl)
@[simp] theorem put64_mir (b : Nat) (lo hi : Fld) (v : Int) : (s.put64 b lo hi v).mir = s.mir := (rfl)
@[simp] theorem put64_pwr (b : Nat) (lo hi : Fld) (v : Int) : (s.put64 b lo hi v).pwr = s.pwr := (rfl)
@[simp] theorem put64_bus (b : Nat) (lo hi : Fld) (v : Int) : (s.put64 b lo hi v).bus = s.bus := (rfl)
@[simp] theorem put64_spi (b : Nat) (lo hi : Fld) (v : Int) : (s.put64 b lo hi v).spi = s.spi := (rfl)
@[simp] theorem put64_seqs (b : Nat) (lo hi : Fld) (v : Int) : (s.put64 b lo hi v).seqs = s.seqs := (rfl)
@[simp] theorem put64_pending (b : Nat) (lo hi : Fld) (v : Int) : (s.put64 b lo hi v).pending = s.pending := (rfl)

/-! ## setMode -/

@[simp] theorem setMode_variant (m : Nat) : (s.setMode m).variant = s.variant := (rfl)
@[simp] theorem setMode_ltc (m : Nat) : (s.setMode m).ltc = s.ltc := (rfl)
@[simp] theorem setMode_free (m : Nat) : (s.setMode m).free = s.free := (rfl)
@[simp] theorem setMode_hostMem (m : Nat) : (s.setMode m).hostMem = s.hostMem := (rfl)
@[simp] theorem setMode_host (m : Nat) : (s.setMode m).host = s.host := (rfl)
@[simp] theorem setMode_wd (m : Nat) : (s.setMode m).wd = s.wd := (rfl)
@[simp] theorem setMode_prism (m : Nat) : (s.setMode m).prism = s.prism := (rfl)
@[simp] theorem setMode_ens (m : Nat) : (s.setMode m).ens = s.ens := (rfl)
@[simp] theorem setMode_tmp (m : Nat) : (s.setMode m).tmp = s.tmp := (rfl)
@[simp] theorem setMode_mil (m : Nat) : (s.setMode m).mil = s.mil := (rfl)
@[simp] theorem setMode_milBak (m : Nat) : (s.setMode m).milBak = s.milBak := (rfl)
@[simp] theorem setMode_hearth (m : Nat) : (s.setMode m).hearth = s.hearth := (rfl)
@[simp] theorem setMode_gran (m : Nat) : (s.setMode m).gran = s.gran := (rfl)
@[simp] theorem setMode_loom (m : Nat) : (s.setMode m).loom = s.loom := (rfl)
@[simp] theorem setMode_out (m : Nat) : (s.setMode m).out = s.out := (rfl)
@[simp] theorem setMode_bridge (m : Nat) : (s.setMode m).bridge = s.bridge := (rfl)
@[simp] theorem setMode_tcd (m : Nat) : (s.setMode m).tcd = s.tcd := (rfl)
@[simp] theorem setMode_lens (m : Nat) : (s.setMode m).lens = s.lens := (rfl)
@[simp] theorem setMode_tally (m : Nat) : (s.setMode m).tally = s.tally := (rfl)
@[simp] theorem setMode_hrd (m : Nat) : (s.setMode m).hrd = s.hrd := (rfl)
@[simp] theorem setMode_plk (m : Nat) : (s.setMode m).plk = s.plk := (rfl)
@[simp] theorem setMode_mir (m : Nat) : (s.setMode m).mir = s.mir := (rfl)
@[simp] theorem setMode_pwr (m : Nat) : (s.setMode m).pwr = s.pwr := (rfl)
@[simp] theorem setMode_bus (m : Nat) : (s.setMode m).bus = s.bus := (rfl)
@[simp] theorem setMode_spi (m : Nat) : (s.setMode m).spi = s.spi := (rfl)
@[simp] theorem setMode_seqs (m : Nat) : (s.setMode m).seqs = s.seqs := (rfl)
@[simp] theorem setMode_pending (m : Nat) : (s.setMode m).pending = s.pending := (rfl)

/-! ## raiseAt -/

@[simp] theorem raiseAt_variant (tn ev inst data : Nat) : (s.raiseAt tn ev inst data).variant = s.variant := (rfl)
@[simp] theorem raiseAt_regs (tn ev inst data : Nat) : (s.raiseAt tn ev inst data).regs = s.regs := (rfl)
@[simp] theorem raiseAt_ltc (tn ev inst data : Nat) : (s.raiseAt tn ev inst data).ltc = s.ltc := (rfl)
@[simp] theorem raiseAt_free (tn ev inst data : Nat) : (s.raiseAt tn ev inst data).free = s.free := (rfl)
@[simp] theorem raiseAt_hostMem (tn ev inst data : Nat) : (s.raiseAt tn ev inst data).hostMem = s.hostMem := (rfl)
@[simp] theorem raiseAt_wd (tn ev inst data : Nat) : (s.raiseAt tn ev inst data).wd = s.wd := (rfl)
@[simp] theorem raiseAt_prism (tn ev inst data : Nat) : (s.raiseAt tn ev inst data).prism = s.prism := (rfl)
@[simp] theorem raiseAt_ens (tn ev inst data : Nat) : (s.raiseAt tn ev inst data).ens = s.ens := (rfl)
@[simp] theorem raiseAt_tmp (tn ev inst data : Nat) : (s.raiseAt tn ev inst data).tmp = s.tmp := (rfl)
@[simp] theorem raiseAt_mil (tn ev inst data : Nat) : (s.raiseAt tn ev inst data).mil = s.mil := (rfl)
@[simp] theorem raiseAt_milBak (tn ev inst data : Nat) : (s.raiseAt tn ev inst data).milBak = s.milBak := (rfl)
@[simp] theorem raiseAt_hearth (tn ev inst data : Nat) : (s.raiseAt tn ev inst data).hearth = s.hearth := (rfl)
@[simp] theorem raiseAt_gran (tn ev inst data : Nat) : (s.raiseAt tn ev inst data).gran = s.gran := (rfl)
@[simp] theorem raiseAt_loom (tn ev inst data : Nat) : (s.raiseAt tn ev inst data).loom = s.loom := (rfl)
@[simp] theorem raiseAt_out (tn ev inst data : Nat) : (s.raiseAt tn ev inst data).out = s.out := (rfl)
@[simp] theorem raiseAt_bridge (tn ev inst data : Nat) : (s.raiseAt tn ev inst data).bridge = s.bridge := (rfl)
@[simp] theorem raiseAt_tcd (tn ev inst data : Nat) : (s.raiseAt tn ev inst data).tcd = s.tcd := (rfl)
@[simp] theorem raiseAt_lens (tn ev inst data : Nat) : (s.raiseAt tn ev inst data).lens = s.lens := (rfl)
@[simp] theorem raiseAt_tally (tn ev inst data : Nat) : (s.raiseAt tn ev inst data).tally = s.tally := (rfl)
@[simp] theorem raiseAt_hrd (tn ev inst data : Nat) : (s.raiseAt tn ev inst data).hrd = s.hrd := (rfl)
@[simp] theorem raiseAt_plk (tn ev inst data : Nat) : (s.raiseAt tn ev inst data).plk = s.plk := (rfl)
@[simp] theorem raiseAt_mir (tn ev inst data : Nat) : (s.raiseAt tn ev inst data).mir = s.mir := (rfl)
@[simp] theorem raiseAt_pwr (tn ev inst data : Nat) : (s.raiseAt tn ev inst data).pwr = s.pwr := (rfl)
@[simp] theorem raiseAt_bus (tn ev inst data : Nat) : (s.raiseAt tn ev inst data).bus = s.bus := (rfl)
@[simp] theorem raiseAt_spi (tn ev inst data : Nat) : (s.raiseAt tn ev inst data).spi = s.spi := (rfl)
@[simp] theorem raiseAt_seqs (tn ev inst data : Nat) : (s.raiseAt tn ev inst data).seqs = s.seqs := (rfl)
@[simp] theorem raiseAt_pending (tn ev inst data : Nat) : (s.raiseAt tn ev inst data).pending = s.pending := (rfl)
@[simp] theorem raiseAt_reg (tn ev inst data : Nat) (j : Nat) : (s.raiseAt tn ev inst data).reg j = s.reg j := (rfl)
@[simp] theorem raiseAt_get (tn ev inst data : Nat) (r : Nat) (x : Fld) : (s.raiseAt tn ev inst data).get r x = s.get r x := (rfl)
@[simp] theorem raiseAt_on (tn ev inst data : Nat) (r : Nat) (x : Fld) : (s.raiseAt tn ev inst data).on r x = s.on r x := (rfl)
@[simp] theorem raiseAt_getI (tn ev inst data : Nat) (r : Nat) (x : Fld) : (s.raiseAt tn ev inst data).getI r x = s.getI r x := (rfl)

/-! ## raise -/

@[simp] theorem raise_variant (ev inst data : Nat) : (s.raise ev inst data).variant = s.variant := (rfl)
@[simp] theorem raise_regs (ev inst data : Nat) : (s.raise ev inst data).regs = s.regs := (rfl)
@[simp] theorem raise_ltc (ev inst data : Nat) : (s.raise ev inst data).ltc = s.ltc := (rfl)
@[simp] theorem raise_free (ev inst data : Nat) : (s.raise ev inst data).free = s.free := (rfl)
@[simp] theorem raise_hostMem (ev inst data : Nat) : (s.raise ev inst data).hostMem = s.hostMem := (rfl)
@[simp] theorem raise_wd (ev inst data : Nat) : (s.raise ev inst data).wd = s.wd := (rfl)
@[simp] theorem raise_prism (ev inst data : Nat) : (s.raise ev inst data).prism = s.prism := (rfl)
@[simp] theorem raise_ens (ev inst data : Nat) : (s.raise ev inst data).ens = s.ens := (rfl)
@[simp] theorem raise_tmp (ev inst data : Nat) : (s.raise ev inst data).tmp = s.tmp := (rfl)
@[simp] theorem raise_mil (ev inst data : Nat) : (s.raise ev inst data).mil = s.mil := (rfl)
@[simp] theorem raise_milBak (ev inst data : Nat) : (s.raise ev inst data).milBak = s.milBak := (rfl)
@[simp] theorem raise_hearth (ev inst data : Nat) : (s.raise ev inst data).hearth = s.hearth := (rfl)
@[simp] theorem raise_gran (ev inst data : Nat) : (s.raise ev inst data).gran = s.gran := (rfl)
@[simp] theorem raise_loom (ev inst data : Nat) : (s.raise ev inst data).loom = s.loom := (rfl)
@[simp] theorem raise_out (ev inst data : Nat) : (s.raise ev inst data).out = s.out := (rfl)
@[simp] theorem raise_bridge (ev inst data : Nat) : (s.raise ev inst data).bridge = s.bridge := (rfl)
@[simp] theorem raise_tcd (ev inst data : Nat) : (s.raise ev inst data).tcd = s.tcd := (rfl)
@[simp] theorem raise_lens (ev inst data : Nat) : (s.raise ev inst data).lens = s.lens := (rfl)
@[simp] theorem raise_tally (ev inst data : Nat) : (s.raise ev inst data).tally = s.tally := (rfl)
@[simp] theorem raise_hrd (ev inst data : Nat) : (s.raise ev inst data).hrd = s.hrd := (rfl)
@[simp] theorem raise_plk (ev inst data : Nat) : (s.raise ev inst data).plk = s.plk := (rfl)
@[simp] theorem raise_mir (ev inst data : Nat) : (s.raise ev inst data).mir = s.mir := (rfl)
@[simp] theorem raise_pwr (ev inst data : Nat) : (s.raise ev inst data).pwr = s.pwr := (rfl)
@[simp] theorem raise_bus (ev inst data : Nat) : (s.raise ev inst data).bus = s.bus := (rfl)
@[simp] theorem raise_spi (ev inst data : Nat) : (s.raise ev inst data).spi = s.spi := (rfl)
@[simp] theorem raise_seqs (ev inst data : Nat) : (s.raise ev inst data).seqs = s.seqs := (rfl)
@[simp] theorem raise_pending (ev inst data : Nat) : (s.raise ev inst data).pending = s.pending := (rfl)
@[simp] theorem raise_reg (ev inst data : Nat) (j : Nat) : (s.raise ev inst data).reg j = s.reg j := (rfl)
@[simp] theorem raise_get (ev inst data : Nat) (r : Nat) (x : Fld) : (s.raise ev inst data).get r x = s.get r x := (rfl)
@[simp] theorem raise_on (ev inst data : Nat) (r : Nat) (x : Fld) : (s.raise ev inst data).on r x = s.on r x := (rfl)
@[simp] theorem raise_getI (ev inst data : Nat) (r : Nat) (x : Fld) : (s.raise ev inst data).getI r x = s.getI r x := (rfl)

/-! ## setHost -/

@[simp] theorem setHost_variant (f : HostSt → HostSt) : (s.setHost f).variant = s.variant := (rfl)
@[simp] theorem setHost_regs (f : HostSt → HostSt) : (s.setHost f).regs = s.regs := (rfl)
@[simp] theorem setHost_ltc (f : HostSt → HostSt) : (s.setHost f).ltc = s.ltc := (rfl)
@[simp] theorem setHost_free (f : HostSt → HostSt) : (s.setHost f).free = s.free := (rfl)
@[simp] theorem setHost_hostMem (f : HostSt → HostSt) : (s.setHost f).hostMem = s.hostMem := (rfl)
@[simp] theorem setHost_host (f : HostSt → HostSt) : (s.setHost f).host = f s.host := (rfl)
@[simp] theorem setHost_wd (f : HostSt → HostSt) : (s.setHost f).wd = s.wd := (rfl)
@[simp] theorem setHost_prism (f : HostSt → HostSt) : (s.setHost f).prism = s.prism := (rfl)
@[simp] theorem setHost_ens (f : HostSt → HostSt) : (s.setHost f).ens = s.ens := (rfl)
@[simp] theorem setHost_tmp (f : HostSt → HostSt) : (s.setHost f).tmp = s.tmp := (rfl)
@[simp] theorem setHost_mil (f : HostSt → HostSt) : (s.setHost f).mil = s.mil := (rfl)
@[simp] theorem setHost_milBak (f : HostSt → HostSt) : (s.setHost f).milBak = s.milBak := (rfl)
@[simp] theorem setHost_hearth (f : HostSt → HostSt) : (s.setHost f).hearth = s.hearth := (rfl)
@[simp] theorem setHost_gran (f : HostSt → HostSt) : (s.setHost f).gran = s.gran := (rfl)
@[simp] theorem setHost_loom (f : HostSt → HostSt) : (s.setHost f).loom = s.loom := (rfl)
@[simp] theorem setHost_out (f : HostSt → HostSt) : (s.setHost f).out = s.out := (rfl)
@[simp] theorem setHost_bridge (f : HostSt → HostSt) : (s.setHost f).bridge = s.bridge := (rfl)
@[simp] theorem setHost_tcd (f : HostSt → HostSt) : (s.setHost f).tcd = s.tcd := (rfl)
@[simp] theorem setHost_lens (f : HostSt → HostSt) : (s.setHost f).lens = s.lens := (rfl)
@[simp] theorem setHost_tally (f : HostSt → HostSt) : (s.setHost f).tally = s.tally := (rfl)
@[simp] theorem setHost_hrd (f : HostSt → HostSt) : (s.setHost f).hrd = s.hrd := (rfl)
@[simp] theorem setHost_plk (f : HostSt → HostSt) : (s.setHost f).plk = s.plk := (rfl)
@[simp] theorem setHost_mir (f : HostSt → HostSt) : (s.setHost f).mir = s.mir := (rfl)
@[simp] theorem setHost_pwr (f : HostSt → HostSt) : (s.setHost f).pwr = s.pwr := (rfl)
@[simp] theorem setHost_bus (f : HostSt → HostSt) : (s.setHost f).bus = s.bus := (rfl)
@[simp] theorem setHost_spi (f : HostSt → HostSt) : (s.setHost f).spi = s.spi := (rfl)
@[simp] theorem setHost_seqs (f : HostSt → HostSt) : (s.setHost f).seqs = s.seqs := (rfl)
@[simp] theorem setHost_pending (f : HostSt → HostSt) : (s.setHost f).pending = s.pending := (rfl)
@[simp] theorem setHost_reg (f : HostSt → HostSt) (j : Nat) : (s.setHost f).reg j = s.reg j := (rfl)
@[simp] theorem setHost_get (f : HostSt → HostSt) (r : Nat) (x : Fld) : (s.setHost f).get r x = s.get r x := (rfl)
@[simp] theorem setHost_on (f : HostSt → HostSt) (r : Nat) (x : Fld) : (s.setHost f).on r x = s.on r x := (rfl)
@[simp] theorem setHost_getI (f : HostSt → HostSt) (r : Nat) (x : Fld) : (s.setHost f).getI r x = s.getI r x := (rfl)

/-! ## setRing -/

@[simp] theorem setRing_variant (b : Nat) (f : RingSt → RingSt) : (s.setRing b f).variant = s.variant := (rfl)
@[simp] theorem setRing_regs (b : Nat) (f : RingSt → RingSt) : (s.setRing b f).regs = s.regs := (rfl)
@[simp] theorem setRing_ltc (b : Nat) (f : RingSt → RingSt) : (s.setRing b f).ltc = s.ltc := (rfl)
@[simp] theorem setRing_free (b : Nat) (f : RingSt → RingSt) : (s.setRing b f).free = s.free := (rfl)
@[simp] theorem setRing_hostMem (b : Nat) (f : RingSt → RingSt) : (s.setRing b f).hostMem = s.hostMem := (rfl)
@[simp] theorem setRing_wd (b : Nat) (f : RingSt → RingSt) : (s.setRing b f).wd = s.wd := (rfl)
@[simp] theorem setRing_prism (b : Nat) (f : RingSt → RingSt) : (s.setRing b f).prism = s.prism := (rfl)
@[simp] theorem setRing_ens (b : Nat) (f : RingSt → RingSt) : (s.setRing b f).ens = s.ens := (rfl)
@[simp] theorem setRing_tmp (b : Nat) (f : RingSt → RingSt) : (s.setRing b f).tmp = s.tmp := (rfl)
@[simp] theorem setRing_mil (b : Nat) (f : RingSt → RingSt) : (s.setRing b f).mil = s.mil := (rfl)
@[simp] theorem setRing_milBak (b : Nat) (f : RingSt → RingSt) : (s.setRing b f).milBak = s.milBak := (rfl)
@[simp] theorem setRing_hearth (b : Nat) (f : RingSt → RingSt) : (s.setRing b f).hearth = s.hearth := (rfl)
@[simp] theorem setRing_gran (b : Nat) (f : RingSt → RingSt) : (s.setRing b f).gran = s.gran := (rfl)
@[simp] theorem setRing_loom (b : Nat) (f : RingSt → RingSt) : (s.setRing b f).loom = s.loom := (rfl)
@[simp] theorem setRing_out (b : Nat) (f : RingSt → RingSt) : (s.setRing b f).out = s.out := (rfl)
@[simp] theorem setRing_bridge (b : Nat) (f : RingSt → RingSt) : (s.setRing b f).bridge = s.bridge := (rfl)
@[simp] theorem setRing_tcd (b : Nat) (f : RingSt → RingSt) : (s.setRing b f).tcd = s.tcd := (rfl)
@[simp] theorem setRing_lens (b : Nat) (f : RingSt → RingSt) : (s.setRing b f).lens = s.lens := (rfl)
@[simp] theorem setRing_tally (b : Nat) (f : RingSt → RingSt) : (s.setRing b f).tally = s.tally := (rfl)
@[simp] theorem setRing_hrd (b : Nat) (f : RingSt → RingSt) : (s.setRing b f).hrd = s.hrd := (rfl)
@[simp] theorem setRing_plk (b : Nat) (f : RingSt → RingSt) : (s.setRing b f).plk = s.plk := (rfl)
@[simp] theorem setRing_mir (b : Nat) (f : RingSt → RingSt) : (s.setRing b f).mir = s.mir := (rfl)
@[simp] theorem setRing_pwr (b : Nat) (f : RingSt → RingSt) : (s.setRing b f).pwr = s.pwr := (rfl)
@[simp] theorem setRing_bus (b : Nat) (f : RingSt → RingSt) : (s.setRing b f).bus = s.bus := (rfl)
@[simp] theorem setRing_spi (b : Nat) (f : RingSt → RingSt) : (s.setRing b f).spi = s.spi := (rfl)
@[simp] theorem setRing_seqs (b : Nat) (f : RingSt → RingSt) : (s.setRing b f).seqs = s.seqs := (rfl)
@[simp] theorem setRing_pending (b : Nat) (f : RingSt → RingSt) : (s.setRing b f).pending = s.pending := (rfl)
@[simp] theorem setRing_reg (b : Nat) (f : RingSt → RingSt) (j : Nat) : (s.setRing b f).reg j = s.reg j := (rfl)
@[simp] theorem setRing_get (b : Nat) (f : RingSt → RingSt) (r : Nat) (x : Fld) : (s.setRing b f).get r x = s.get r x := (rfl)
@[simp] theorem setRing_on (b : Nat) (f : RingSt → RingSt) (r : Nat) (x : Fld) : (s.setRing b f).on r x = s.on r x := (rfl)
@[simp] theorem setRing_getI (b : Nat) (f : RingSt → RingSt) (r : Nat) (x : Fld) : (s.setRing b f).getI r x = s.getI r x := (rfl)

/-! ## vecDue -/

@[simp] theorem vecDue_variant (f v : Nat) : (s.vecDue f v).variant = s.variant := (rfl)
@[simp] theorem vecDue_regs (f v : Nat) : (s.vecDue f v).regs = s.regs := (rfl)
@[simp] theorem vecDue_ltc (f v : Nat) : (s.vecDue f v).ltc = s.ltc := (rfl)
@[simp] theorem vecDue_free (f v : Nat) : (s.vecDue f v).free = s.free := (rfl)
@[simp] theorem vecDue_hostMem (f v : Nat) : (s.vecDue f v).hostMem = s.hostMem := (rfl)
@[simp] theorem vecDue_wd (f v : Nat) : (s.vecDue f v).wd = s.wd := (rfl)
@[simp] theorem vecDue_prism (f v : Nat) : (s.vecDue f v).prism = s.prism := (rfl)
@[simp] theorem vecDue_ens (f v : Nat) : (s.vecDue f v).ens = s.ens := (rfl)
@[simp] theorem vecDue_tmp (f v : Nat) : (s.vecDue f v).tmp = s.tmp := (rfl)
@[simp] theorem vecDue_mil (f v : Nat) : (s.vecDue f v).mil = s.mil := (rfl)
@[simp] theorem vecDue_milBak (f v : Nat) : (s.vecDue f v).milBak = s.milBak := (rfl)
@[simp] theorem vecDue_hearth (f v : Nat) : (s.vecDue f v).hearth = s.hearth := (rfl)
@[simp] theorem vecDue_gran (f v : Nat) : (s.vecDue f v).gran = s.gran := (rfl)
@[simp] theorem vecDue_loom (f v : Nat) : (s.vecDue f v).loom = s.loom := (rfl)
@[simp] theorem vecDue_out (f v : Nat) : (s.vecDue f v).out = s.out := (rfl)
@[simp] theorem vecDue_bridge (f v : Nat) : (s.vecDue f v).bridge = s.bridge := (rfl)
@[simp] theorem vecDue_tcd (f v : Nat) : (s.vecDue f v).tcd = s.tcd := (rfl)
@[simp] theorem vecDue_lens (f v : Nat) : (s.vecDue f v).lens = s.lens := (rfl)
@[simp] theorem vecDue_tally (f v : Nat) : (s.vecDue f v).tally = s.tally := (rfl)
@[simp] theorem vecDue_hrd (f v : Nat) : (s.vecDue f v).hrd = s.hrd := (rfl)
@[simp] theorem vecDue_plk (f v : Nat) : (s.vecDue f v).plk = s.plk := (rfl)
@[simp] theorem vecDue_mir (f v : Nat) : (s.vecDue f v).mir = s.mir := (rfl)
@[simp] theorem vecDue_pwr (f v : Nat) : (s.vecDue f v).pwr = s.pwr := (rfl)
@[simp] theorem vecDue_bus (f v : Nat) : (s.vecDue f v).bus = s.bus := (rfl)
@[simp] theorem vecDue_spi (f v : Nat) : (s.vecDue f v).spi = s.spi := (rfl)
@[simp] theorem vecDue_seqs (f v : Nat) : (s.vecDue f v).seqs = s.seqs := (rfl)
@[simp] theorem vecDue_pending (f v : Nat) : (s.vecDue f v).pending = s.pending := (rfl)
@[simp] theorem vecDue_reg (f v : Nat) (j : Nat) : (s.vecDue f v).reg j = s.reg j := (rfl)
@[simp] theorem vecDue_get (f v : Nat) (r : Nat) (x : Fld) : (s.vecDue f v).get r x = s.get r x := (rfl)
@[simp] theorem vecDue_on (f v : Nat) (r : Nat) (x : Fld) : (s.vecDue f v).on r x = s.on r x := (rfl)
@[simp] theorem vecDue_getI (f v : Nat) (r : Nat) (x : Fld) : (s.vecDue f v).getI r x = s.getI r x := (rfl)

/-! ## setWd -/

@[simp] theorem setWd_variant (f : WatchSt → WatchSt) : (s.setWd f).variant = s.variant := (rfl)
@[simp] theorem setWd_regs (f : WatchSt → WatchSt) : (s.setWd f).regs = s.regs := (rfl)
@[simp] theorem setWd_ltc (f : WatchSt → WatchSt) : (s.setWd f).ltc = s.ltc := (rfl)
@[simp] theorem setWd_free (f : WatchSt → WatchSt) : (s.setWd f).free = s.free := (rfl)
@[simp] theorem setWd_hostMem (f : WatchSt → WatchSt) : (s.setWd f).hostMem = s.hostMem := (rfl)
@[simp] theorem setWd_host (f : WatchSt → WatchSt) : (s.setWd f).host = s.host := (rfl)
@[simp] theorem setWd_wd (f : WatchSt → WatchSt) : (s.setWd f).wd = f s.wd := (rfl)
@[simp] theorem setWd_prism (f : WatchSt → WatchSt) : (s.setWd f).prism = s.prism := (rfl)
@[simp] theorem setWd_ens (f : WatchSt → WatchSt) : (s.setWd f).ens = s.ens := (rfl)
@[simp] theorem setWd_tmp (f : WatchSt → WatchSt) : (s.setWd f).tmp = s.tmp := (rfl)
@[simp] theorem setWd_mil (f : WatchSt → WatchSt) : (s.setWd f).mil = s.mil := (rfl)
@[simp] theorem setWd_milBak (f : WatchSt → WatchSt) : (s.setWd f).milBak = s.milBak := (rfl)
@[simp] theorem setWd_hearth (f : WatchSt → WatchSt) : (s.setWd f).hearth = s.hearth := (rfl)
@[simp] theorem setWd_gran (f : WatchSt → WatchSt) : (s.setWd f).gran = s.gran := (rfl)
@[simp] theorem setWd_loom (f : WatchSt → WatchSt) : (s.setWd f).loom = s.loom := (rfl)
@[simp] theorem setWd_out (f : WatchSt → WatchSt) : (s.setWd f).out = s.out := (rfl)
@[simp] theorem setWd_bridge (f : WatchSt → WatchSt) : (s.setWd f).bridge = s.bridge := (rfl)
@[simp] theorem setWd_tcd (f : WatchSt → WatchSt) : (s.setWd f).tcd = s.tcd := (rfl)
@[simp] theorem setWd_lens (f : WatchSt → WatchSt) : (s.setWd f).lens = s.lens := (rfl)
@[simp] theorem setWd_tally (f : WatchSt → WatchSt) : (s.setWd f).tally = s.tally := (rfl)
@[simp] theorem setWd_hrd (f : WatchSt → WatchSt) : (s.setWd f).hrd = s.hrd := (rfl)
@[simp] theorem setWd_plk (f : WatchSt → WatchSt) : (s.setWd f).plk = s.plk := (rfl)
@[simp] theorem setWd_mir (f : WatchSt → WatchSt) : (s.setWd f).mir = s.mir := (rfl)
@[simp] theorem setWd_pwr (f : WatchSt → WatchSt) : (s.setWd f).pwr = s.pwr := (rfl)
@[simp] theorem setWd_bus (f : WatchSt → WatchSt) : (s.setWd f).bus = s.bus := (rfl)
@[simp] theorem setWd_spi (f : WatchSt → WatchSt) : (s.setWd f).spi = s.spi := (rfl)
@[simp] theorem setWd_seqs (f : WatchSt → WatchSt) : (s.setWd f).seqs = s.seqs := (rfl)
@[simp] theorem setWd_pending (f : WatchSt → WatchSt) : (s.setWd f).pending = s.pending := (rfl)
@[simp] theorem setWd_reg (f : WatchSt → WatchSt) (j : Nat) : (s.setWd f).reg j = s.reg j := (rfl)
@[simp] theorem setWd_get (f : WatchSt → WatchSt) (r : Nat) (x : Fld) : (s.setWd f).get r x = s.get r x := (rfl)
@[simp] theorem setWd_on (f : WatchSt → WatchSt) (r : Nat) (x : Fld) : (s.setWd f).on r x = s.on r x := (rfl)
@[simp] theorem setWd_getI (f : WatchSt → WatchSt) (r : Nat) (x : Fld) : (s.setWd f).getI r x = s.getI r x := (rfl)

/-! ## setPrism -/

@[simp] theorem setPrism_variant (f : PrismSt → PrismSt) : (s.setPrism f).variant = s.variant := (rfl)
@[simp] theorem setPrism_regs (f : PrismSt → PrismSt) : (s.setPrism f).regs = s.regs := (rfl)
@[simp] theorem setPrism_ltc (f : PrismSt → PrismSt) : (s.setPrism f).ltc = s.ltc := (rfl)
@[simp] theorem setPrism_free (f : PrismSt → PrismSt) : (s.setPrism f).free = s.free := (rfl)
@[simp] theorem setPrism_hostMem (f : PrismSt → PrismSt) : (s.setPrism f).hostMem = s.hostMem := (rfl)
@[simp] theorem setPrism_host (f : PrismSt → PrismSt) : (s.setPrism f).host = s.host := (rfl)
@[simp] theorem setPrism_wd (f : PrismSt → PrismSt) : (s.setPrism f).wd = s.wd := (rfl)
@[simp] theorem setPrism_prism (f : PrismSt → PrismSt) : (s.setPrism f).prism = f s.prism := (rfl)
@[simp] theorem setPrism_ens (f : PrismSt → PrismSt) : (s.setPrism f).ens = s.ens := (rfl)
@[simp] theorem setPrism_tmp (f : PrismSt → PrismSt) : (s.setPrism f).tmp = s.tmp := (rfl)
@[simp] theorem setPrism_mil (f : PrismSt → PrismSt) : (s.setPrism f).mil = s.mil := (rfl)
@[simp] theorem setPrism_milBak (f : PrismSt → PrismSt) : (s.setPrism f).milBak = s.milBak := (rfl)
@[simp] theorem setPrism_hearth (f : PrismSt → PrismSt) : (s.setPrism f).hearth = s.hearth := (rfl)
@[simp] theorem setPrism_gran (f : PrismSt → PrismSt) : (s.setPrism f).gran = s.gran := (rfl)
@[simp] theorem setPrism_loom (f : PrismSt → PrismSt) : (s.setPrism f).loom = s.loom := (rfl)
@[simp] theorem setPrism_out (f : PrismSt → PrismSt) : (s.setPrism f).out = s.out := (rfl)
@[simp] theorem setPrism_bridge (f : PrismSt → PrismSt) : (s.setPrism f).bridge = s.bridge := (rfl)
@[simp] theorem setPrism_tcd (f : PrismSt → PrismSt) : (s.setPrism f).tcd = s.tcd := (rfl)
@[simp] theorem setPrism_lens (f : PrismSt → PrismSt) : (s.setPrism f).lens = s.lens := (rfl)
@[simp] theorem setPrism_tally (f : PrismSt → PrismSt) : (s.setPrism f).tally = s.tally := (rfl)
@[simp] theorem setPrism_hrd (f : PrismSt → PrismSt) : (s.setPrism f).hrd = s.hrd := (rfl)
@[simp] theorem setPrism_plk (f : PrismSt → PrismSt) : (s.setPrism f).plk = s.plk := (rfl)
@[simp] theorem setPrism_mir (f : PrismSt → PrismSt) : (s.setPrism f).mir = s.mir := (rfl)
@[simp] theorem setPrism_pwr (f : PrismSt → PrismSt) : (s.setPrism f).pwr = s.pwr := (rfl)
@[simp] theorem setPrism_bus (f : PrismSt → PrismSt) : (s.setPrism f).bus = s.bus := (rfl)
@[simp] theorem setPrism_spi (f : PrismSt → PrismSt) : (s.setPrism f).spi = s.spi := (rfl)
@[simp] theorem setPrism_seqs (f : PrismSt → PrismSt) : (s.setPrism f).seqs = s.seqs := (rfl)
@[simp] theorem setPrism_pending (f : PrismSt → PrismSt) : (s.setPrism f).pending = s.pending := (rfl)
@[simp] theorem setPrism_reg (f : PrismSt → PrismSt) (j : Nat) : (s.setPrism f).reg j = s.reg j := (rfl)
@[simp] theorem setPrism_get (f : PrismSt → PrismSt) (r : Nat) (x : Fld) : (s.setPrism f).get r x = s.get r x := (rfl)
@[simp] theorem setPrism_on (f : PrismSt → PrismSt) (r : Nat) (x : Fld) : (s.setPrism f).on r x = s.on r x := (rfl)
@[simp] theorem setPrism_getI (f : PrismSt → PrismSt) (r : Nat) (x : Fld) : (s.setPrism f).getI r x = s.getI r x := (rfl)

/-! ## setRef -/

@[simp] theorem setRef_variant (i : Nat) (f : RefSt → RefSt) : (s.setRef i f).variant = s.variant := (rfl)
@[simp] theorem setRef_regs (i : Nat) (f : RefSt → RefSt) : (s.setRef i f).regs = s.regs := (rfl)
@[simp] theorem setRef_ltc (i : Nat) (f : RefSt → RefSt) : (s.setRef i f).ltc = s.ltc := (rfl)
@[simp] theorem setRef_free (i : Nat) (f : RefSt → RefSt) : (s.setRef i f).free = s.free := (rfl)
@[simp] theorem setRef_hostMem (i : Nat) (f : RefSt → RefSt) : (s.setRef i f).hostMem = s.hostMem := (rfl)
@[simp] theorem setRef_host (i : Nat) (f : RefSt → RefSt) : (s.setRef i f).host = s.host := (rfl)
@[simp] theorem setRef_wd (i : Nat) (f : RefSt → RefSt) : (s.setRef i f).wd = s.wd := (rfl)
@[simp] theorem setRef_ens (i : Nat) (f : RefSt → RefSt) : (s.setRef i f).ens = s.ens := (rfl)
@[simp] theorem setRef_tmp (i : Nat) (f : RefSt → RefSt) : (s.setRef i f).tmp = s.tmp := (rfl)
@[simp] theorem setRef_mil (i : Nat) (f : RefSt → RefSt) : (s.setRef i f).mil = s.mil := (rfl)
@[simp] theorem setRef_milBak (i : Nat) (f : RefSt → RefSt) : (s.setRef i f).milBak = s.milBak := (rfl)
@[simp] theorem setRef_hearth (i : Nat) (f : RefSt → RefSt) : (s.setRef i f).hearth = s.hearth := (rfl)
@[simp] theorem setRef_gran (i : Nat) (f : RefSt → RefSt) : (s.setRef i f).gran = s.gran := (rfl)
@[simp] theorem setRef_loom (i : Nat) (f : RefSt → RefSt) : (s.setRef i f).loom = s.loom := (rfl)
@[simp] theorem setRef_out (i : Nat) (f : RefSt → RefSt) : (s.setRef i f).out = s.out := (rfl)
@[simp] theorem setRef_bridge (i : Nat) (f : RefSt → RefSt) : (s.setRef i f).bridge = s.bridge := (rfl)
@[simp] theorem setRef_tcd (i : Nat) (f : RefSt → RefSt) : (s.setRef i f).tcd = s.tcd := (rfl)
@[simp] theorem setRef_lens (i : Nat) (f : RefSt → RefSt) : (s.setRef i f).lens = s.lens := (rfl)
@[simp] theorem setRef_tally (i : Nat) (f : RefSt → RefSt) : (s.setRef i f).tally = s.tally := (rfl)
@[simp] theorem setRef_hrd (i : Nat) (f : RefSt → RefSt) : (s.setRef i f).hrd = s.hrd := (rfl)
@[simp] theorem setRef_plk (i : Nat) (f : RefSt → RefSt) : (s.setRef i f).plk = s.plk := (rfl)
@[simp] theorem setRef_mir (i : Nat) (f : RefSt → RefSt) : (s.setRef i f).mir = s.mir := (rfl)
@[simp] theorem setRef_pwr (i : Nat) (f : RefSt → RefSt) : (s.setRef i f).pwr = s.pwr := (rfl)
@[simp] theorem setRef_bus (i : Nat) (f : RefSt → RefSt) : (s.setRef i f).bus = s.bus := (rfl)
@[simp] theorem setRef_spi (i : Nat) (f : RefSt → RefSt) : (s.setRef i f).spi = s.spi := (rfl)
@[simp] theorem setRef_seqs (i : Nat) (f : RefSt → RefSt) : (s.setRef i f).seqs = s.seqs := (rfl)
@[simp] theorem setRef_pending (i : Nat) (f : RefSt → RefSt) : (s.setRef i f).pending = s.pending := (rfl)
@[simp] theorem setRef_reg (i : Nat) (f : RefSt → RefSt) (j : Nat) : (s.setRef i f).reg j = s.reg j := (rfl)
@[simp] theorem setRef_get (i : Nat) (f : RefSt → RefSt) (r : Nat) (x : Fld) : (s.setRef i f).get r x = s.get r x := (rfl)
@[simp] theorem setRef_on (i : Nat) (f : RefSt → RefSt) (r : Nat) (x : Fld) : (s.setRef i f).on r x = s.on r x := (rfl)
@[simp] theorem setRef_getI (i : Nat) (f : RefSt → RefSt) (r : Nat) (x : Fld) : (s.setRef i f).getI r x = s.getI r x := (rfl)

/-! ## setChan -/

@[simp] theorem setChan_variant (c : Nat) (f : Chan → Chan) : (s.setChan c f).variant = s.variant := (rfl)
@[simp] theorem setChan_regs (c : Nat) (f : Chan → Chan) : (s.setChan c f).regs = s.regs := (rfl)
@[simp] theorem setChan_ltc (c : Nat) (f : Chan → Chan) : (s.setChan c f).ltc = s.ltc := (rfl)
@[simp] theorem setChan_free (c : Nat) (f : Chan → Chan) : (s.setChan c f).free = s.free := (rfl)
@[simp] theorem setChan_hostMem (c : Nat) (f : Chan → Chan) : (s.setChan c f).hostMem = s.hostMem := (rfl)
@[simp] theorem setChan_host (c : Nat) (f : Chan → Chan) : (s.setChan c f).host = s.host := (rfl)
@[simp] theorem setChan_wd (c : Nat) (f : Chan → Chan) : (s.setChan c f).wd = s.wd := (rfl)
@[simp] theorem setChan_prism (c : Nat) (f : Chan → Chan) : (s.setChan c f).prism = s.prism := (rfl)
@[simp] theorem setChan_ens (c : Nat) (f : Chan → Chan) : (s.setChan c f).ens = s.ens := (rfl)
@[simp] theorem setChan_tmp (c : Nat) (f : Chan → Chan) : (s.setChan c f).tmp = s.tmp := (rfl)
@[simp] theorem setChan_mil (c : Nat) (f : Chan → Chan) : (s.setChan c f).mil = s.mil.modify c f := (rfl)
@[simp] theorem setChan_milBak (c : Nat) (f : Chan → Chan) : (s.setChan c f).milBak = s.milBak := (rfl)
@[simp] theorem setChan_hearth (c : Nat) (f : Chan → Chan) : (s.setChan c f).hearth = s.hearth := (rfl)
@[simp] theorem setChan_gran (c : Nat) (f : Chan → Chan) : (s.setChan c f).gran = s.gran := (rfl)
@[simp] theorem setChan_loom (c : Nat) (f : Chan → Chan) : (s.setChan c f).loom = s.loom := (rfl)
@[simp] theorem setChan_out (c : Nat) (f : Chan → Chan) : (s.setChan c f).out = s.out := (rfl)
@[simp] theorem setChan_bridge (c : Nat) (f : Chan → Chan) : (s.setChan c f).bridge = s.bridge := (rfl)
@[simp] theorem setChan_tcd (c : Nat) (f : Chan → Chan) : (s.setChan c f).tcd = s.tcd := (rfl)
@[simp] theorem setChan_lens (c : Nat) (f : Chan → Chan) : (s.setChan c f).lens = s.lens := (rfl)
@[simp] theorem setChan_tally (c : Nat) (f : Chan → Chan) : (s.setChan c f).tally = s.tally := (rfl)
@[simp] theorem setChan_hrd (c : Nat) (f : Chan → Chan) : (s.setChan c f).hrd = s.hrd := (rfl)
@[simp] theorem setChan_plk (c : Nat) (f : Chan → Chan) : (s.setChan c f).plk = s.plk := (rfl)
@[simp] theorem setChan_mir (c : Nat) (f : Chan → Chan) : (s.setChan c f).mir = s.mir := (rfl)
@[simp] theorem setChan_pwr (c : Nat) (f : Chan → Chan) : (s.setChan c f).pwr = s.pwr := (rfl)
@[simp] theorem setChan_bus (c : Nat) (f : Chan → Chan) : (s.setChan c f).bus = s.bus := (rfl)
@[simp] theorem setChan_spi (c : Nat) (f : Chan → Chan) : (s.setChan c f).spi = s.spi := (rfl)
@[simp] theorem setChan_seqs (c : Nat) (f : Chan → Chan) : (s.setChan c f).seqs = s.seqs := (rfl)
@[simp] theorem setChan_pending (c : Nat) (f : Chan → Chan) : (s.setChan c f).pending = s.pending := (rfl)
@[simp] theorem setChan_reg (c : Nat) (f : Chan → Chan) (j : Nat) : (s.setChan c f).reg j = s.reg j := (rfl)
@[simp] theorem setChan_get (c : Nat) (f : Chan → Chan) (r : Nat) (x : Fld) : (s.setChan c f).get r x = s.get r x := (rfl)
@[simp] theorem setChan_on (c : Nat) (f : Chan → Chan) (r : Nat) (x : Fld) : (s.setChan c f).on r x = s.on r x := (rfl)
@[simp] theorem setChan_getI (c : Nat) (f : Chan → Chan) (r : Nat) (x : Fld) : (s.setChan c f).getI r x = s.getI r x := (rfl)

/-! ## setEns -/

@[simp] theorem setEns_variant (e : Nat) (f : EnsSt → EnsSt) : (s.setEns e f).variant = s.variant := (rfl)
@[simp] theorem setEns_regs (e : Nat) (f : EnsSt → EnsSt) : (s.setEns e f).regs = s.regs := (rfl)
@[simp] theorem setEns_ltc (e : Nat) (f : EnsSt → EnsSt) : (s.setEns e f).ltc = s.ltc := (rfl)
@[simp] theorem setEns_free (e : Nat) (f : EnsSt → EnsSt) : (s.setEns e f).free = s.free := (rfl)
@[simp] theorem setEns_hostMem (e : Nat) (f : EnsSt → EnsSt) : (s.setEns e f).hostMem = s.hostMem := (rfl)
@[simp] theorem setEns_host (e : Nat) (f : EnsSt → EnsSt) : (s.setEns e f).host = s.host := (rfl)
@[simp] theorem setEns_wd (e : Nat) (f : EnsSt → EnsSt) : (s.setEns e f).wd = s.wd := (rfl)
@[simp] theorem setEns_prism (e : Nat) (f : EnsSt → EnsSt) : (s.setEns e f).prism = s.prism := (rfl)
@[simp] theorem setEns_ens (e : Nat) (f : EnsSt → EnsSt) : (s.setEns e f).ens = s.ens.modify e f := (rfl)
@[simp] theorem setEns_tmp (e : Nat) (f : EnsSt → EnsSt) : (s.setEns e f).tmp = s.tmp := (rfl)
@[simp] theorem setEns_mil (e : Nat) (f : EnsSt → EnsSt) : (s.setEns e f).mil = s.mil := (rfl)
@[simp] theorem setEns_milBak (e : Nat) (f : EnsSt → EnsSt) : (s.setEns e f).milBak = s.milBak := (rfl)
@[simp] theorem setEns_hearth (e : Nat) (f : EnsSt → EnsSt) : (s.setEns e f).hearth = s.hearth := (rfl)
@[simp] theorem setEns_gran (e : Nat) (f : EnsSt → EnsSt) : (s.setEns e f).gran = s.gran := (rfl)
@[simp] theorem setEns_loom (e : Nat) (f : EnsSt → EnsSt) : (s.setEns e f).loom = s.loom := (rfl)
@[simp] theorem setEns_out (e : Nat) (f : EnsSt → EnsSt) : (s.setEns e f).out = s.out := (rfl)
@[simp] theorem setEns_bridge (e : Nat) (f : EnsSt → EnsSt) : (s.setEns e f).bridge = s.bridge := (rfl)
@[simp] theorem setEns_tcd (e : Nat) (f : EnsSt → EnsSt) : (s.setEns e f).tcd = s.tcd := (rfl)
@[simp] theorem setEns_lens (e : Nat) (f : EnsSt → EnsSt) : (s.setEns e f).lens = s.lens := (rfl)
@[simp] theorem setEns_tally (e : Nat) (f : EnsSt → EnsSt) : (s.setEns e f).tally = s.tally := (rfl)
@[simp] theorem setEns_hrd (e : Nat) (f : EnsSt → EnsSt) : (s.setEns e f).hrd = s.hrd := (rfl)
@[simp] theorem setEns_plk (e : Nat) (f : EnsSt → EnsSt) : (s.setEns e f).plk = s.plk := (rfl)
@[simp] theorem setEns_mir (e : Nat) (f : EnsSt → EnsSt) : (s.setEns e f).mir = s.mir := (rfl)
@[simp] theorem setEns_pwr (e : Nat) (f : EnsSt → EnsSt) : (s.setEns e f).pwr = s.pwr := (rfl)
@[simp] theorem setEns_bus (e : Nat) (f : EnsSt → EnsSt) : (s.setEns e f).bus = s.bus := (rfl)
@[simp] theorem setEns_spi (e : Nat) (f : EnsSt → EnsSt) : (s.setEns e f).spi = s.spi := (rfl)
@[simp] theorem setEns_seqs (e : Nat) (f : EnsSt → EnsSt) : (s.setEns e f).seqs = s.seqs := (rfl)
@[simp] theorem setEns_pending (e : Nat) (f : EnsSt → EnsSt) : (s.setEns e f).pending = s.pending := (rfl)
@[simp] theorem setEns_reg (e : Nat) (f : EnsSt → EnsSt) (j : Nat) : (s.setEns e f).reg j = s.reg j := (rfl)
@[simp] theorem setEns_get (e : Nat) (f : EnsSt → EnsSt) (r : Nat) (x : Fld) : (s.setEns e f).get r x = s.get r x := (rfl)
@[simp] theorem setEns_on (e : Nat) (f : EnsSt → EnsSt) (r : Nat) (x : Fld) : (s.setEns e f).on r x = s.on r x := (rfl)
@[simp] theorem setEns_getI (e : Nat) (f : EnsSt → EnsSt) (r : Nat) (x : Fld) : (s.setEns e f).getI r x = s.getI r x := (rfl)

/-! ## setSlot -/

@[simp] theorem setSlot_variant (e m : Nat) (f : Slot → Slot) : (s.setSlot e m f).variant = s.variant := (rfl)
@[simp] theorem setSlot_regs (e m : Nat) (f : Slot → Slot) : (s.setSlot e m f).regs = s.regs := (rfl)
@[simp] theorem setSlot_ltc (e m : Nat) (f : Slot → Slot) : (s.setSlot e m f).ltc = s.ltc := (rfl)
@[simp] theorem setSlot_free (e m : Nat) (f : Slot → Slot) : (s.setSlot e m f).free = s.free := (rfl)
@[simp] theorem setSlot_hostMem (e m : Nat) (f : Slot → Slot) : (s.setSlot e m f).hostMem = s.hostMem := (rfl)
@[simp] theorem setSlot_host (e m : Nat) (f : Slot → Slot) : (s.setSlot e m f).host = s.host := (rfl)
@[simp] theorem setSlot_wd (e m : Nat) (f : Slot → Slot) : (s.setSlot e m f).wd = s.wd := (rfl)
@[simp] theorem setSlot_prism (e m : Nat) (f : Slot → Slot) : (s.setSlot e m f).prism = s.prism := (rfl)
@[simp] theorem setSlot_tmp (e m : Nat) (f : Slot → Slot) : (s.setSlot e m f).tmp = s.tmp := (rfl)
@[simp] theorem setSlot_mil (e m : Nat) (f : Slot → Slot) : (s.setSlot e m f).mil = s.mil := (rfl)
@[simp] theorem setSlot_milBak (e m : Nat) (f : Slot → Slot) : (s.setSlot e m f).milBak = s.milBak := (rfl)
@[simp] theorem setSlot_hearth (e m : Nat) (f : Slot → Slot) : (s.setSlot e m f).hearth = s.hearth := (rfl)
@[simp] theorem setSlot_gran (e m : Nat) (f : Slot → Slot) : (s.setSlot e m f).gran = s.gran := (rfl)
@[simp] theorem setSlot_loom (e m : Nat) (f : Slot → Slot) : (s.setSlot e m f).loom = s.loom := (rfl)
@[simp] theorem setSlot_out (e m : Nat) (f : Slot → Slot) : (s.setSlot e m f).out = s.out := (rfl)
@[simp] theorem setSlot_bridge (e m : Nat) (f : Slot → Slot) : (s.setSlot e m f).bridge = s.bridge := (rfl)
@[simp] theorem setSlot_tcd (e m : Nat) (f : Slot → Slot) : (s.setSlot e m f).tcd = s.tcd := (rfl)
@[simp] theorem setSlot_lens (e m : Nat) (f : Slot → Slot) : (s.setSlot e m f).lens = s.lens := (rfl)
@[simp] theorem setSlot_tally (e m : Nat) (f : Slot → Slot) : (s.setSlot e m f).tally = s.tally := (rfl)
@[simp] theorem setSlot_hrd (e m : Nat) (f : Slot → Slot) : (s.setSlot e m f).hrd = s.hrd := (rfl)
@[simp] theorem setSlot_plk (e m : Nat) (f : Slot → Slot) : (s.setSlot e m f).plk = s.plk := (rfl)
@[simp] theorem setSlot_mir (e m : Nat) (f : Slot → Slot) : (s.setSlot e m f).mir = s.mir := (rfl)
@[simp] theorem setSlot_pwr (e m : Nat) (f : Slot → Slot) : (s.setSlot e m f).pwr = s.pwr := (rfl)
@[simp] theorem setSlot_bus (e m : Nat) (f : Slot → Slot) : (s.setSlot e m f).bus = s.bus := (rfl)
@[simp] theorem setSlot_spi (e m : Nat) (f : Slot → Slot) : (s.setSlot e m f).spi = s.spi := (rfl)
@[simp] theorem setSlot_seqs (e m : Nat) (f : Slot → Slot) : (s.setSlot e m f).seqs = s.seqs := (rfl)
@[simp] theorem setSlot_pending (e m : Nat) (f : Slot → Slot) : (s.setSlot e m f).pending = s.pending := (rfl)
@[simp] theorem setSlot_reg (e m : Nat) (f : Slot → Slot) (j : Nat) : (s.setSlot e m f).reg j = s.reg j := (rfl)
@[simp] theorem setSlot_get (e m : Nat) (f : Slot → Slot) (r : Nat) (x : Fld) : (s.setSlot e m f).get r x = s.get r x := (rfl)
@[simp] theorem setSlot_on (e m : Nat) (f : Slot → Slot) (r : Nat) (x : Fld) : (s.setSlot e m f).on r x = s.on r x := (rfl)
@[simp] theorem setSlot_getI (e m : Nat) (f : Slot → Slot) (r : Nat) (x : Fld) : (s.setSlot e m f).getI r x = s.getI r x := (rfl)

/-! ## setLtc -/

@[simp] theorem setLtc_variant (f : Ltc → Ltc) : (s.setLtc f).variant = s.variant := (rfl)
@[simp] theorem setLtc_regs (f : Ltc → Ltc) : (s.setLtc f).regs = s.regs := (rfl)
@[simp] theorem setLtc_ltc (f : Ltc → Ltc) : (s.setLtc f).ltc = f s.ltc := (rfl)
@[simp] theorem setLtc_free (f : Ltc → Ltc) : (s.setLtc f).free = s.free := (rfl)
@[simp] theorem setLtc_hostMem (f : Ltc → Ltc) : (s.setLtc f).hostMem = s.hostMem := (rfl)
@[simp] theorem setLtc_host (f : Ltc → Ltc) : (s.setLtc f).host = s.host := (rfl)
@[simp] theorem setLtc_wd (f : Ltc → Ltc) : (s.setLtc f).wd = s.wd := (rfl)
@[simp] theorem setLtc_prism (f : Ltc → Ltc) : (s.setLtc f).prism = s.prism := (rfl)
@[simp] theorem setLtc_ens (f : Ltc → Ltc) : (s.setLtc f).ens = s.ens := (rfl)
@[simp] theorem setLtc_tmp (f : Ltc → Ltc) : (s.setLtc f).tmp = s.tmp := (rfl)
@[simp] theorem setLtc_mil (f : Ltc → Ltc) : (s.setLtc f).mil = s.mil := (rfl)
@[simp] theorem setLtc_milBak (f : Ltc → Ltc) : (s.setLtc f).milBak = s.milBak := (rfl)
@[simp] theorem setLtc_hearth (f : Ltc → Ltc) : (s.setLtc f).hearth = s.hearth := (rfl)
@[simp] theorem setLtc_gran (f : Ltc → Ltc) : (s.setLtc f).gran = s.gran := (rfl)
@[simp] theorem setLtc_loom (f : Ltc → Ltc) : (s.setLtc f).loom = s.loom := (rfl)
@[simp] theorem setLtc_out (f : Ltc → Ltc) : (s.setLtc f).out = s.out := (rfl)
@[simp] theorem setLtc_bridge (f : Ltc → Ltc) : (s.setLtc f).bridge = s.bridge := (rfl)
@[simp] theorem setLtc_tcd (f : Ltc → Ltc) : (s.setLtc f).tcd = s.tcd := (rfl)
@[simp] theorem setLtc_lens (f : Ltc → Ltc) : (s.setLtc f).lens = s.lens := (rfl)
@[simp] theorem setLtc_tally (f : Ltc → Ltc) : (s.setLtc f).tally = s.tally := (rfl)
@[simp] theorem setLtc_hrd (f : Ltc → Ltc) : (s.setLtc f).hrd = s.hrd := (rfl)
@[simp] theorem setLtc_plk (f : Ltc → Ltc) : (s.setLtc f).plk = s.plk := (rfl)
@[simp] theorem setLtc_mir (f : Ltc → Ltc) : (s.setLtc f).mir = s.mir := (rfl)
@[simp] theorem setLtc_pwr (f : Ltc → Ltc) : (s.setLtc f).pwr = s.pwr := (rfl)
@[simp] theorem setLtc_bus (f : Ltc → Ltc) : (s.setLtc f).bus = s.bus := (rfl)
@[simp] theorem setLtc_spi (f : Ltc → Ltc) : (s.setLtc f).spi = s.spi := (rfl)
@[simp] theorem setLtc_seqs (f : Ltc → Ltc) : (s.setLtc f).seqs = s.seqs := (rfl)
@[simp] theorem setLtc_pending (f : Ltc → Ltc) : (s.setLtc f).pending = s.pending := (rfl)
@[simp] theorem setLtc_reg (f : Ltc → Ltc) (j : Nat) : (s.setLtc f).reg j = s.reg j := (rfl)
@[simp] theorem setLtc_get (f : Ltc → Ltc) (r : Nat) (x : Fld) : (s.setLtc f).get r x = s.get r x := (rfl)
@[simp] theorem setLtc_on (f : Ltc → Ltc) (r : Nat) (x : Fld) : (s.setLtc f).on r x = s.on r x := (rfl)
@[simp] theorem setLtc_getI (f : Ltc → Ltc) (r : Nat) (x : Fld) : (s.setLtc f).getI r x = s.getI r x := (rfl)

/-! ## ltcPut -/

@[simp] theorem ltcPut_variant (u : Nat) : (s.ltcPut u).variant = s.variant := (rfl)
@[simp] theorem ltcPut_regs (u : Nat) : (s.ltcPut u).regs = s.regs := (rfl)
@[simp] theorem ltcPut_free (u : Nat) : (s.ltcPut u).free = s.free := (rfl)
@[simp] theorem ltcPut_hostMem (u : Nat) : (s.ltcPut u).hostMem = s.hostMem := (rfl)
@[simp] theorem ltcPut_host (u : Nat) : (s.ltcPut u).host = s.host := (rfl)
@[simp] theorem ltcPut_wd (u : Nat) : (s.ltcPut u).wd = s.wd := (rfl)
@[simp] theorem ltcPut_prism (u : Nat) : (s.ltcPut u).prism = s.prism := (rfl)
@[simp] theorem ltcPut_ens (u : Nat) : (s.ltcPut u).ens = s.ens := (rfl)
@[simp] theorem ltcPut_tmp (u : Nat) : (s.ltcPut u).tmp = s.tmp := (rfl)
@[simp] theorem ltcPut_mil (u : Nat) : (s.ltcPut u).mil = s.mil := (rfl)
@[simp] theorem ltcPut_milBak (u : Nat) : (s.ltcPut u).milBak = s.milBak := (rfl)
@[simp] theorem ltcPut_hearth (u : Nat) : (s.ltcPut u).hearth = s.hearth := (rfl)
@[simp] theorem ltcPut_gran (u : Nat) : (s.ltcPut u).gran = s.gran := (rfl)
@[simp] theorem ltcPut_loom (u : Nat) : (s.ltcPut u).loom = s.loom := (rfl)
@[simp] theorem ltcPut_out (u : Nat) : (s.ltcPut u).out = s.out := (rfl)
@[simp] theorem ltcPut_bridge (u : Nat) : (s.ltcPut u).bridge = s.bridge := (rfl)
@[simp] theorem ltcPut_tcd (u : Nat) : (s.ltcPut u).tcd = s.tcd := (rfl)
@[simp] theorem ltcPut_lens (u : Nat) : (s.ltcPut u).lens = s.lens := (rfl)
@[simp] theorem ltcPut_tally (u : Nat) : (s.ltcPut u).tally = s.tally := (rfl)
@[simp] theorem ltcPut_hrd (u : Nat) : (s.ltcPut u).hrd = s.hrd := (rfl)
@[simp] theorem ltcPut_plk (u : Nat) : (s.ltcPut u).plk = s.plk := (rfl)
@[simp] theorem ltcPut_mir (u : Nat) : (s.ltcPut u).mir = s.mir := (rfl)
@[simp] theorem ltcPut_pwr (u : Nat) : (s.ltcPut u).pwr = s.pwr := (rfl)
@[simp] theorem ltcPut_bus (u : Nat) : (s.ltcPut u).bus = s.bus := (rfl)
@[simp] theorem ltcPut_spi (u : Nat) : (s.ltcPut u).spi = s.spi := (rfl)
@[simp] theorem ltcPut_seqs (u : Nat) : (s.ltcPut u).seqs = s.seqs := (rfl)
@[simp] theorem ltcPut_pending (u : Nat) : (s.ltcPut u).pending = s.pending := (rfl)
@[simp] theorem ltcPut_reg (u : Nat) (j : Nat) : (s.ltcPut u).reg j = s.reg j := (rfl)
@[simp] theorem ltcPut_get (u : Nat) (r : Nat) (x : Fld) : (s.ltcPut u).get r x = s.get r x := (rfl)
@[simp] theorem ltcPut_on (u : Nat) (r : Nat) (x : Fld) : (s.ltcPut u).on r x = s.on r x := (rfl)
@[simp] theorem ltcPut_getI (u : Nat) (r : Nat) (x : Fld) : (s.ltcPut u).getI r x = s.getI r x := (rfl)

/-! ## setGran -/

@[simp] theorem setGran_variant (f : GranSt → GranSt) : (s.setGran f).variant = s.variant := (rfl)
@[simp] theorem setGran_regs (f : GranSt → GranSt) : (s.setGran f).regs = s.regs := (rfl)
@[simp] theorem setGran_ltc (f : GranSt → GranSt) : (s.setGran f).ltc = s.ltc := (rfl)
@[simp] theorem setGran_free (f : GranSt → GranSt) : (s.setGran f).free = s.free := (rfl)
@[simp] theorem setGran_hostMem (f : GranSt → GranSt) : (s.setGran f).hostMem = s.hostMem := (rfl)
@[simp] theorem setGran_host (f : GranSt → GranSt) : (s.setGran f).host = s.host := (rfl)
@[simp] theorem setGran_wd (f : GranSt → GranSt) : (s.setGran f).wd = s.wd := (rfl)
@[simp] theorem setGran_prism (f : GranSt → GranSt) : (s.setGran f).prism = s.prism := (rfl)
@[simp] theorem setGran_ens (f : GranSt → GranSt) : (s.setGran f).ens = s.ens := (rfl)
@[simp] theorem setGran_tmp (f : GranSt → GranSt) : (s.setGran f).tmp = s.tmp := (rfl)
@[simp] theorem setGran_mil (f : GranSt → GranSt) : (s.setGran f).mil = s.mil := (rfl)
@[simp] theorem setGran_milBak (f : GranSt → GranSt) : (s.setGran f).milBak = s.milBak := (rfl)
@[simp] theorem setGran_hearth (f : GranSt → GranSt) : (s.setGran f).hearth = s.hearth := (rfl)
@[simp] theorem setGran_gran (f : GranSt → GranSt) : (s.setGran f).gran = f s.gran := (rfl)
@[simp] theorem setGran_loom (f : GranSt → GranSt) : (s.setGran f).loom = s.loom := (rfl)
@[simp] theorem setGran_out (f : GranSt → GranSt) : (s.setGran f).out = s.out := (rfl)
@[simp] theorem setGran_bridge (f : GranSt → GranSt) : (s.setGran f).bridge = s.bridge := (rfl)
@[simp] theorem setGran_tcd (f : GranSt → GranSt) : (s.setGran f).tcd = s.tcd := (rfl)
@[simp] theorem setGran_lens (f : GranSt → GranSt) : (s.setGran f).lens = s.lens := (rfl)
@[simp] theorem setGran_tally (f : GranSt → GranSt) : (s.setGran f).tally = s.tally := (rfl)
@[simp] theorem setGran_hrd (f : GranSt → GranSt) : (s.setGran f).hrd = s.hrd := (rfl)
@[simp] theorem setGran_plk (f : GranSt → GranSt) : (s.setGran f).plk = s.plk := (rfl)
@[simp] theorem setGran_mir (f : GranSt → GranSt) : (s.setGran f).mir = s.mir := (rfl)
@[simp] theorem setGran_pwr (f : GranSt → GranSt) : (s.setGran f).pwr = s.pwr := (rfl)
@[simp] theorem setGran_bus (f : GranSt → GranSt) : (s.setGran f).bus = s.bus := (rfl)
@[simp] theorem setGran_spi (f : GranSt → GranSt) : (s.setGran f).spi = s.spi := (rfl)
@[simp] theorem setGran_seqs (f : GranSt → GranSt) : (s.setGran f).seqs = s.seqs := (rfl)
@[simp] theorem setGran_pending (f : GranSt → GranSt) : (s.setGran f).pending = s.pending := (rfl)
@[simp] theorem setGran_reg (f : GranSt → GranSt) (j : Nat) : (s.setGran f).reg j = s.reg j := (rfl)
@[simp] theorem setGran_get (f : GranSt → GranSt) (r : Nat) (x : Fld) : (s.setGran f).get r x = s.get r x := (rfl)
@[simp] theorem setGran_on (f : GranSt → GranSt) (r : Nat) (x : Fld) : (s.setGran f).on r x = s.on r x := (rfl)
@[simp] theorem setGran_getI (f : GranSt → GranSt) (r : Nat) (x : Fld) : (s.setGran f).getI r x = s.getI r x := (rfl)

/-! ## setHearth -/

@[simp] theorem setHearth_variant (f : HearthSt → HearthSt) : (s.setHearth f).variant = s.variant := (rfl)
@[simp] theorem setHearth_regs (f : HearthSt → HearthSt) : (s.setHearth f).regs = s.regs := (rfl)
@[simp] theorem setHearth_ltc (f : HearthSt → HearthSt) : (s.setHearth f).ltc = s.ltc := (rfl)
@[simp] theorem setHearth_free (f : HearthSt → HearthSt) : (s.setHearth f).free = s.free := (rfl)
@[simp] theorem setHearth_hostMem (f : HearthSt → HearthSt) : (s.setHearth f).hostMem = s.hostMem := (rfl)
@[simp] theorem setHearth_host (f : HearthSt → HearthSt) : (s.setHearth f).host = s.host := (rfl)
@[simp] theorem setHearth_wd (f : HearthSt → HearthSt) : (s.setHearth f).wd = s.wd := (rfl)
@[simp] theorem setHearth_prism (f : HearthSt → HearthSt) : (s.setHearth f).prism = s.prism := (rfl)
@[simp] theorem setHearth_ens (f : HearthSt → HearthSt) : (s.setHearth f).ens = s.ens := (rfl)
@[simp] theorem setHearth_tmp (f : HearthSt → HearthSt) : (s.setHearth f).tmp = s.tmp := (rfl)
@[simp] theorem setHearth_mil (f : HearthSt → HearthSt) : (s.setHearth f).mil = s.mil := (rfl)
@[simp] theorem setHearth_milBak (f : HearthSt → HearthSt) : (s.setHearth f).milBak = s.milBak := (rfl)
@[simp] theorem setHearth_hearth (f : HearthSt → HearthSt) : (s.setHearth f).hearth = f s.hearth := (rfl)
@[simp] theorem setHearth_gran (f : HearthSt → HearthSt) : (s.setHearth f).gran = s.gran := (rfl)
@[simp] theorem setHearth_loom (f : HearthSt → HearthSt) : (s.setHearth f).loom = s.loom := (rfl)
@[simp] theorem setHearth_out (f : HearthSt → HearthSt) : (s.setHearth f).out = s.out := (rfl)
@[simp] theorem setHearth_bridge (f : HearthSt → HearthSt) : (s.setHearth f).bridge = s.bridge := (rfl)
@[simp] theorem setHearth_tcd (f : HearthSt → HearthSt) : (s.setHearth f).tcd = s.tcd := (rfl)
@[simp] theorem setHearth_lens (f : HearthSt → HearthSt) : (s.setHearth f).lens = s.lens := (rfl)
@[simp] theorem setHearth_tally (f : HearthSt → HearthSt) : (s.setHearth f).tally = s.tally := (rfl)
@[simp] theorem setHearth_hrd (f : HearthSt → HearthSt) : (s.setHearth f).hrd = s.hrd := (rfl)
@[simp] theorem setHearth_plk (f : HearthSt → HearthSt) : (s.setHearth f).plk = s.plk := (rfl)
@[simp] theorem setHearth_mir (f : HearthSt → HearthSt) : (s.setHearth f).mir = s.mir := (rfl)
@[simp] theorem setHearth_pwr (f : HearthSt → HearthSt) : (s.setHearth f).pwr = s.pwr := (rfl)
@[simp] theorem setHearth_bus (f : HearthSt → HearthSt) : (s.setHearth f).bus = s.bus := (rfl)
@[simp] theorem setHearth_spi (f : HearthSt → HearthSt) : (s.setHearth f).spi = s.spi := (rfl)
@[simp] theorem setHearth_seqs (f : HearthSt → HearthSt) : (s.setHearth f).seqs = s.seqs := (rfl)
@[simp] theorem setHearth_pending (f : HearthSt → HearthSt) : (s.setHearth f).pending = s.pending := (rfl)
@[simp] theorem setHearth_reg (f : HearthSt → HearthSt) (j : Nat) : (s.setHearth f).reg j = s.reg j := (rfl)
@[simp] theorem setHearth_get (f : HearthSt → HearthSt) (r : Nat) (x : Fld) : (s.setHearth f).get r x = s.get r x := (rfl)
@[simp] theorem setHearth_on (f : HearthSt → HearthSt) (r : Nat) (x : Fld) : (s.setHearth f).on r x = s.on r x := (rfl)
@[simp] theorem setHearth_getI (f : HearthSt → HearthSt) (r : Nat) (x : Fld) : (s.setHearth f).getI r x = s.getI r x := (rfl)

/-! ## setLoom -/

@[simp] theorem setLoom_variant (n : Nat) (f : LoomSt → LoomSt) : (s.setLoom n f).variant = s.variant := (rfl)
@[simp] theorem setLoom_regs (n : Nat) (f : LoomSt → LoomSt) : (s.setLoom n f).regs = s.regs := (rfl)
@[simp] theorem setLoom_ltc (n : Nat) (f : LoomSt → LoomSt) : (s.setLoom n f).ltc = s.ltc := (rfl)
@[simp] theorem setLoom_free (n : Nat) (f : LoomSt → LoomSt) : (s.setLoom n f).free = s.free := (rfl)
@[simp] theorem setLoom_hostMem (n : Nat) (f : LoomSt → LoomSt) : (s.setLoom n f).hostMem = s.hostMem := (rfl)
@[simp] theorem setLoom_host (n : Nat) (f : LoomSt → LoomSt) : (s.setLoom n f).host = s.host := (rfl)
@[simp] theorem setLoom_wd (n : Nat) (f : LoomSt → LoomSt) : (s.setLoom n f).wd = s.wd := (rfl)
@[simp] theorem setLoom_prism (n : Nat) (f : LoomSt → LoomSt) : (s.setLoom n f).prism = s.prism := (rfl)
@[simp] theorem setLoom_ens (n : Nat) (f : LoomSt → LoomSt) : (s.setLoom n f).ens = s.ens := (rfl)
@[simp] theorem setLoom_tmp (n : Nat) (f : LoomSt → LoomSt) : (s.setLoom n f).tmp = s.tmp := (rfl)
@[simp] theorem setLoom_mil (n : Nat) (f : LoomSt → LoomSt) : (s.setLoom n f).mil = s.mil := (rfl)
@[simp] theorem setLoom_milBak (n : Nat) (f : LoomSt → LoomSt) : (s.setLoom n f).milBak = s.milBak := (rfl)
@[simp] theorem setLoom_hearth (n : Nat) (f : LoomSt → LoomSt) : (s.setLoom n f).hearth = s.hearth := (rfl)
@[simp] theorem setLoom_gran (n : Nat) (f : LoomSt → LoomSt) : (s.setLoom n f).gran = s.gran := (rfl)
@[simp] theorem setLoom_loom (n : Nat) (f : LoomSt → LoomSt) : (s.setLoom n f).loom = s.loom.modify n f := (rfl)
@[simp] theorem setLoom_out (n : Nat) (f : LoomSt → LoomSt) : (s.setLoom n f).out = s.out := (rfl)
@[simp] theorem setLoom_bridge (n : Nat) (f : LoomSt → LoomSt) : (s.setLoom n f).bridge = s.bridge := (rfl)
@[simp] theorem setLoom_tcd (n : Nat) (f : LoomSt → LoomSt) : (s.setLoom n f).tcd = s.tcd := (rfl)
@[simp] theorem setLoom_lens (n : Nat) (f : LoomSt → LoomSt) : (s.setLoom n f).lens = s.lens := (rfl)
@[simp] theorem setLoom_tally (n : Nat) (f : LoomSt → LoomSt) : (s.setLoom n f).tally = s.tally := (rfl)
@[simp] theorem setLoom_hrd (n : Nat) (f : LoomSt → LoomSt) : (s.setLoom n f).hrd = s.hrd := (rfl)
@[simp] theorem setLoom_plk (n : Nat) (f : LoomSt → LoomSt) : (s.setLoom n f).plk = s.plk := (rfl)
@[simp] theorem setLoom_mir (n : Nat) (f : LoomSt → LoomSt) : (s.setLoom n f).mir = s.mir := (rfl)
@[simp] theorem setLoom_pwr (n : Nat) (f : LoomSt → LoomSt) : (s.setLoom n f).pwr = s.pwr := (rfl)
@[simp] theorem setLoom_bus (n : Nat) (f : LoomSt → LoomSt) : (s.setLoom n f).bus = s.bus := (rfl)
@[simp] theorem setLoom_spi (n : Nat) (f : LoomSt → LoomSt) : (s.setLoom n f).spi = s.spi := (rfl)
@[simp] theorem setLoom_seqs (n : Nat) (f : LoomSt → LoomSt) : (s.setLoom n f).seqs = s.seqs := (rfl)
@[simp] theorem setLoom_pending (n : Nat) (f : LoomSt → LoomSt) : (s.setLoom n f).pending = s.pending := (rfl)
@[simp] theorem setLoom_reg (n : Nat) (f : LoomSt → LoomSt) (j : Nat) : (s.setLoom n f).reg j = s.reg j := (rfl)
@[simp] theorem setLoom_get (n : Nat) (f : LoomSt → LoomSt) (r : Nat) (x : Fld) : (s.setLoom n f).get r x = s.get r x := (rfl)
@[simp] theorem setLoom_on (n : Nat) (f : LoomSt → LoomSt) (r : Nat) (x : Fld) : (s.setLoom n f).on r x = s.on r x := (rfl)
@[simp] theorem setLoom_getI (n : Nat) (f : LoomSt → LoomSt) (r : Nat) (x : Fld) : (s.setLoom n f).getI r x = s.getI r x := (rfl)

/-! ## setOut -/

@[simp] theorem setOut_variant (o : Nat) (f : OutSt → OutSt) : (s.setOut o f).variant = s.variant := (rfl)
@[simp] theorem setOut_regs (o : Nat) (f : OutSt → OutSt) : (s.setOut o f).regs = s.regs := (rfl)
@[simp] theorem setOut_ltc (o : Nat) (f : OutSt → OutSt) : (s.setOut o f).ltc = s.ltc := (rfl)
@[simp] theorem setOut_free (o : Nat) (f : OutSt → OutSt) : (s.setOut o f).free = s.free := (rfl)
@[simp] theorem setOut_hostMem (o : Nat) (f : OutSt → OutSt) : (s.setOut o f).hostMem = s.hostMem := (rfl)
@[simp] theorem setOut_host (o : Nat) (f : OutSt → OutSt) : (s.setOut o f).host = s.host := (rfl)
@[simp] theorem setOut_wd (o : Nat) (f : OutSt → OutSt) : (s.setOut o f).wd = s.wd := (rfl)
@[simp] theorem setOut_prism (o : Nat) (f : OutSt → OutSt) : (s.setOut o f).prism = s.prism := (rfl)
@[simp] theorem setOut_ens (o : Nat) (f : OutSt → OutSt) : (s.setOut o f).ens = s.ens := (rfl)
@[simp] theorem setOut_tmp (o : Nat) (f : OutSt → OutSt) : (s.setOut o f).tmp = s.tmp := (rfl)
@[simp] theorem setOut_mil (o : Nat) (f : OutSt → OutSt) : (s.setOut o f).mil = s.mil := (rfl)
@[simp] theorem setOut_milBak (o : Nat) (f : OutSt → OutSt) : (s.setOut o f).milBak = s.milBak := (rfl)
@[simp] theorem setOut_hearth (o : Nat) (f : OutSt → OutSt) : (s.setOut o f).hearth = s.hearth := (rfl)
@[simp] theorem setOut_gran (o : Nat) (f : OutSt → OutSt) : (s.setOut o f).gran = s.gran := (rfl)
@[simp] theorem setOut_loom (o : Nat) (f : OutSt → OutSt) : (s.setOut o f).loom = s.loom := (rfl)
@[simp] theorem setOut_out (o : Nat) (f : OutSt → OutSt) : (s.setOut o f).out = s.out.modify o f := (rfl)
@[simp] theorem setOut_bridge (o : Nat) (f : OutSt → OutSt) : (s.setOut o f).bridge = s.bridge := (rfl)
@[simp] theorem setOut_tcd (o : Nat) (f : OutSt → OutSt) : (s.setOut o f).tcd = s.tcd := (rfl)
@[simp] theorem setOut_lens (o : Nat) (f : OutSt → OutSt) : (s.setOut o f).lens = s.lens := (rfl)
@[simp] theorem setOut_tally (o : Nat) (f : OutSt → OutSt) : (s.setOut o f).tally = s.tally := (rfl)
@[simp] theorem setOut_hrd (o : Nat) (f : OutSt → OutSt) : (s.setOut o f).hrd = s.hrd := (rfl)
@[simp] theorem setOut_plk (o : Nat) (f : OutSt → OutSt) : (s.setOut o f).plk = s.plk := (rfl)
@[simp] theorem setOut_mir (o : Nat) (f : OutSt → OutSt) : (s.setOut o f).mir = s.mir := (rfl)
@[simp] theorem setOut_pwr (o : Nat) (f : OutSt → OutSt) : (s.setOut o f).pwr = s.pwr := (rfl)
@[simp] theorem setOut_bus (o : Nat) (f : OutSt → OutSt) : (s.setOut o f).bus = s.bus := (rfl)
@[simp] theorem setOut_spi (o : Nat) (f : OutSt → OutSt) : (s.setOut o f).spi = s.spi := (rfl)
@[simp] theorem setOut_seqs (o : Nat) (f : OutSt → OutSt) : (s.setOut o f).seqs = s.seqs := (rfl)
@[simp] theorem setOut_pending (o : Nat) (f : OutSt → OutSt) : (s.setOut o f).pending = s.pending := (rfl)
@[simp] theorem setOut_reg (o : Nat) (f : OutSt → OutSt) (j : Nat) : (s.setOut o f).reg j = s.reg j := (rfl)
@[simp] theorem setOut_get (o : Nat) (f : OutSt → OutSt) (r : Nat) (x : Fld) : (s.setOut o f).get r x = s.get r x := (rfl)
@[simp] theorem setOut_on (o : Nat) (f : OutSt → OutSt) (r : Nat) (x : Fld) : (s.setOut o f).on r x = s.on r x := (rfl)
@[simp] theorem setOut_getI (o : Nat) (f : OutSt → OutSt) (r : Nat) (x : Fld) : (s.setOut o f).getI r x = s.getI r x := (rfl)

/-! ## setBridge -/

@[simp] theorem setBridge_variant (g : Nat) (f : BridgeSt → BridgeSt) : (s.setBridge g f).variant = s.variant := (rfl)
@[simp] theorem setBridge_regs (g : Nat) (f : BridgeSt → BridgeSt) : (s.setBridge g f).regs = s.regs := (rfl)
@[simp] theorem setBridge_ltc (g : Nat) (f : BridgeSt → BridgeSt) : (s.setBridge g f).ltc = s.ltc := (rfl)
@[simp] theorem setBridge_free (g : Nat) (f : BridgeSt → BridgeSt) : (s.setBridge g f).free = s.free := (rfl)
@[simp] theorem setBridge_hostMem (g : Nat) (f : BridgeSt → BridgeSt) : (s.setBridge g f).hostMem = s.hostMem := (rfl)
@[simp] theorem setBridge_host (g : Nat) (f : BridgeSt → BridgeSt) : (s.setBridge g f).host = s.host := (rfl)
@[simp] theorem setBridge_wd (g : Nat) (f : BridgeSt → BridgeSt) : (s.setBridge g f).wd = s.wd := (rfl)
@[simp] theorem setBridge_prism (g : Nat) (f : BridgeSt → BridgeSt) : (s.setBridge g f).prism = s.prism := (rfl)
@[simp] theorem setBridge_ens (g : Nat) (f : BridgeSt → BridgeSt) : (s.setBridge g f).ens = s.ens := (rfl)
@[simp] theorem setBridge_tmp (g : Nat) (f : BridgeSt → BridgeSt) : (s.setBridge g f).tmp = s.tmp := (rfl)
@[simp] theorem setBridge_mil (g : Nat) (f : BridgeSt → BridgeSt) : (s.setBridge g f).mil = s.mil := (rfl)
@[simp] theorem setBridge_milBak (g : Nat) (f : BridgeSt → BridgeSt) : (s.setBridge g f).milBak = s.milBak := (rfl)
@[simp] theorem setBridge_hearth (g : Nat) (f : BridgeSt → BridgeSt) : (s.setBridge g f).hearth = s.hearth := (rfl)
@[simp] theorem setBridge_gran (g : Nat) (f : BridgeSt → BridgeSt) : (s.setBridge g f).gran = s.gran := (rfl)
@[simp] theorem setBridge_loom (g : Nat) (f : BridgeSt → BridgeSt) : (s.setBridge g f).loom = s.loom := (rfl)
@[simp] theorem setBridge_out (g : Nat) (f : BridgeSt → BridgeSt) : (s.setBridge g f).out = s.out := (rfl)
@[simp] theorem setBridge_bridge (g : Nat) (f : BridgeSt → BridgeSt) : (s.setBridge g f).bridge = s.bridge.modify g f := (rfl)
@[simp] theorem setBridge_tcd (g : Nat) (f : BridgeSt → BridgeSt) : (s.setBridge g f).tcd = s.tcd := (rfl)
@[simp] theorem setBridge_lens (g : Nat) (f : BridgeSt → BridgeSt) : (s.setBridge g f).lens = s.lens := (rfl)
@[simp] theorem setBridge_tally (g : Nat) (f : BridgeSt → BridgeSt) : (s.setBridge g f).tally = s.tally := (rfl)
@[simp] theorem setBridge_hrd (g : Nat) (f : BridgeSt → BridgeSt) : (s.setBridge g f).hrd = s.hrd := (rfl)
@[simp] theorem setBridge_plk (g : Nat) (f : BridgeSt → BridgeSt) : (s.setBridge g f).plk = s.plk := (rfl)
@[simp] theorem setBridge_mir (g : Nat) (f : BridgeSt → BridgeSt) : (s.setBridge g f).mir = s.mir := (rfl)
@[simp] theorem setBridge_pwr (g : Nat) (f : BridgeSt → BridgeSt) : (s.setBridge g f).pwr = s.pwr := (rfl)
@[simp] theorem setBridge_bus (g : Nat) (f : BridgeSt → BridgeSt) : (s.setBridge g f).bus = s.bus := (rfl)
@[simp] theorem setBridge_spi (g : Nat) (f : BridgeSt → BridgeSt) : (s.setBridge g f).spi = s.spi := (rfl)
@[simp] theorem setBridge_seqs (g : Nat) (f : BridgeSt → BridgeSt) : (s.setBridge g f).seqs = s.seqs := (rfl)
@[simp] theorem setBridge_pending (g : Nat) (f : BridgeSt → BridgeSt) : (s.setBridge g f).pending = s.pending := (rfl)
@[simp] theorem setBridge_reg (g : Nat) (f : BridgeSt → BridgeSt) (j : Nat) : (s.setBridge g f).reg j = s.reg j := (rfl)
@[simp] theorem setBridge_get (g : Nat) (f : BridgeSt → BridgeSt) (r : Nat) (x : Fld) : (s.setBridge g f).get r x = s.get r x := (rfl)
@[simp] theorem setBridge_on (g : Nat) (f : BridgeSt → BridgeSt) (r : Nat) (x : Fld) : (s.setBridge g f).on r x = s.on r x := (rfl)
@[simp] theorem setBridge_getI (g : Nat) (f : BridgeSt → BridgeSt) (r : Nat) (x : Fld) : (s.setBridge g f).getI r x = s.getI r x := (rfl)

/-! ## setTcd -/

@[simp] theorem setTcd_variant (f : TcdSt → TcdSt) : (s.setTcd f).variant = s.variant := (rfl)
@[simp] theorem setTcd_regs (f : TcdSt → TcdSt) : (s.setTcd f).regs = s.regs := (rfl)
@[simp] theorem setTcd_ltc (f : TcdSt → TcdSt) : (s.setTcd f).ltc = s.ltc := (rfl)
@[simp] theorem setTcd_free (f : TcdSt → TcdSt) : (s.setTcd f).free = s.free := (rfl)
@[simp] theorem setTcd_hostMem (f : TcdSt → TcdSt) : (s.setTcd f).hostMem = s.hostMem := (rfl)
@[simp] theorem setTcd_host (f : TcdSt → TcdSt) : (s.setTcd f).host = s.host := (rfl)
@[simp] theorem setTcd_wd (f : TcdSt → TcdSt) : (s.setTcd f).wd = s.wd := (rfl)
@[simp] theorem setTcd_prism (f : TcdSt → TcdSt) : (s.setTcd f).prism = s.prism := (rfl)
@[simp] theorem setTcd_ens (f : TcdSt → TcdSt) : (s.setTcd f).ens = s.ens := (rfl)
@[simp] theorem setTcd_tmp (f : TcdSt → TcdSt) : (s.setTcd f).tmp = s.tmp := (rfl)
@[simp] theorem setTcd_mil (f : TcdSt → TcdSt) : (s.setTcd f).mil = s.mil := (rfl)
@[simp] theorem setTcd_milBak (f : TcdSt → TcdSt) : (s.setTcd f).milBak = s.milBak := (rfl)
@[simp] theorem setTcd_hearth (f : TcdSt → TcdSt) : (s.setTcd f).hearth = s.hearth := (rfl)
@[simp] theorem setTcd_gran (f : TcdSt → TcdSt) : (s.setTcd f).gran = s.gran := (rfl)
@[simp] theorem setTcd_loom (f : TcdSt → TcdSt) : (s.setTcd f).loom = s.loom := (rfl)
@[simp] theorem setTcd_out (f : TcdSt → TcdSt) : (s.setTcd f).out = s.out := (rfl)
@[simp] theorem setTcd_bridge (f : TcdSt → TcdSt) : (s.setTcd f).bridge = s.bridge := (rfl)
@[simp] theorem setTcd_tcd (f : TcdSt → TcdSt) : (s.setTcd f).tcd = f s.tcd := (rfl)
@[simp] theorem setTcd_lens (f : TcdSt → TcdSt) : (s.setTcd f).lens = s.lens := (rfl)
@[simp] theorem setTcd_tally (f : TcdSt → TcdSt) : (s.setTcd f).tally = s.tally := (rfl)
@[simp] theorem setTcd_hrd (f : TcdSt → TcdSt) : (s.setTcd f).hrd = s.hrd := (rfl)
@[simp] theorem setTcd_plk (f : TcdSt → TcdSt) : (s.setTcd f).plk = s.plk := (rfl)
@[simp] theorem setTcd_mir (f : TcdSt → TcdSt) : (s.setTcd f).mir = s.mir := (rfl)
@[simp] theorem setTcd_pwr (f : TcdSt → TcdSt) : (s.setTcd f).pwr = s.pwr := (rfl)
@[simp] theorem setTcd_bus (f : TcdSt → TcdSt) : (s.setTcd f).bus = s.bus := (rfl)
@[simp] theorem setTcd_spi (f : TcdSt → TcdSt) : (s.setTcd f).spi = s.spi := (rfl)
@[simp] theorem setTcd_seqs (f : TcdSt → TcdSt) : (s.setTcd f).seqs = s.seqs := (rfl)
@[simp] theorem setTcd_pending (f : TcdSt → TcdSt) : (s.setTcd f).pending = s.pending := (rfl)
@[simp] theorem setTcd_reg (f : TcdSt → TcdSt) (j : Nat) : (s.setTcd f).reg j = s.reg j := (rfl)
@[simp] theorem setTcd_get (f : TcdSt → TcdSt) (r : Nat) (x : Fld) : (s.setTcd f).get r x = s.get r x := (rfl)
@[simp] theorem setTcd_on (f : TcdSt → TcdSt) (r : Nat) (x : Fld) : (s.setTcd f).on r x = s.on r x := (rfl)
@[simp] theorem setTcd_getI (f : TcdSt → TcdSt) (r : Nat) (x : Fld) : (s.setTcd f).getI r x = s.getI r x := (rfl)

/-! ## setLens -/

@[simp] theorem setLens_variant (f : LensSt → LensSt) : (s.setLens f).variant = s.variant := (rfl)
@[simp] theorem setLens_regs (f : LensSt → LensSt) : (s.setLens f).regs = s.regs := (rfl)
@[simp] theorem setLens_ltc (f : LensSt → LensSt) : (s.setLens f).ltc = s.ltc := (rfl)
@[simp] theorem setLens_free (f : LensSt → LensSt) : (s.setLens f).free = s.free := (rfl)
@[simp] theorem setLens_hostMem (f : LensSt → LensSt) : (s.setLens f).hostMem = s.hostMem := (rfl)
@[simp] theorem setLens_host (f : LensSt → LensSt) : (s.setLens f).host = s.host := (rfl)
@[simp] theorem setLens_wd (f : LensSt → LensSt) : (s.setLens f).wd = s.wd := (rfl)
@[simp] theorem setLens_prism (f : LensSt → LensSt) : (s.setLens f).prism = s.prism := (rfl)
@[simp] theorem setLens_ens (f : LensSt → LensSt) : (s.setLens f).ens = s.ens := (rfl)
@[simp] theorem setLens_tmp (f : LensSt → LensSt) : (s.setLens f).tmp = s.tmp := (rfl)
@[simp] theorem setLens_mil (f : LensSt → LensSt) : (s.setLens f).mil = s.mil := (rfl)
@[simp] theorem setLens_milBak (f : LensSt → LensSt) : (s.setLens f).milBak = s.milBak := (rfl)
@[simp] theorem setLens_hearth (f : LensSt → LensSt) : (s.setLens f).hearth = s.hearth := (rfl)
@[simp] theorem setLens_gran (f : LensSt → LensSt) : (s.setLens f).gran = s.gran := (rfl)
@[simp] theorem setLens_loom (f : LensSt → LensSt) : (s.setLens f).loom = s.loom := (rfl)
@[simp] theorem setLens_out (f : LensSt → LensSt) : (s.setLens f).out = s.out := (rfl)
@[simp] theorem setLens_bridge (f : LensSt → LensSt) : (s.setLens f).bridge = s.bridge := (rfl)
@[simp] theorem setLens_tcd (f : LensSt → LensSt) : (s.setLens f).tcd = s.tcd := (rfl)
@[simp] theorem setLens_lens (f : LensSt → LensSt) : (s.setLens f).lens = f s.lens := (rfl)
@[simp] theorem setLens_tally (f : LensSt → LensSt) : (s.setLens f).tally = s.tally := (rfl)
@[simp] theorem setLens_hrd (f : LensSt → LensSt) : (s.setLens f).hrd = s.hrd := (rfl)
@[simp] theorem setLens_plk (f : LensSt → LensSt) : (s.setLens f).plk = s.plk := (rfl)
@[simp] theorem setLens_mir (f : LensSt → LensSt) : (s.setLens f).mir = s.mir := (rfl)
@[simp] theorem setLens_pwr (f : LensSt → LensSt) : (s.setLens f).pwr = s.pwr := (rfl)
@[simp] theorem setLens_bus (f : LensSt → LensSt) : (s.setLens f).bus = s.bus := (rfl)
@[simp] theorem setLens_spi (f : LensSt → LensSt) : (s.setLens f).spi = s.spi := (rfl)
@[simp] theorem setLens_seqs (f : LensSt → LensSt) : (s.setLens f).seqs = s.seqs := (rfl)
@[simp] theorem setLens_pending (f : LensSt → LensSt) : (s.setLens f).pending = s.pending := (rfl)
@[simp] theorem setLens_reg (f : LensSt → LensSt) (j : Nat) : (s.setLens f).reg j = s.reg j := (rfl)
@[simp] theorem setLens_get (f : LensSt → LensSt) (r : Nat) (x : Fld) : (s.setLens f).get r x = s.get r x := (rfl)
@[simp] theorem setLens_on (f : LensSt → LensSt) (r : Nat) (x : Fld) : (s.setLens f).on r x = s.on r x := (rfl)
@[simp] theorem setLens_getI (f : LensSt → LensSt) (r : Nat) (x : Fld) : (s.setLens f).getI r x = s.getI r x := (rfl)

/-! ## setLensIn -/

@[simp] theorem setLensIn_variant (i : Nat) (f : LensIn → LensIn) : (s.setLensIn i f).variant = s.variant := (rfl)
@[simp] theorem setLensIn_regs (i : Nat) (f : LensIn → LensIn) : (s.setLensIn i f).regs = s.regs := (rfl)
@[simp] theorem setLensIn_ltc (i : Nat) (f : LensIn → LensIn) : (s.setLensIn i f).ltc = s.ltc := (rfl)
@[simp] theorem setLensIn_free (i : Nat) (f : LensIn → LensIn) : (s.setLensIn i f).free = s.free := (rfl)
@[simp] theorem setLensIn_hostMem (i : Nat) (f : LensIn → LensIn) : (s.setLensIn i f).hostMem = s.hostMem := (rfl)
@[simp] theorem setLensIn_host (i : Nat) (f : LensIn → LensIn) : (s.setLensIn i f).host = s.host := (rfl)
@[simp] theorem setLensIn_wd (i : Nat) (f : LensIn → LensIn) : (s.setLensIn i f).wd = s.wd := (rfl)
@[simp] theorem setLensIn_prism (i : Nat) (f : LensIn → LensIn) : (s.setLensIn i f).prism = s.prism := (rfl)
@[simp] theorem setLensIn_ens (i : Nat) (f : LensIn → LensIn) : (s.setLensIn i f).ens = s.ens := (rfl)
@[simp] theorem setLensIn_tmp (i : Nat) (f : LensIn → LensIn) : (s.setLensIn i f).tmp = s.tmp := (rfl)
@[simp] theorem setLensIn_mil (i : Nat) (f : LensIn → LensIn) : (s.setLensIn i f).mil = s.mil := (rfl)
@[simp] theorem setLensIn_milBak (i : Nat) (f : LensIn → LensIn) : (s.setLensIn i f).milBak = s.milBak := (rfl)
@[simp] theorem setLensIn_hearth (i : Nat) (f : LensIn → LensIn) : (s.setLensIn i f).hearth = s.hearth := (rfl)
@[simp] theorem setLensIn_gran (i : Nat) (f : LensIn → LensIn) : (s.setLensIn i f).gran = s.gran := (rfl)
@[simp] theorem setLensIn_loom (i : Nat) (f : LensIn → LensIn) : (s.setLensIn i f).loom = s.loom := (rfl)
@[simp] theorem setLensIn_out (i : Nat) (f : LensIn → LensIn) : (s.setLensIn i f).out = s.out := (rfl)
@[simp] theorem setLensIn_bridge (i : Nat) (f : LensIn → LensIn) : (s.setLensIn i f).bridge = s.bridge := (rfl)
@[simp] theorem setLensIn_tcd (i : Nat) (f : LensIn → LensIn) : (s.setLensIn i f).tcd = s.tcd := (rfl)
@[simp] theorem setLensIn_tally (i : Nat) (f : LensIn → LensIn) : (s.setLensIn i f).tally = s.tally := (rfl)
@[simp] theorem setLensIn_hrd (i : Nat) (f : LensIn → LensIn) : (s.setLensIn i f).hrd = s.hrd := (rfl)
@[simp] theorem setLensIn_plk (i : Nat) (f : LensIn → LensIn) : (s.setLensIn i f).plk = s.plk := (rfl)
@[simp] theorem setLensIn_mir (i : Nat) (f : LensIn → LensIn) : (s.setLensIn i f).mir = s.mir := (rfl)
@[simp] theorem setLensIn_pwr (i : Nat) (f : LensIn → LensIn) : (s.setLensIn i f).pwr = s.pwr := (rfl)
@[simp] theorem setLensIn_bus (i : Nat) (f : LensIn → LensIn) : (s.setLensIn i f).bus = s.bus := (rfl)
@[simp] theorem setLensIn_spi (i : Nat) (f : LensIn → LensIn) : (s.setLensIn i f).spi = s.spi := (rfl)
@[simp] theorem setLensIn_seqs (i : Nat) (f : LensIn → LensIn) : (s.setLensIn i f).seqs = s.seqs := (rfl)
@[simp] theorem setLensIn_pending (i : Nat) (f : LensIn → LensIn) : (s.setLensIn i f).pending = s.pending := (rfl)
@[simp] theorem setLensIn_reg (i : Nat) (f : LensIn → LensIn) (j : Nat) : (s.setLensIn i f).reg j = s.reg j := (rfl)
@[simp] theorem setLensIn_get (i : Nat) (f : LensIn → LensIn) (r : Nat) (x : Fld) : (s.setLensIn i f).get r x = s.get r x := (rfl)
@[simp] theorem setLensIn_on (i : Nat) (f : LensIn → LensIn) (r : Nat) (x : Fld) : (s.setLensIn i f).on r x = s.on r x := (rfl)
@[simp] theorem setLensIn_getI (i : Nat) (f : LensIn → LensIn) (r : Nat) (x : Fld) : (s.setLensIn i f).getI r x = s.getI r x := (rfl)

/-! ## setUnit -/

@[simp] theorem setUnit_variant (u : Nat) (f : BurstSt → BurstSt) : (s.setUnit u f).variant = s.variant := (rfl)
@[simp] theorem setUnit_regs (u : Nat) (f : BurstSt → BurstSt) : (s.setUnit u f).regs = s.regs := (rfl)
@[simp] theorem setUnit_ltc (u : Nat) (f : BurstSt → BurstSt) : (s.setUnit u f).ltc = s.ltc := (rfl)
@[simp] theorem setUnit_free (u : Nat) (f : BurstSt → BurstSt) : (s.setUnit u f).free = s.free := (rfl)
@[simp] theorem setUnit_hostMem (u : Nat) (f : BurstSt → BurstSt) : (s.setUnit u f).hostMem = s.hostMem := (rfl)
@[simp] theorem setUnit_host (u : Nat) (f : BurstSt → BurstSt) : (s.setUnit u f).host = s.host := (rfl)
@[simp] theorem setUnit_wd (u : Nat) (f : BurstSt → BurstSt) : (s.setUnit u f).wd = s.wd := (rfl)
@[simp] theorem setUnit_prism (u : Nat) (f : BurstSt → BurstSt) : (s.setUnit u f).prism = s.prism := (rfl)
@[simp] theorem setUnit_ens (u : Nat) (f : BurstSt → BurstSt) : (s.setUnit u f).ens = s.ens := (rfl)
@[simp] theorem setUnit_tmp (u : Nat) (f : BurstSt → BurstSt) : (s.setUnit u f).tmp = s.tmp := (rfl)
@[simp] theorem setUnit_mil (u : Nat) (f : BurstSt → BurstSt) : (s.setUnit u f).mil = s.mil := (rfl)
@[simp] theorem setUnit_milBak (u : Nat) (f : BurstSt → BurstSt) : (s.setUnit u f).milBak = s.milBak := (rfl)
@[simp] theorem setUnit_hearth (u : Nat) (f : BurstSt → BurstSt) : (s.setUnit u f).hearth = s.hearth := (rfl)
@[simp] theorem setUnit_gran (u : Nat) (f : BurstSt → BurstSt) : (s.setUnit u f).gran = s.gran := (rfl)
@[simp] theorem setUnit_loom (u : Nat) (f : BurstSt → BurstSt) : (s.setUnit u f).loom = s.loom := (rfl)
@[simp] theorem setUnit_out (u : Nat) (f : BurstSt → BurstSt) : (s.setUnit u f).out = s.out := (rfl)
@[simp] theorem setUnit_bridge (u : Nat) (f : BurstSt → BurstSt) : (s.setUnit u f).bridge = s.bridge := (rfl)
@[simp] theorem setUnit_tcd (u : Nat) (f : BurstSt → BurstSt) : (s.setUnit u f).tcd = s.tcd := (rfl)
@[simp] theorem setUnit_tally (u : Nat) (f : BurstSt → BurstSt) : (s.setUnit u f).tally = s.tally := (rfl)
@[simp] theorem setUnit_hrd (u : Nat) (f : BurstSt → BurstSt) : (s.setUnit u f).hrd = s.hrd := (rfl)
@[simp] theorem setUnit_plk (u : Nat) (f : BurstSt → BurstSt) : (s.setUnit u f).plk = s.plk := (rfl)
@[simp] theorem setUnit_mir (u : Nat) (f : BurstSt → BurstSt) : (s.setUnit u f).mir = s.mir := (rfl)
@[simp] theorem setUnit_pwr (u : Nat) (f : BurstSt → BurstSt) : (s.setUnit u f).pwr = s.pwr := (rfl)
@[simp] theorem setUnit_bus (u : Nat) (f : BurstSt → BurstSt) : (s.setUnit u f).bus = s.bus := (rfl)
@[simp] theorem setUnit_spi (u : Nat) (f : BurstSt → BurstSt) : (s.setUnit u f).spi = s.spi := (rfl)
@[simp] theorem setUnit_seqs (u : Nat) (f : BurstSt → BurstSt) : (s.setUnit u f).seqs = s.seqs := (rfl)
@[simp] theorem setUnit_pending (u : Nat) (f : BurstSt → BurstSt) : (s.setUnit u f).pending = s.pending := (rfl)
@[simp] theorem setUnit_reg (u : Nat) (f : BurstSt → BurstSt) (j : Nat) : (s.setUnit u f).reg j = s.reg j := (rfl)
@[simp] theorem setUnit_get (u : Nat) (f : BurstSt → BurstSt) (r : Nat) (x : Fld) : (s.setUnit u f).get r x = s.get r x := (rfl)
@[simp] theorem setUnit_on (u : Nat) (f : BurstSt → BurstSt) (r : Nat) (x : Fld) : (s.setUnit u f).on r x = s.on r x := (rfl)
@[simp] theorem setUnit_getI (u : Nat) (f : BurstSt → BurstSt) (r : Nat) (x : Fld) : (s.setUnit u f).getI r x = s.getI r x := (rfl)

/-! ## setTally -/

@[simp] theorem setTally_variant (f : TallySt → TallySt) : (s.setTally f).variant = s.variant := (rfl)
@[simp] theorem setTally_regs (f : TallySt → TallySt) : (s.setTally f).regs = s.regs := (rfl)
@[simp] theorem setTally_ltc (f : TallySt → TallySt) : (s.setTally f).ltc = s.ltc := (rfl)
@[simp] theorem setTally_free (f : TallySt → TallySt) : (s.setTally f).free = s.free := (rfl)
@[simp] theorem setTally_hostMem (f : TallySt → TallySt) : (s.setTally f).hostMem = s.hostMem := (rfl)
@[simp] theorem setTally_host (f : TallySt → TallySt) : (s.setTally f).host = s.host := (rfl)
@[simp] theorem setTally_wd (f : TallySt → TallySt) : (s.setTally f).wd = s.wd := (rfl)
@[simp] theorem setTally_prism (f : TallySt → TallySt) : (s.setTally f).prism = s.prism := (rfl)
@[simp] theorem setTally_ens (f : TallySt → TallySt) : (s.setTally f).ens = s.ens := (rfl)
@[simp] theorem setTally_tmp (f : TallySt → TallySt) : (s.setTally f).tmp = s.tmp := (rfl)
@[simp] theorem setTally_mil (f : TallySt → TallySt) : (s.setTally f).mil = s.mil := (rfl)
@[simp] theorem setTally_milBak (f : TallySt → TallySt) : (s.setTally f).milBak = s.milBak := (rfl)
@[simp] theorem setTally_hearth (f : TallySt → TallySt) : (s.setTally f).hearth = s.hearth := (rfl)
@[simp] theorem setTally_gran (f : TallySt → TallySt) : (s.setTally f).gran = s.gran := (rfl)
@[simp] theorem setTally_loom (f : TallySt → TallySt) : (s.setTally f).loom = s.loom := (rfl)
@[simp] theorem setTally_out (f : TallySt → TallySt) : (s.setTally f).out = s.out := (rfl)
@[simp] theorem setTally_bridge (f : TallySt → TallySt) : (s.setTally f).bridge = s.bridge := (rfl)
@[simp] theorem setTally_tcd (f : TallySt → TallySt) : (s.setTally f).tcd = s.tcd := (rfl)
@[simp] theorem setTally_lens (f : TallySt → TallySt) : (s.setTally f).lens = s.lens := (rfl)
@[simp] theorem setTally_tally (f : TallySt → TallySt) : (s.setTally f).tally = f s.tally := (rfl)
@[simp] theorem setTally_hrd (f : TallySt → TallySt) : (s.setTally f).hrd = s.hrd := (rfl)
@[simp] theorem setTally_plk (f : TallySt → TallySt) : (s.setTally f).plk = s.plk := (rfl)
@[simp] theorem setTally_mir (f : TallySt → TallySt) : (s.setTally f).mir = s.mir := (rfl)
@[simp] theorem setTally_pwr (f : TallySt → TallySt) : (s.setTally f).pwr = s.pwr := (rfl)
@[simp] theorem setTally_bus (f : TallySt → TallySt) : (s.setTally f).bus = s.bus := (rfl)
@[simp] theorem setTally_spi (f : TallySt → TallySt) : (s.setTally f).spi = s.spi := (rfl)
@[simp] theorem setTally_seqs (f : TallySt → TallySt) : (s.setTally f).seqs = s.seqs := (rfl)
@[simp] theorem setTally_pending (f : TallySt → TallySt) : (s.setTally f).pending = s.pending := (rfl)
@[simp] theorem setTally_reg (f : TallySt → TallySt) (j : Nat) : (s.setTally f).reg j = s.reg j := (rfl)
@[simp] theorem setTally_get (f : TallySt → TallySt) (r : Nat) (x : Fld) : (s.setTally f).get r x = s.get r x := (rfl)
@[simp] theorem setTally_on (f : TallySt → TallySt) (r : Nat) (x : Fld) : (s.setTally f).on r x = s.on r x := (rfl)
@[simp] theorem setTally_getI (f : TallySt → TallySt) (r : Nat) (x : Fld) : (s.setTally f).getI r x = s.getI r x := (rfl)

/-! ## setMeas -/

@[simp] theorem setMeas_variant (m : Nat) (f : Meas → Meas) : (s.setMeas m f).variant = s.variant := (rfl)
@[simp] theorem setMeas_regs (m : Nat) (f : Meas → Meas) : (s.setMeas m f).regs = s.regs := (rfl)
@[simp] theorem setMeas_ltc (m : Nat) (f : Meas → Meas) : (s.setMeas m f).ltc = s.ltc := (rfl)
@[simp] theorem setMeas_free (m : Nat) (f : Meas → Meas) : (s.setMeas m f).free = s.free := (rfl)
@[simp] theorem setMeas_hostMem (m : Nat) (f : Meas → Meas) : (s.setMeas m f).hostMem = s.hostMem := (rfl)
@[simp] theorem setMeas_host (m : Nat) (f : Meas → Meas) : (s.setMeas m f).host = s.host := (rfl)
@[simp] theorem setMeas_wd (m : Nat) (f : Meas → Meas) : (s.setMeas m f).wd = s.wd := (rfl)
@[simp] theorem setMeas_prism (m : Nat) (f : Meas → Meas) : (s.setMeas m f).prism = s.prism := (rfl)
@[simp] theorem setMeas_ens (m : Nat) (f : Meas → Meas) : (s.setMeas m f).ens = s.ens := (rfl)
@[simp] theorem setMeas_tmp (m : Nat) (f : Meas → Meas) : (s.setMeas m f).tmp = s.tmp := (rfl)
@[simp] theorem setMeas_mil (m : Nat) (f : Meas → Meas) : (s.setMeas m f).mil = s.mil := (rfl)
@[simp] theorem setMeas_milBak (m : Nat) (f : Meas → Meas) : (s.setMeas m f).milBak = s.milBak := (rfl)
@[simp] theorem setMeas_hearth (m : Nat) (f : Meas → Meas) : (s.setMeas m f).hearth = s.hearth := (rfl)
@[simp] theorem setMeas_gran (m : Nat) (f : Meas → Meas) : (s.setMeas m f).gran = s.gran := (rfl)
@[simp] theorem setMeas_loom (m : Nat) (f : Meas → Meas) : (s.setMeas m f).loom = s.loom := (rfl)
@[simp] theorem setMeas_out (m : Nat) (f : Meas → Meas) : (s.setMeas m f).out = s.out := (rfl)
@[simp] theorem setMeas_bridge (m : Nat) (f : Meas → Meas) : (s.setMeas m f).bridge = s.bridge := (rfl)
@[simp] theorem setMeas_tcd (m : Nat) (f : Meas → Meas) : (s.setMeas m f).tcd = s.tcd := (rfl)
@[simp] theorem setMeas_lens (m : Nat) (f : Meas → Meas) : (s.setMeas m f).lens = s.lens := (rfl)
@[simp] theorem setMeas_hrd (m : Nat) (f : Meas → Meas) : (s.setMeas m f).hrd = s.hrd := (rfl)
@[simp] theorem setMeas_plk (m : Nat) (f : Meas → Meas) : (s.setMeas m f).plk = s.plk := (rfl)
@[simp] theorem setMeas_mir (m : Nat) (f : Meas → Meas) : (s.setMeas m f).mir = s.mir := (rfl)
@[simp] theorem setMeas_pwr (m : Nat) (f : Meas → Meas) : (s.setMeas m f).pwr = s.pwr := (rfl)
@[simp] theorem setMeas_bus (m : Nat) (f : Meas → Meas) : (s.setMeas m f).bus = s.bus := (rfl)
@[simp] theorem setMeas_spi (m : Nat) (f : Meas → Meas) : (s.setMeas m f).spi = s.spi := (rfl)
@[simp] theorem setMeas_seqs (m : Nat) (f : Meas → Meas) : (s.setMeas m f).seqs = s.seqs := (rfl)
@[simp] theorem setMeas_pending (m : Nat) (f : Meas → Meas) : (s.setMeas m f).pending = s.pending := (rfl)
@[simp] theorem setMeas_reg (m : Nat) (f : Meas → Meas) (j : Nat) : (s.setMeas m f).reg j = s.reg j := (rfl)
@[simp] theorem setMeas_get (m : Nat) (f : Meas → Meas) (r : Nat) (x : Fld) : (s.setMeas m f).get r x = s.get r x := (rfl)
@[simp] theorem setMeas_on (m : Nat) (f : Meas → Meas) (r : Nat) (x : Fld) : (s.setMeas m f).on r x = s.on r x := (rfl)
@[simp] theorem setMeas_getI (m : Nat) (f : Meas → Meas) (r : Nat) (x : Fld) : (s.setMeas m f).getI r x = s.getI r x := (rfl)

/-! ## setSen -/

@[simp] theorem setSen_variant (f : SenSt → SenSt) : (s.setSen f).variant = s.variant := (rfl)
@[simp] theorem setSen_regs (f : SenSt → SenSt) : (s.setSen f).regs = s.regs := (rfl)
@[simp] theorem setSen_ltc (f : SenSt → SenSt) : (s.setSen f).ltc = s.ltc := (rfl)
@[simp] theorem setSen_free (f : SenSt → SenSt) : (s.setSen f).free = s.free := (rfl)
@[simp] theorem setSen_hostMem (f : SenSt → SenSt) : (s.setSen f).hostMem = s.hostMem := (rfl)
@[simp] theorem setSen_host (f : SenSt → SenSt) : (s.setSen f).host = s.host := (rfl)
@[simp] theorem setSen_wd (f : SenSt → SenSt) : (s.setSen f).wd = s.wd := (rfl)
@[simp] theorem setSen_prism (f : SenSt → SenSt) : (s.setSen f).prism = s.prism := (rfl)
@[simp] theorem setSen_ens (f : SenSt → SenSt) : (s.setSen f).ens = s.ens := (rfl)
@[simp] theorem setSen_tmp (f : SenSt → SenSt) : (s.setSen f).tmp = s.tmp := (rfl)
@[simp] theorem setSen_mil (f : SenSt → SenSt) : (s.setSen f).mil = s.mil := (rfl)
@[simp] theorem setSen_milBak (f : SenSt → SenSt) : (s.setSen f).milBak = s.milBak := (rfl)
@[simp] theorem setSen_hearth (f : SenSt → SenSt) : (s.setSen f).hearth = s.hearth := (rfl)
@[simp] theorem setSen_gran (f : SenSt → SenSt) : (s.setSen f).gran = s.gran := (rfl)
@[simp] theorem setSen_loom (f : SenSt → SenSt) : (s.setSen f).loom = s.loom := (rfl)
@[simp] theorem setSen_out (f : SenSt → SenSt) : (s.setSen f).out = s.out := (rfl)
@[simp] theorem setSen_bridge (f : SenSt → SenSt) : (s.setSen f).bridge = s.bridge := (rfl)
@[simp] theorem setSen_tcd (f : SenSt → SenSt) : (s.setSen f).tcd = s.tcd := (rfl)
@[simp] theorem setSen_lens (f : SenSt → SenSt) : (s.setSen f).lens = s.lens := (rfl)
@[simp] theorem setSen_hrd (f : SenSt → SenSt) : (s.setSen f).hrd = s.hrd := (rfl)
@[simp] theorem setSen_plk (f : SenSt → SenSt) : (s.setSen f).plk = s.plk := (rfl)
@[simp] theorem setSen_mir (f : SenSt → SenSt) : (s.setSen f).mir = s.mir := (rfl)
@[simp] theorem setSen_pwr (f : SenSt → SenSt) : (s.setSen f).pwr = s.pwr := (rfl)
@[simp] theorem setSen_bus (f : SenSt → SenSt) : (s.setSen f).bus = s.bus := (rfl)
@[simp] theorem setSen_spi (f : SenSt → SenSt) : (s.setSen f).spi = s.spi := (rfl)
@[simp] theorem setSen_seqs (f : SenSt → SenSt) : (s.setSen f).seqs = s.seqs := (rfl)
@[simp] theorem setSen_pending (f : SenSt → SenSt) : (s.setSen f).pending = s.pending := (rfl)
@[simp] theorem setSen_reg (f : SenSt → SenSt) (j : Nat) : (s.setSen f).reg j = s.reg j := (rfl)
@[simp] theorem setSen_get (f : SenSt → SenSt) (r : Nat) (x : Fld) : (s.setSen f).get r x = s.get r x := (rfl)
@[simp] theorem setSen_on (f : SenSt → SenSt) (r : Nat) (x : Fld) : (s.setSen f).on r x = s.on r x := (rfl)
@[simp] theorem setSen_getI (f : SenSt → SenSt) (r : Nat) (x : Fld) : (s.setSen f).getI r x = s.getI r x := (rfl)

/-! ## setHrd -/

@[simp] theorem setHrd_variant (f : HrdSt → HrdSt) : (s.setHrd f).variant = s.variant := (rfl)
@[simp] theorem setHrd_regs (f : HrdSt → HrdSt) : (s.setHrd f).regs = s.regs := (rfl)
@[simp] theorem setHrd_ltc (f : HrdSt → HrdSt) : (s.setHrd f).ltc = s.ltc := (rfl)
@[simp] theorem setHrd_free (f : HrdSt → HrdSt) : (s.setHrd f).free = s.free := (rfl)
@[simp] theorem setHrd_hostMem (f : HrdSt → HrdSt) : (s.setHrd f).hostMem = s.hostMem := (rfl)
@[simp] theorem setHrd_host (f : HrdSt → HrdSt) : (s.setHrd f).host = s.host := (rfl)
@[simp] theorem setHrd_wd (f : HrdSt → HrdSt) : (s.setHrd f).wd = s.wd := (rfl)
@[simp] theorem setHrd_prism (f : HrdSt → HrdSt) : (s.setHrd f).prism = s.prism := (rfl)
@[simp] theorem setHrd_ens (f : HrdSt → HrdSt) : (s.setHrd f).ens = s.ens := (rfl)
@[simp] theorem setHrd_tmp (f : HrdSt → HrdSt) : (s.setHrd f).tmp = s.tmp := (rfl)
@[simp] theorem setHrd_mil (f : HrdSt → HrdSt) : (s.setHrd f).mil = s.mil := (rfl)
@[simp] theorem setHrd_milBak (f : HrdSt → HrdSt) : (s.setHrd f).milBak = s.milBak := (rfl)
@[simp] theorem setHrd_hearth (f : HrdSt → HrdSt) : (s.setHrd f).hearth = s.hearth := (rfl)
@[simp] theorem setHrd_gran (f : HrdSt → HrdSt) : (s.setHrd f).gran = s.gran := (rfl)
@[simp] theorem setHrd_loom (f : HrdSt → HrdSt) : (s.setHrd f).loom = s.loom := (rfl)
@[simp] theorem setHrd_out (f : HrdSt → HrdSt) : (s.setHrd f).out = s.out := (rfl)
@[simp] theorem setHrd_bridge (f : HrdSt → HrdSt) : (s.setHrd f).bridge = s.bridge := (rfl)
@[simp] theorem setHrd_tcd (f : HrdSt → HrdSt) : (s.setHrd f).tcd = s.tcd := (rfl)
@[simp] theorem setHrd_lens (f : HrdSt → HrdSt) : (s.setHrd f).lens = s.lens := (rfl)
@[simp] theorem setHrd_tally (f : HrdSt → HrdSt) : (s.setHrd f).tally = s.tally := (rfl)
@[simp] theorem setHrd_hrd (f : HrdSt → HrdSt) : (s.setHrd f).hrd = f s.hrd := (rfl)
@[simp] theorem setHrd_plk (f : HrdSt → HrdSt) : (s.setHrd f).plk = s.plk := (rfl)
@[simp] theorem setHrd_mir (f : HrdSt → HrdSt) : (s.setHrd f).mir = s.mir := (rfl)
@[simp] theorem setHrd_pwr (f : HrdSt → HrdSt) : (s.setHrd f).pwr = s.pwr := (rfl)
@[simp] theorem setHrd_bus (f : HrdSt → HrdSt) : (s.setHrd f).bus = s.bus := (rfl)
@[simp] theorem setHrd_spi (f : HrdSt → HrdSt) : (s.setHrd f).spi = s.spi := (rfl)
@[simp] theorem setHrd_seqs (f : HrdSt → HrdSt) : (s.setHrd f).seqs = s.seqs := (rfl)
@[simp] theorem setHrd_pending (f : HrdSt → HrdSt) : (s.setHrd f).pending = s.pending := (rfl)
@[simp] theorem setHrd_reg (f : HrdSt → HrdSt) (j : Nat) : (s.setHrd f).reg j = s.reg j := (rfl)
@[simp] theorem setHrd_get (f : HrdSt → HrdSt) (r : Nat) (x : Fld) : (s.setHrd f).get r x = s.get r x := (rfl)
@[simp] theorem setHrd_on (f : HrdSt → HrdSt) (r : Nat) (x : Fld) : (s.setHrd f).on r x = s.on r x := (rfl)
@[simp] theorem setHrd_getI (f : HrdSt → HrdSt) (r : Nat) (x : Fld) : (s.setHrd f).getI r x = s.getI r x := (rfl)

/-! ## setPi -/

@[simp] theorem setPi_variant (k : Nat) (f : PiSt → PiSt) : (s.setPi k f).variant = s.variant := (rfl)
@[simp] theorem setPi_regs (k : Nat) (f : PiSt → PiSt) : (s.setPi k f).regs = s.regs := (rfl)
@[simp] theorem setPi_ltc (k : Nat) (f : PiSt → PiSt) : (s.setPi k f).ltc = s.ltc := (rfl)
@[simp] theorem setPi_free (k : Nat) (f : PiSt → PiSt) : (s.setPi k f).free = s.free := (rfl)
@[simp] theorem setPi_hostMem (k : Nat) (f : PiSt → PiSt) : (s.setPi k f).hostMem = s.hostMem := (rfl)
@[simp] theorem setPi_host (k : Nat) (f : PiSt → PiSt) : (s.setPi k f).host = s.host := (rfl)
@[simp] theorem setPi_wd (k : Nat) (f : PiSt → PiSt) : (s.setPi k f).wd = s.wd := (rfl)
@[simp] theorem setPi_prism (k : Nat) (f : PiSt → PiSt) : (s.setPi k f).prism = s.prism := (rfl)
@[simp] theorem setPi_ens (k : Nat) (f : PiSt → PiSt) : (s.setPi k f).ens = s.ens := (rfl)
@[simp] theorem setPi_tmp (k : Nat) (f : PiSt → PiSt) : (s.setPi k f).tmp = s.tmp := (rfl)
@[simp] theorem setPi_mil (k : Nat) (f : PiSt → PiSt) : (s.setPi k f).mil = s.mil := (rfl)
@[simp] theorem setPi_milBak (k : Nat) (f : PiSt → PiSt) : (s.setPi k f).milBak = s.milBak := (rfl)
@[simp] theorem setPi_hearth (k : Nat) (f : PiSt → PiSt) : (s.setPi k f).hearth = s.hearth := (rfl)
@[simp] theorem setPi_gran (k : Nat) (f : PiSt → PiSt) : (s.setPi k f).gran = s.gran := (rfl)
@[simp] theorem setPi_loom (k : Nat) (f : PiSt → PiSt) : (s.setPi k f).loom = s.loom := (rfl)
@[simp] theorem setPi_out (k : Nat) (f : PiSt → PiSt) : (s.setPi k f).out = s.out := (rfl)
@[simp] theorem setPi_bridge (k : Nat) (f : PiSt → PiSt) : (s.setPi k f).bridge = s.bridge := (rfl)
@[simp] theorem setPi_tcd (k : Nat) (f : PiSt → PiSt) : (s.setPi k f).tcd = s.tcd := (rfl)
@[simp] theorem setPi_lens (k : Nat) (f : PiSt → PiSt) : (s.setPi k f).lens = s.lens := (rfl)
@[simp] theorem setPi_tally (k : Nat) (f : PiSt → PiSt) : (s.setPi k f).tally = s.tally := (rfl)
@[simp] theorem setPi_plk (k : Nat) (f : PiSt → PiSt) : (s.setPi k f).plk = s.plk := (rfl)
@[simp] theorem setPi_mir (k : Nat) (f : PiSt → PiSt) : (s.setPi k f).mir = s.mir := (rfl)
@[simp] theorem setPi_pwr (k : Nat) (f : PiSt → PiSt) : (s.setPi k f).pwr = s.pwr := (rfl)
@[simp] theorem setPi_bus (k : Nat) (f : PiSt → PiSt) : (s.setPi k f).bus = s.bus := (rfl)
@[simp] theorem setPi_spi (k : Nat) (f : PiSt → PiSt) : (s.setPi k f).spi = s.spi := (rfl)
@[simp] theorem setPi_seqs (k : Nat) (f : PiSt → PiSt) : (s.setPi k f).seqs = s.seqs := (rfl)
@[simp] theorem setPi_pending (k : Nat) (f : PiSt → PiSt) : (s.setPi k f).pending = s.pending := (rfl)
@[simp] theorem setPi_reg (k : Nat) (f : PiSt → PiSt) (j : Nat) : (s.setPi k f).reg j = s.reg j := (rfl)
@[simp] theorem setPi_get (k : Nat) (f : PiSt → PiSt) (r : Nat) (x : Fld) : (s.setPi k f).get r x = s.get r x := (rfl)
@[simp] theorem setPi_on (k : Nat) (f : PiSt → PiSt) (r : Nat) (x : Fld) : (s.setPi k f).on r x = s.on r x := (rfl)
@[simp] theorem setPi_getI (k : Nat) (f : PiSt → PiSt) (r : Nat) (x : Fld) : (s.setPi k f).getI r x = s.getI r x := (rfl)

/-! ## setPiPort -/

@[simp] theorem setPiPort_variant (k p : Nat) (f : PiPort → PiPort) : (s.setPiPort k p f).variant = s.variant := (rfl)
@[simp] theorem setPiPort_regs (k p : Nat) (f : PiPort → PiPort) : (s.setPiPort k p f).regs = s.regs := (rfl)
@[simp] theorem setPiPort_ltc (k p : Nat) (f : PiPort → PiPort) : (s.setPiPort k p f).ltc = s.ltc := (rfl)
@[simp] theorem setPiPort_free (k p : Nat) (f : PiPort → PiPort) : (s.setPiPort k p f).free = s.free := (rfl)
@[simp] theorem setPiPort_hostMem (k p : Nat) (f : PiPort → PiPort) : (s.setPiPort k p f).hostMem = s.hostMem := (rfl)
@[simp] theorem setPiPort_host (k p : Nat) (f : PiPort → PiPort) : (s.setPiPort k p f).host = s.host := (rfl)
@[simp] theorem setPiPort_wd (k p : Nat) (f : PiPort → PiPort) : (s.setPiPort k p f).wd = s.wd := (rfl)
@[simp] theorem setPiPort_prism (k p : Nat) (f : PiPort → PiPort) : (s.setPiPort k p f).prism = s.prism := (rfl)
@[simp] theorem setPiPort_ens (k p : Nat) (f : PiPort → PiPort) : (s.setPiPort k p f).ens = s.ens := (rfl)
@[simp] theorem setPiPort_tmp (k p : Nat) (f : PiPort → PiPort) : (s.setPiPort k p f).tmp = s.tmp := (rfl)
@[simp] theorem setPiPort_mil (k p : Nat) (f : PiPort → PiPort) : (s.setPiPort k p f).mil = s.mil := (rfl)
@[simp] theorem setPiPort_milBak (k p : Nat) (f : PiPort → PiPort) : (s.setPiPort k p f).milBak = s.milBak := (rfl)
@[simp] theorem setPiPort_hearth (k p : Nat) (f : PiPort → PiPort) : (s.setPiPort k p f).hearth = s.hearth := (rfl)
@[simp] theorem setPiPort_gran (k p : Nat) (f : PiPort → PiPort) : (s.setPiPort k p f).gran = s.gran := (rfl)
@[simp] theorem setPiPort_loom (k p : Nat) (f : PiPort → PiPort) : (s.setPiPort k p f).loom = s.loom := (rfl)
@[simp] theorem setPiPort_out (k p : Nat) (f : PiPort → PiPort) : (s.setPiPort k p f).out = s.out := (rfl)
@[simp] theorem setPiPort_bridge (k p : Nat) (f : PiPort → PiPort) : (s.setPiPort k p f).bridge = s.bridge := (rfl)
@[simp] theorem setPiPort_tcd (k p : Nat) (f : PiPort → PiPort) : (s.setPiPort k p f).tcd = s.tcd := (rfl)
@[simp] theorem setPiPort_lens (k p : Nat) (f : PiPort → PiPort) : (s.setPiPort k p f).lens = s.lens := (rfl)
@[simp] theorem setPiPort_tally (k p : Nat) (f : PiPort → PiPort) : (s.setPiPort k p f).tally = s.tally := (rfl)
@[simp] theorem setPiPort_plk (k p : Nat) (f : PiPort → PiPort) : (s.setPiPort k p f).plk = s.plk := (rfl)
@[simp] theorem setPiPort_mir (k p : Nat) (f : PiPort → PiPort) : (s.setPiPort k p f).mir = s.mir := (rfl)
@[simp] theorem setPiPort_pwr (k p : Nat) (f : PiPort → PiPort) : (s.setPiPort k p f).pwr = s.pwr := (rfl)
@[simp] theorem setPiPort_bus (k p : Nat) (f : PiPort → PiPort) : (s.setPiPort k p f).bus = s.bus := (rfl)
@[simp] theorem setPiPort_spi (k p : Nat) (f : PiPort → PiPort) : (s.setPiPort k p f).spi = s.spi := (rfl)
@[simp] theorem setPiPort_seqs (k p : Nat) (f : PiPort → PiPort) : (s.setPiPort k p f).seqs = s.seqs := (rfl)
@[simp] theorem setPiPort_pending (k p : Nat) (f : PiPort → PiPort) : (s.setPiPort k p f).pending = s.pending := (rfl)
@[simp] theorem setPiPort_reg (k p : Nat) (f : PiPort → PiPort) (j : Nat) : (s.setPiPort k p f).reg j = s.reg j := (rfl)
@[simp] theorem setPiPort_get (k p : Nat) (f : PiPort → PiPort) (r : Nat) (x : Fld) : (s.setPiPort k p f).get r x = s.get r x := (rfl)
@[simp] theorem setPiPort_on (k p : Nat) (f : PiPort → PiPort) (r : Nat) (x : Fld) : (s.setPiPort k p f).on r x = s.on r x := (rfl)
@[simp] theorem setPiPort_getI (k p : Nat) (f : PiPort → PiPort) (r : Nat) (x : Fld) : (s.setPiPort k p f).getI r x = s.getI r x := (rfl)

/-! ## setEsmc -/

@[simp] theorem setEsmc_variant (p : Nat) (f : EsmcSt → EsmcSt) : (s.setEsmc p f).variant = s.variant := (rfl)
@[simp] theorem setEsmc_regs (p : Nat) (f : EsmcSt → EsmcSt) : (s.setEsmc p f).regs = s.regs := (rfl)
@[simp] theorem setEsmc_ltc (p : Nat) (f : EsmcSt → EsmcSt) : (s.setEsmc p f).ltc = s.ltc := (rfl)
@[simp] theorem setEsmc_free (p : Nat) (f : EsmcSt → EsmcSt) : (s.setEsmc p f).free = s.free := (rfl)
@[simp] theorem setEsmc_hostMem (p : Nat) (f : EsmcSt → EsmcSt) : (s.setEsmc p f).hostMem = s.hostMem := (rfl)
@[simp] theorem setEsmc_host (p : Nat) (f : EsmcSt → EsmcSt) : (s.setEsmc p f).host = s.host := (rfl)
@[simp] theorem setEsmc_wd (p : Nat) (f : EsmcSt → EsmcSt) : (s.setEsmc p f).wd = s.wd := (rfl)
@[simp] theorem setEsmc_prism (p : Nat) (f : EsmcSt → EsmcSt) : (s.setEsmc p f).prism = s.prism := (rfl)
@[simp] theorem setEsmc_ens (p : Nat) (f : EsmcSt → EsmcSt) : (s.setEsmc p f).ens = s.ens := (rfl)
@[simp] theorem setEsmc_tmp (p : Nat) (f : EsmcSt → EsmcSt) : (s.setEsmc p f).tmp = s.tmp := (rfl)
@[simp] theorem setEsmc_mil (p : Nat) (f : EsmcSt → EsmcSt) : (s.setEsmc p f).mil = s.mil := (rfl)
@[simp] theorem setEsmc_milBak (p : Nat) (f : EsmcSt → EsmcSt) : (s.setEsmc p f).milBak = s.milBak := (rfl)
@[simp] theorem setEsmc_hearth (p : Nat) (f : EsmcSt → EsmcSt) : (s.setEsmc p f).hearth = s.hearth := (rfl)
@[simp] theorem setEsmc_gran (p : Nat) (f : EsmcSt → EsmcSt) : (s.setEsmc p f).gran = s.gran := (rfl)
@[simp] theorem setEsmc_loom (p : Nat) (f : EsmcSt → EsmcSt) : (s.setEsmc p f).loom = s.loom := (rfl)
@[simp] theorem setEsmc_out (p : Nat) (f : EsmcSt → EsmcSt) : (s.setEsmc p f).out = s.out := (rfl)
@[simp] theorem setEsmc_bridge (p : Nat) (f : EsmcSt → EsmcSt) : (s.setEsmc p f).bridge = s.bridge := (rfl)
@[simp] theorem setEsmc_tcd (p : Nat) (f : EsmcSt → EsmcSt) : (s.setEsmc p f).tcd = s.tcd := (rfl)
@[simp] theorem setEsmc_lens (p : Nat) (f : EsmcSt → EsmcSt) : (s.setEsmc p f).lens = s.lens := (rfl)
@[simp] theorem setEsmc_tally (p : Nat) (f : EsmcSt → EsmcSt) : (s.setEsmc p f).tally = s.tally := (rfl)
@[simp] theorem setEsmc_plk (p : Nat) (f : EsmcSt → EsmcSt) : (s.setEsmc p f).plk = s.plk := (rfl)
@[simp] theorem setEsmc_mir (p : Nat) (f : EsmcSt → EsmcSt) : (s.setEsmc p f).mir = s.mir := (rfl)
@[simp] theorem setEsmc_pwr (p : Nat) (f : EsmcSt → EsmcSt) : (s.setEsmc p f).pwr = s.pwr := (rfl)
@[simp] theorem setEsmc_bus (p : Nat) (f : EsmcSt → EsmcSt) : (s.setEsmc p f).bus = s.bus := (rfl)
@[simp] theorem setEsmc_spi (p : Nat) (f : EsmcSt → EsmcSt) : (s.setEsmc p f).spi = s.spi := (rfl)
@[simp] theorem setEsmc_seqs (p : Nat) (f : EsmcSt → EsmcSt) : (s.setEsmc p f).seqs = s.seqs := (rfl)
@[simp] theorem setEsmc_pending (p : Nat) (f : EsmcSt → EsmcSt) : (s.setEsmc p f).pending = s.pending := (rfl)
@[simp] theorem setEsmc_reg (p : Nat) (f : EsmcSt → EsmcSt) (j : Nat) : (s.setEsmc p f).reg j = s.reg j := (rfl)
@[simp] theorem setEsmc_get (p : Nat) (f : EsmcSt → EsmcSt) (r : Nat) (x : Fld) : (s.setEsmc p f).get r x = s.get r x := (rfl)
@[simp] theorem setEsmc_on (p : Nat) (f : EsmcSt → EsmcSt) (r : Nat) (x : Fld) : (s.setEsmc p f).on r x = s.on r x := (rfl)
@[simp] theorem setEsmc_getI (p : Nat) (f : EsmcSt → EsmcSt) (r : Nat) (x : Fld) : (s.setEsmc p f).getI r x = s.getI r x := (rfl)

/-! ## setPlk -/

@[simp] theorem setPlk_variant (p : Nat) (f : PlkPort → PlkPort) : (s.setPlk p f).variant = s.variant := (rfl)
@[simp] theorem setPlk_regs (p : Nat) (f : PlkPort → PlkPort) : (s.setPlk p f).regs = s.regs := (rfl)
@[simp] theorem setPlk_ltc (p : Nat) (f : PlkPort → PlkPort) : (s.setPlk p f).ltc = s.ltc := (rfl)
@[simp] theorem setPlk_free (p : Nat) (f : PlkPort → PlkPort) : (s.setPlk p f).free = s.free := (rfl)
@[simp] theorem setPlk_hostMem (p : Nat) (f : PlkPort → PlkPort) : (s.setPlk p f).hostMem = s.hostMem := (rfl)
@[simp] theorem setPlk_host (p : Nat) (f : PlkPort → PlkPort) : (s.setPlk p f).host = s.host := (rfl)
@[simp] theorem setPlk_wd (p : Nat) (f : PlkPort → PlkPort) : (s.setPlk p f).wd = s.wd := (rfl)
@[simp] theorem setPlk_prism (p : Nat) (f : PlkPort → PlkPort) : (s.setPlk p f).prism = s.prism := (rfl)
@[simp] theorem setPlk_ens (p : Nat) (f : PlkPort → PlkPort) : (s.setPlk p f).ens = s.ens := (rfl)
@[simp] theorem setPlk_tmp (p : Nat) (f : PlkPort → PlkPort) : (s.setPlk p f).tmp = s.tmp := (rfl)
@[simp] theorem setPlk_mil (p : Nat) (f : PlkPort → PlkPort) : (s.setPlk p f).mil = s.mil := (rfl)
@[simp] theorem setPlk_milBak (p : Nat) (f : PlkPort → PlkPort) : (s.setPlk p f).milBak = s.milBak := (rfl)
@[simp] theorem setPlk_hearth (p : Nat) (f : PlkPort → PlkPort) : (s.setPlk p f).hearth = s.hearth := (rfl)
@[simp] theorem setPlk_gran (p : Nat) (f : PlkPort → PlkPort) : (s.setPlk p f).gran = s.gran := (rfl)
@[simp] theorem setPlk_loom (p : Nat) (f : PlkPort → PlkPort) : (s.setPlk p f).loom = s.loom := (rfl)
@[simp] theorem setPlk_out (p : Nat) (f : PlkPort → PlkPort) : (s.setPlk p f).out = s.out := (rfl)
@[simp] theorem setPlk_bridge (p : Nat) (f : PlkPort → PlkPort) : (s.setPlk p f).bridge = s.bridge := (rfl)
@[simp] theorem setPlk_tcd (p : Nat) (f : PlkPort → PlkPort) : (s.setPlk p f).tcd = s.tcd := (rfl)
@[simp] theorem setPlk_lens (p : Nat) (f : PlkPort → PlkPort) : (s.setPlk p f).lens = s.lens := (rfl)
@[simp] theorem setPlk_tally (p : Nat) (f : PlkPort → PlkPort) : (s.setPlk p f).tally = s.tally := (rfl)
@[simp] theorem setPlk_hrd (p : Nat) (f : PlkPort → PlkPort) : (s.setPlk p f).hrd = s.hrd := (rfl)
@[simp] theorem setPlk_mir (p : Nat) (f : PlkPort → PlkPort) : (s.setPlk p f).mir = s.mir := (rfl)
@[simp] theorem setPlk_pwr (p : Nat) (f : PlkPort → PlkPort) : (s.setPlk p f).pwr = s.pwr := (rfl)
@[simp] theorem setPlk_bus (p : Nat) (f : PlkPort → PlkPort) : (s.setPlk p f).bus = s.bus := (rfl)
@[simp] theorem setPlk_spi (p : Nat) (f : PlkPort → PlkPort) : (s.setPlk p f).spi = s.spi := (rfl)
@[simp] theorem setPlk_seqs (p : Nat) (f : PlkPort → PlkPort) : (s.setPlk p f).seqs = s.seqs := (rfl)
@[simp] theorem setPlk_pending (p : Nat) (f : PlkPort → PlkPort) : (s.setPlk p f).pending = s.pending := (rfl)
@[simp] theorem setPlk_reg (p : Nat) (f : PlkPort → PlkPort) (j : Nat) : (s.setPlk p f).reg j = s.reg j := (rfl)
@[simp] theorem setPlk_get (p : Nat) (f : PlkPort → PlkPort) (r : Nat) (x : Fld) : (s.setPlk p f).get r x = s.get r x := (rfl)
@[simp] theorem setPlk_on (p : Nat) (f : PlkPort → PlkPort) (r : Nat) (x : Fld) : (s.setPlk p f).on r x = s.on r x := (rfl)
@[simp] theorem setPlk_getI (p : Nat) (f : PlkPort → PlkPort) (r : Nat) (x : Fld) : (s.setPlk p f).getI r x = s.getI r x := (rfl)

/-! ## setMir -/

@[simp] theorem setMir_variant (f : MirSt → MirSt) : (s.setMir f).variant = s.variant := (rfl)
@[simp] theorem setMir_regs (f : MirSt → MirSt) : (s.setMir f).regs = s.regs := (rfl)
@[simp] theorem setMir_ltc (f : MirSt → MirSt) : (s.setMir f).ltc = s.ltc := (rfl)
@[simp] theorem setMir_free (f : MirSt → MirSt) : (s.setMir f).free = s.free := (rfl)
@[simp] theorem setMir_hostMem (f : MirSt → MirSt) : (s.setMir f).hostMem = s.hostMem := (rfl)
@[simp] theorem setMir_host (f : MirSt → MirSt) : (s.setMir f).host = s.host := (rfl)
@[simp] theorem setMir_wd (f : MirSt → MirSt) : (s.setMir f).wd = s.wd := (rfl)
@[simp] theorem setMir_prism (f : MirSt → MirSt) : (s.setMir f).prism = s.prism := (rfl)
@[simp] theorem setMir_ens (f : MirSt → MirSt) : (s.setMir f).ens = s.ens := (rfl)
@[simp] theorem setMir_tmp (f : MirSt → MirSt) : (s.setMir f).tmp = s.tmp := (rfl)
@[simp] theorem setMir_mil (f : MirSt → MirSt) : (s.setMir f).mil = s.mil := (rfl)
@[simp] theorem setMir_milBak (f : MirSt → MirSt) : (s.setMir f).milBak = s.milBak := (rfl)
@[simp] theorem setMir_hearth (f : MirSt → MirSt) : (s.setMir f).hearth = s.hearth := (rfl)
@[simp] theorem setMir_gran (f : MirSt → MirSt) : (s.setMir f).gran = s.gran := (rfl)
@[simp] theorem setMir_loom (f : MirSt → MirSt) : (s.setMir f).loom = s.loom := (rfl)
@[simp] theorem setMir_out (f : MirSt → MirSt) : (s.setMir f).out = s.out := (rfl)
@[simp] theorem setMir_bridge (f : MirSt → MirSt) : (s.setMir f).bridge = s.bridge := (rfl)
@[simp] theorem setMir_tcd (f : MirSt → MirSt) : (s.setMir f).tcd = s.tcd := (rfl)
@[simp] theorem setMir_lens (f : MirSt → MirSt) : (s.setMir f).lens = s.lens := (rfl)
@[simp] theorem setMir_tally (f : MirSt → MirSt) : (s.setMir f).tally = s.tally := (rfl)
@[simp] theorem setMir_hrd (f : MirSt → MirSt) : (s.setMir f).hrd = s.hrd := (rfl)
@[simp] theorem setMir_plk (f : MirSt → MirSt) : (s.setMir f).plk = s.plk := (rfl)
@[simp] theorem setMir_mir (f : MirSt → MirSt) : (s.setMir f).mir = f s.mir := (rfl)
@[simp] theorem setMir_pwr (f : MirSt → MirSt) : (s.setMir f).pwr = s.pwr := (rfl)
@[simp] theorem setMir_bus (f : MirSt → MirSt) : (s.setMir f).bus = s.bus := (rfl)
@[simp] theorem setMir_spi (f : MirSt → MirSt) : (s.setMir f).spi = s.spi := (rfl)
@[simp] theorem setMir_seqs (f : MirSt → MirSt) : (s.setMir f).seqs = s.seqs := (rfl)
@[simp] theorem setMir_pending (f : MirSt → MirSt) : (s.setMir f).pending = s.pending := (rfl)
@[simp] theorem setMir_reg (f : MirSt → MirSt) (j : Nat) : (s.setMir f).reg j = s.reg j := (rfl)
@[simp] theorem setMir_get (f : MirSt → MirSt) (r : Nat) (x : Fld) : (s.setMir f).get r x = s.get r x := (rfl)
@[simp] theorem setMir_on (f : MirSt → MirSt) (r : Nat) (x : Fld) : (s.setMir f).on r x = s.on r x := (rfl)
@[simp] theorem setMir_getI (f : MirSt → MirSt) (r : Nat) (x : Fld) : (s.setMir f).getI r x = s.getI r x := (rfl)

/-! ## setPwr -/

@[simp] theorem setPwr_variant (f : PwrSt → PwrSt) : (s.setPwr f).variant = s.variant := (rfl)
@[simp] theorem setPwr_regs (f : PwrSt → PwrSt) : (s.setPwr f).regs = s.regs := (rfl)
@[simp] theorem setPwr_ltc (f : PwrSt → PwrSt) : (s.setPwr f).ltc = s.ltc := (rfl)
@[simp] theorem setPwr_free (f : PwrSt → PwrSt) : (s.setPwr f).free = s.free := (rfl)
@[simp] theorem setPwr_hostMem (f : PwrSt → PwrSt) : (s.setPwr f).hostMem = s.hostMem := (rfl)
@[simp] theorem setPwr_host (f : PwrSt → PwrSt) : (s.setPwr f).host = s.host := (rfl)
@[simp] theorem setPwr_wd (f : PwrSt → PwrSt) : (s.setPwr f).wd = s.wd := (rfl)
@[simp] theorem setPwr_prism (f : PwrSt → PwrSt) : (s.setPwr f).prism = s.prism := (rfl)
@[simp] theorem setPwr_ens (f : PwrSt → PwrSt) : (s.setPwr f).ens = s.ens := (rfl)
@[simp] theorem setPwr_tmp (f : PwrSt → PwrSt) : (s.setPwr f).tmp = s.tmp := (rfl)
@[simp] theorem setPwr_mil (f : PwrSt → PwrSt) : (s.setPwr f).mil = s.mil := (rfl)
@[simp] theorem setPwr_milBak (f : PwrSt → PwrSt) : (s.setPwr f).milBak = s.milBak := (rfl)
@[simp] theorem setPwr_hearth (f : PwrSt → PwrSt) : (s.setPwr f).hearth = s.hearth := (rfl)
@[simp] theorem setPwr_gran (f : PwrSt → PwrSt) : (s.setPwr f).gran = s.gran := (rfl)
@[simp] theorem setPwr_loom (f : PwrSt → PwrSt) : (s.setPwr f).loom = s.loom := (rfl)
@[simp] theorem setPwr_out (f : PwrSt → PwrSt) : (s.setPwr f).out = s.out := (rfl)
@[simp] theorem setPwr_bridge (f : PwrSt → PwrSt) : (s.setPwr f).bridge = s.bridge := (rfl)
@[simp] theorem setPwr_tcd (f : PwrSt → PwrSt) : (s.setPwr f).tcd = s.tcd := (rfl)
@[simp] theorem setPwr_lens (f : PwrSt → PwrSt) : (s.setPwr f).lens = s.lens := (rfl)
@[simp] theorem setPwr_tally (f : PwrSt → PwrSt) : (s.setPwr f).tally = s.tally := (rfl)
@[simp] theorem setPwr_hrd (f : PwrSt → PwrSt) : (s.setPwr f).hrd = s.hrd := (rfl)
@[simp] theorem setPwr_plk (f : PwrSt → PwrSt) : (s.setPwr f).plk = s.plk := (rfl)
@[simp] theorem setPwr_mir (f : PwrSt → PwrSt) : (s.setPwr f).mir = s.mir := (rfl)
@[simp] theorem setPwr_pwr (f : PwrSt → PwrSt) : (s.setPwr f).pwr = f s.pwr := (rfl)
@[simp] theorem setPwr_bus (f : PwrSt → PwrSt) : (s.setPwr f).bus = s.bus := (rfl)
@[simp] theorem setPwr_spi (f : PwrSt → PwrSt) : (s.setPwr f).spi = s.spi := (rfl)
@[simp] theorem setPwr_seqs (f : PwrSt → PwrSt) : (s.setPwr f).seqs = s.seqs := (rfl)
@[simp] theorem setPwr_pending (f : PwrSt → PwrSt) : (s.setPwr f).pending = s.pending := (rfl)
@[simp] theorem setPwr_reg (f : PwrSt → PwrSt) (j : Nat) : (s.setPwr f).reg j = s.reg j := (rfl)
@[simp] theorem setPwr_get (f : PwrSt → PwrSt) (r : Nat) (x : Fld) : (s.setPwr f).get r x = s.get r x := (rfl)
@[simp] theorem setPwr_on (f : PwrSt → PwrSt) (r : Nat) (x : Fld) : (s.setPwr f).on r x = s.on r x := (rfl)
@[simp] theorem setPwr_getI (f : PwrSt → PwrSt) (r : Nat) (x : Fld) : (s.setPwr f).getI r x = s.getI r x := (rfl)

end State

end Sys2Proof.Machine
end

