-- ==== Sys2Proof/Laws/Word.lean ====
section
/-! SUPPORT. Laws of the sparse lists and of the bit fields: what a read gives after a write, and that a write keeps the
canonical form. -/

namespace Sys2Proof

variable {α : Type}

/-! ## Sparse lists -/

theorem memSorted_cons_iff (a : Nat) (v : α) (m : List (Nat × α)) :
    memSorted ((a, v) :: m) = true ↔ (∀ e ∈ m.head?, a < e.1) ∧ memSorted m = true := by
  cases m with
  | nil => simp [memSorted]
  | cons e r => obtain ⟨b, w⟩ := e; simp [memSorted]

/-- A rising list is strictly rising pairwise. -/
theorem memSorted_iff_pairwise (m : List (Nat × α)) : memSorted m = true ↔ m.Pairwise (fun x y => x.1 < y.1) := by
  induction m with
  | nil => simp [memSorted]
  | cons e r ih =>
    obtain ⟨a, v⟩ := e
    rw [memSorted_cons_iff, ih, List.pairwise_cons]
    constructor
    · rintro ⟨h, hr⟩
      refine ⟨fun x hx => ?_, hr⟩
      cases r with
      | nil => simp at hx
      | cons y t =>
        have hy : a < y.1 := h y (by simp)
        rcases List.mem_cons.1 hx with rfl | hx
        · exact hy
        · exact hy.trans ((List.pairwise_cons.1 hr).1 x hx)
    · rintro ⟨h, hr⟩
      exact ⟨fun x hx => h x (List.mem_of_mem_head? hx), hr⟩

theorem memDel_sorted {m : List (Nat × α)} (k : Nat) (h : memSorted m = true) : memSorted (memDel m k) = true := by
  rw [memSorted_iff_pairwise] at h ⊢
  exact h.filter _

theorem memIns_mem {m : List (Nat × α)} {k : Nat} {x : α} {e : Nat × α} (h : e ∈ memIns m k x) : e = (k, x) ∨ e ∈ m := by
  induction m with
  | nil => simpa [memIns] using h
  | cons y r ih =>
    obtain ⟨a, v⟩ := y
    simp only [memIns] at h
    split at h
    · rcases List.mem_cons.1 h with h | h
      · exact .inr (by simp [h])
      · exact (ih h).imp_right (List.mem_cons_of_mem _)
    · split at h
      · exact (List.mem_cons.1 h).imp_right (List.mem_cons_of_mem _)
      · exact List.mem_cons.1 h

theorem memIns_sorted {m : List (Nat × α)} (k : Nat) (x : α) (h : memSorted m = true) : memSorted (memIns m k x) = true := by
  rw [memSorted_iff_pairwise] at h ⊢
  induction m with
  | nil => simp [memIns]
  | cons y r ih =>
    obtain ⟨a, v⟩ := y
    obtain ⟨ha, hr⟩ := List.pairwise_cons.1 h
    simp only [memIns]
    split
    · rename_i hk
      refine List.pairwise_cons.2 ⟨fun e he => ?_, ih hr⟩
      rcases memIns_mem he with rfl | he
      · exact hk
      · exact ha e he
    · split
      · rename_i hk
        have : a = k := by simpa using hk
        exact List.pairwise_cons.2 ⟨fun e he => this ▸ ha e he, hr⟩
      · rename_i hk hk'
        have hlt : k < a := by
          have : a ≠ k := by simpa using hk'
          omega
        refine List.pairwise_cons.2 ⟨fun e he => ?_, h⟩
        rcases List.mem_cons.1 he with rfl | he
        · exact hlt
        · exact hlt.trans (ha e he)

/-- A write keeps the canonical form. -/
theorem memPut_wf [DecidableEq α] {dflt : Nat → Option α} {m : List (Nat × α)} (k : Nat) (x : α)
    (h : memWf dflt m = true) : memWf dflt (memPut dflt m k x) = true := by
  simp only [memWf, Bool.and_eq_true, List.all_eq_true, decide_eq_true_eq] at h ⊢
  unfold memPut
  split
  · exact ⟨memDel_sorted k h.1, fun e he => h.2 e (List.mem_filter.1 he).1⟩
  · rename_i hd
    refine ⟨memIns_sorted k x h.1, fun e he => ?_⟩
    rcases memIns_mem he with rfl | he
    · exact hd
    · exact h.2 e he

theorem memGet_memDel_same {dflt : Nat → Option α} (m : List (Nat × α)) (k : Nat) : memGet dflt (memDel m k) k = dflt k := by
  induction m with
  | nil => simp [memDel, memGet]
  | cons y r ih =>
    obtain ⟨a, v⟩ := y
    by_cases h : a = k
    · simpa [memDel, h] using ih
    · simpa [memDel, h, memGet] using ih

theorem memGet_memDel_ne {dflt : Nat → Option α} (m : List (Nat × α)) {k j : Nat} (hj : j ≠ k) :
    memGet dflt (memDel m k) j = memGet dflt m j := by
  induction m with
  | nil => simp [memDel, memGet]
  | cons y r ih =>
    obtain ⟨a, v⟩ := y
    have ih' : memGet dflt (r.filter (fun e => e.1 != k)) j = memGet dflt r j := ih
    by_cases h : a = k
    · subst h
      have : ¬ a = j := fun e => hj e.symm
      simp [memDel, memGet, this, ih']
    · simp [memDel, h, memGet, ih']

theorem memGet_memIns_same {dflt : Nat → Option α} (m : List (Nat × α)) (k : Nat) (x : α) :
    memGet dflt (memIns m k x) k = some x := by
  induction m with
  | nil => simp [memIns, memGet]
  | cons y r ih =>
    obtain ⟨a, v⟩ := y
    simp only [memIns]
    split
    · rename_i h
      have : ¬ a = k := by omega
      simp [memGet, this, ih]
    · split <;> simp [memGet]

theorem memGet_memIns_ne {dflt : Nat → Option α} (m : List (Nat × α)) {k j : Nat} (x : α) (hj : j ≠ k) :
    memGet dflt (memIns m k x) j = memGet dflt m j := by
  have hk : ¬ k = j := fun e => hj e.symm
  induction m with
  | nil => simp [memIns, memGet, hk]
  | cons y r ih =>
    obtain ⟨a, v⟩ := y
    simp only [memIns]
    split
    · by_cases h : a = j <;> simp [memGet, h, ih]
    · split
      · rename_i h
        have : a = k := by simpa using h
        subst this
        simp [memGet, hk]
      · simp [memGet, hk]

/-- A read of what was written gives the value. -/
@[simp] theorem memGet_memPut_same [DecidableEq α] {dflt : Nat → Option α} (m : List (Nat × α)) (k : Nat) (x : α) :
    memGet dflt (memPut dflt m k x) k = some x := by
  unfold memPut
  split
  · rename_i h; rw [memGet_memDel_same, h]
  · exact memGet_memIns_same m k x

/-- A write leaves every other address alone. -/
theorem memGet_memPut_ne [DecidableEq α] {dflt : Nat → Option α} (m : List (Nat × α)) {k j : Nat} (x : α) (hj : j ≠ k) :
    memGet dflt (memPut dflt m k x) j = memGet dflt m j := by
  unfold memPut
  split
  · exact memGet_memDel_ne m hj
  · exact memGet_memIns_ne m x hj

/-! ## Bit fields -/

theorem bitsOf_lt (v lo width : Nat) : bitsOf v lo width < 2 ^ width := Nat.mod_lt _ (Nat.two_pow_pos _)

/-- The field just written holds the low bits of the value. -/
theorem bitsOf_putBits_same (v lo width x : Nat) : bitsOf (putBits v lo width x) lo width = x % 2 ^ width := by
  unfold bitsOf putBits
  have hp := Nat.two_pow_pos lo
  have h1 : v % 2 ^ lo + x % 2 ^ width * 2 ^ lo + v / 2 ^ (lo + width) * 2 ^ (lo + width)
      = v % 2 ^ lo + 2 ^ lo * (x % 2 ^ width + 2 ^ width * (v / 2 ^ (lo + width))) := by
    rw [Nat.pow_add]; ring
  rw [h1, Nat.add_mul_div_left _ _ hp, Nat.div_eq_of_lt (Nat.mod_lt _ hp), Nat.zero_add, Nat.add_mul_mod_self_left, Nat.mod_mod]

/-- Bit `i` of a word with a field replaced. -/
theorem testBit_putBits (v lo width x i : Nat) :
    (putBits v lo width x).testBit i = if lo ≤ i ∧ i < lo + width then x.testBit (i - lo) else v.testBit i := by
  have h1 : putBits v lo width x = 2 ^ lo * (2 ^ width * (v / 2 ^ (lo + width)) + x % 2 ^ width) + v % 2 ^ lo := by
    unfold putBits; rw [Nat.pow_add]; ring
  rw [h1, Nat.testBit_two_pow_mul_add _ (Nat.mod_lt _ (Nat.two_pow_pos lo))]
  by_cases hlo : i < lo
  · have : ¬ (lo ≤ i ∧ i < lo + width) := by omega
    simp [hlo, this, Nat.testBit_mod_two_pow]
  · rw [if_neg hlo, Nat.testBit_two_pow_mul_add _ (Nat.mod_lt _ (Nat.two_pow_pos width))]
    by_cases hw : i - lo < width
    · have : lo ≤ i ∧ i < lo + width := by omega
      simp [hw, this, Nat.testBit_mod_two_pow]
    · have : ¬ (lo ≤ i ∧ i < lo + width) := by omega
      rw [if_neg hw, if_neg this, Nat.testBit_div_two_pow]
      congr 1; omega

theorem testBit_bitsOf (v lo width i : Nat) : (bitsOf v lo width).testBit i = (decide (i < width) && v.testBit (lo + i)) := by
  unfold bitsOf
  rw [Nat.testBit_mod_two_pow, Nat.testBit_div_two_pow, Nat.add_comm]

/-- Another field of the word keeps its value. -/
theorem bitsOf_putBits_ne (v lo width x lo' width' : Nat) (h : lo' + width' ≤ lo ∨ lo + width ≤ lo') :
    bitsOf (putBits v lo width x) lo' width' = bitsOf v lo' width' := by
  apply Nat.eq_of_testBit_eq
  intro i
  rw [testBit_bitsOf, testBit_bitsOf, testBit_putBits]
  by_cases hi : i < width'
  · have : ¬ (lo ≤ lo' + i ∧ lo' + i < lo + width) := by omega
    simp [this]
  · simp [hi]

/-- A field replaced inside a word of `n` bits stays inside it. -/
theorem putBits_lt {v lo width x n : Nat} (hv : v < 2 ^ n) (h : lo + width ≤ n) : putBits v lo width x < 2 ^ n := by
  apply Nat.lt_pow_two_of_testBit
  intro i hi
  rw [testBit_putBits]
  have : ¬ (lo ≤ i ∧ i < lo + width) := by omega
  rw [if_neg this]
  exact Nat.testBit_lt_two_pow (lt_of_lt_of_le hv (Nat.pow_le_pow_right (by omega) hi))

end Sys2Proof
end

