-- ==== Sys2Proof/Laws/Regs.lean ====
section
/-! SUPPORT. The laws of the register file: what a register and a field hold after a write of a register or a field. -/

namespace Sys2Proof.Machine

namespace State

variable (s : State)

/-! ## Registers -/

@[simp] theorem reg_setReg_same (k : Nat) (v : Word) : (s.setReg k v).reg k = v := by
  simp [State.reg, State.setReg]

theorem reg_setReg_ne {k j : Nat} (v : Word) (h : j ≠ k) : (s.setReg k v).reg j = s.reg j := by
  simp only [State.reg, State.setReg]
  rw [memGet_memPut_ne _ _ h]

theorem reg_setReg (k j : Nat) (v : Word) : (s.setReg k v).reg j = if j = k then v else s.reg j := by
  by_cases h : j = k
  · subst h; simp
  · rw [reg_setReg_ne s v h, if_neg h]

theorem reg_lt (k : Nat) : (s.reg k).toNat < 2 ^ 32 := (s.reg k).isLt

/-! ## Fields -/

theorem get_lt (b : Nat) (f : Fld) : s.get b f < 2 ^ f.width := bitsOf_lt _ _ _

theorem reg_put_same (b : Nat) (f : Fld) (v : Nat) :
    (s.put b f v).reg (b + f.idx) = BitVec.ofNat 32 (putBits (s.reg (b + f.idx)).toNat f.lo f.width v) := by
  simp [State.put]

theorem reg_put_ne (b : Nat) (f : Fld) (v : Nat) {k : Nat} (h : k ≠ b + f.idx) : (s.put b f v).reg k = s.reg k :=
  reg_setReg_ne s _ h

theorem reg_put_toNat (b : Nat) (f : Fld) (v : Nat) (h : f.lo + f.width ≤ 32) :
    ((s.put b f v).reg (b + f.idx)).toNat = putBits (s.reg (b + f.idx)).toNat f.lo f.width v := by
  rw [reg_put_same, BitVec.toNat_ofNat, Nat.mod_eq_of_lt (putBits_lt (s.reg_lt _) h)]

/-- A field just written holds the value, cut to its width. -/
theorem get_put_same (b : Nat) (f : Fld) (v : Nat) (h : f.lo + f.width ≤ 32) : (s.put b f v).get b f = v % 2 ^ f.width := by
  rw [State.get, reg_put_toNat s b f v h, bitsOf_putBits_same]

/-- A field of another register does not see the write. -/
theorem get_put_reg (b c : Nat) (f g : Fld) (v : Nat) (h : c + g.idx ≠ b + f.idx) : (s.put b f v).get c g = s.get c g := by
  rw [State.get, State.get, reg_put_ne s b f v h]

/-- A field of the same register that shares no bit with the written one does not see the write. -/
theorem get_put_bits (b c : Nat) (f g : Fld) (v : Nat) (hk : c + g.idx = b + f.idx) (hf : f.lo + f.width ≤ 32)
    (h : g.lo + g.width ≤ f.lo ∨ f.lo + f.width ≤ g.lo) : (s.put b f v).get c g = s.get c g := by
  rw [State.get, State.get, hk, reg_put_toNat s b f v hf, bitsOf_putBits_ne _ _ _ _ _ _ h]

/-- Fields of different registers, or of one register without a common bit. -/
theorem get_put_ne (b c : Nat) (f g : Fld) (v : Nat) (hf : f.lo + f.width ≤ 32)
    (h : c + g.idx ≠ b + f.idx ∨ g.lo + g.width ≤ f.lo ∨ f.lo + f.width ≤ g.lo) : (s.put b f v).get c g = s.get c g := by
  by_cases hk : c + g.idx = b + f.idx
  · exact get_put_bits s b c f g v hk hf (h.resolve_left (fun n => n hk))
  · exact get_put_reg s b c f g v hk

theorem on_eq_get (b : Nat) (f : Fld) : s.on b f = (s.get b f != 0) := rfl

/-- `t` is `s` with another register file. -/
def RegsOf (s t : State) : Prop := ∃ r, t = { s with regs := r }

theorem RegsOf.refl : RegsOf s s := ⟨s.regs, rfl⟩
theorem RegsOf.trans {s t u : State} (h : RegsOf s t) (k : RegsOf t u) : RegsOf s u := by
  obtain ⟨r, rfl⟩ := h
  obtain ⟨q, rfl⟩ := k
  exact ⟨q, rfl⟩
theorem RegsOf.ite {c : Prop} [Decidable c] {s t u : State} (h : RegsOf s t) (k : RegsOf s u) :
    RegsOf s (if c then t else u) := by split <;> assumption
theorem RegsOf.setReg {s t : State} (h : RegsOf s t) (k : Nat) (v : Word) : RegsOf s (t.setReg k v) := h.trans ⟨_, rfl⟩
theorem RegsOf.put {s t : State} (h : RegsOf s t) (b : Nat) (f : Fld) (v : Nat) : RegsOf s (t.put b f v) := h.setReg _ _
theorem RegsOf.putB {s t : State} (h : RegsOf s t) (b : Nat) (f : Fld) (v : Bool) : RegsOf s (t.putB b f v) := h.setReg _ _
theorem RegsOf.bump {s t : State} (h : RegsOf s t) (b : Nat) (f : Fld) (n : Nat) : RegsOf s (t.bump b f n) := h.setReg _ _
theorem RegsOf.eq {s t : State} (h : RegsOf s t) : { t with regs := s.regs } = s := by obtain ⟨r, rfl⟩ := h; rfl

/-- What writes the other forms come down to. -/
theorem putI_eq (b : Nat) (f : Fld) (v : Int) : s.putI b f v = s.put b f (unsigned v f.width) := rfl
theorem putB_eq (b : Nat) (f : Fld) (v : Bool) : s.putB b f v = s.put b f v.toNat := rfl
theorem putSat_eq (b : Nat) (f : Fld) (v : Nat) : s.putSat b f v = s.put b f (satN f.width v) := rfl
theorem bump_eq (b : Nat) (f : Fld) (n : Nat) : s.bump b f n = s.put b f (satN f.width (s.get b f + n)) := rfl
theorem setMode_eq (m : Nat) : s.setMode m = s.put pwrR PWR_STATUS_MODE m := rfl

theorem satN_lt (w v : Nat) : satN w v < 2 ^ w := by
  have := Nat.two_pow_pos w
  unfold satN; omega

theorem get_putB_same (b : Nat) (f : Fld) (v : Bool) (h : f.lo + f.width ≤ 32) (hw : 0 < f.width) :
    (s.putB b f v).get b f = v.toNat := by
  rw [putB_eq, get_put_same s b f _ h, Nat.mod_eq_of_lt]
  have : 2 ≤ 2 ^ f.width := by
    calc 2 = 2 ^ 1 := rfl
      _ ≤ 2 ^ f.width := Nat.pow_le_pow_right (by decide) hw
  cases v
  · simp only [Bool.toNat_false]; omega
  · simp only [Bool.toNat_true]; omega

theorem on_putB_same (b : Nat) (f : Fld) (v : Bool) (h : f.lo + f.width ≤ 32) (hw : 0 < f.width) :
    (s.putB b f v).on b f = v := by
  rw [on_eq_get, get_putB_same s b f v h hw]; cases v <;> rfl

theorem get_putSat_same (b : Nat) (f : Fld) (v : Nat) (h : f.lo + f.width ≤ 32) :
    (s.putSat b f v).get b f = satN f.width v := by
  rw [putSat_eq, get_put_same s b f _ h, Nat.mod_eq_of_lt (satN_lt _ _)]

theorem get_bump_same (b : Nat) (f : Fld) (n : Nat) (h : f.lo + f.width ≤ 32) :
    (s.bump b f n).get b f = min (s.get b f + n) (2 ^ f.width - 1) := get_putSat_same s b f _ h

end State

end Sys2Proof.Machine
end

