-- ==== Sys2Proof/Laws/Access.lean ====
section
/-! SUPPORT. What one write of a register does, from the access down to the fields. -/

namespace Sys2Proof.Machine

/-! ## Merging -/

theorem add_eq_or (x y : Nat) (h : x &&& y = 0) : x + y = x ||| y := by
  have hx : x < 2 ^ (x + y) := lt_of_lt_of_le Nat.lt_two_pow_self (Nat.pow_le_pow_right (by decide) (by omega))
  have hy : y < 2 ^ (x + y) := lt_of_lt_of_le Nat.lt_two_pow_self (Nat.pow_le_pow_right (by decide) (by omega))
  have h2 : 2 ^ (x + y + 1) = 2 * 2 ^ (x + y) := by rw [Nat.pow_succ]; omega
  have := congrArg BitVec.toNat (BitVec.add_eq_or_of_and_eq_zero (BitVec.ofNat (x + y + 1) x) (BitVec.ofNat _ y)
    (by rw [← BitVec.ofNat_and, h]))
  simp only [BitVec.toNat_add, BitVec.toNat_or, BitVec.toNat_ofNat] at this
  rw [Nat.mod_eq_of_lt (a := x) (by omega), Nat.mod_eq_of_lt (a := y) (by omega), Nat.mod_eq_of_lt (by omega)] at this
  exact this

theorem testBit_sub_and (a m i : Nat) : (a - (a &&& m)).testBit i = (a.testBit i && !m.testBit i) := by
  have h1 : (a &&& m) &&& (a ^^^ (a &&& m)) = 0 := by
    apply Nat.eq_of_testBit_eq; intro j
    simp only [Nat.testBit_and, Nat.testBit_xor, Nat.zero_testBit]
    cases a.testBit j <;> cases m.testBit j <;> rfl
  have h2 : (a &&& m) + (a ^^^ (a &&& m)) = a := by
    rw [add_eq_or _ _ h1]
    apply Nat.eq_of_testBit_eq; intro j
    simp only [Nat.testBit_and, Nat.testBit_or, Nat.testBit_xor]
    cases a.testBit j <;> cases m.testBit j <;> rfl
  have h : a - (a &&& m) = a ^^^ (a &&& m) := by omega
  rw [h]
  simp only [Nat.testBit_and, Nat.testBit_xor]
  cases a.testBit i <;> cases m.testBit i <;> rfl

theorem testBit_merged (old m d i : Nat) :
    (merged old m d).testBit i = if m.testBit i then d.testBit i else old.testBit i := by
  unfold merged
  simp only [Nat.testBit_or, Nat.testBit_and, testBit_sub_and]
  cases old.testBit i <;> cases m.testBit i <;> cases d.testBit i <;> rfl

/-- A field of the merged word is the field merged. -/
theorem bitsOf_merged (old m d lo w : Nat) :
    bitsOf (merged old m d) lo w = merged (bitsOf old lo w) (bitsOf m lo w) (bitsOf d lo w) := by
  apply Nat.eq_of_testBit_eq; intro i
  simp only [testBit_merged, testBit_bitsOf]
  by_cases h : i < w <;> simp [h]

theorem merged_lt {old m d n : Nat} (ho : old < 2 ^ n) (hm : m < 2 ^ n) : merged old m d < 2 ^ n := by
  apply Nat.lt_pow_two_of_testBit
  intro i hi
  rw [testBit_merged, Nat.testBit_lt_two_pow (lt_of_lt_of_le ho (Nat.pow_le_pow_right (by decide) hi)),
    Nat.testBit_lt_two_pow (lt_of_lt_of_le hm (Nat.pow_le_pow_right (by decide) hi))]
  rfl

theorem putBits_bitsOf (v lo w : Nat) : putBits v lo w (bitsOf v lo w) = v := by
  apply Nat.eq_of_testBit_eq; intro i
  rw [testBit_putBits]
  split
  · rename_i h
    rw [testBit_bitsOf]
    simp [show i - lo < w by omega, show lo + (i - lo) = i by omega]
  · rfl

namespace State

variable (s : State)

/-! ## One field -/

/-- A field that the write leaves as it was. -/
theorem fieldWrite_same {who : Who} {k b : Nat} {f : FieldSpec} {m d old : Nat} (ha : f.acc ≠ .w1c)
    (hp : f.acc = .pfo → privileged who = true)
    (h : bitsOf (merged old m d) f.lo f.width = bitsOf old f.lo f.width) :
    s.fieldWrite who k b f m d old = (bitsOf (merged old m d) f.lo f.width, []) := by
  obtain ⟨lo, width, acc, reset, lock, ok⟩ := f
  simp only at ha hp h ⊢
  rw [h]
  rw [bitsOf_merged, merged] at h
  cases acc <;> simp_all [State.fieldWrite]

/-- A field that may not be written. -/
theorem fieldWrite_ro {who : Who} {k b : Nat} {f : FieldSpec} {m d old : Nat} (ha : f.acc = .ro ∨ f.acc = .wo) :
    s.fieldWrite who k b f m d old = (bitsOf old f.lo f.width, []) := by
  obtain ⟨lo, width, acc, reset, lock, ok⟩ := f
  simp only at ha ⊢
  rcases ha with rfl | rfl <;> simp [State.fieldWrite]

/-- A field that takes what the write asks. -/
theorem fieldWrite_take {who : Who} {k b : Nat} {f : FieldSpec} {m d old : Nat}
    (ha : f.acc = .rw ∨ f.acc = .rwd ∨ f.acc = .pfo) (hp : f.acc = .pfo → privileged who = true)
    (hz : s.fieldAbsent k f.lo = false) (hl : s.lockCause k b f.lo f.lock = none)
    (hr : f.ok = [] ∨ ∃ r ∈ f.ok, r.1 ≤ bitsOf (merged old m d) f.lo f.width ∧ bitsOf (merged old m d) f.lo f.width ≤ r.2)
    (hv : s.valueOk k b f.lo (bitsOf old f.lo f.width) (bitsOf (merged old m d) f.lo f.width) = true) :
    s.fieldWrite who k b f m d old = (bitsOf (merged old m d) f.lo f.width, []) := by
  obtain ⟨lo, width, acc, reset, lock, ok⟩ := f
  simp only at ha hp hz hl hr hv ⊢
  have hr' : (ok.isEmpty || ok.any (fun r => Decidable.decide (r.1 ≤ bitsOf (merged old m d) lo width) &&
      Decidable.decide (bitsOf (merged old m d) lo width ≤ r.2))) = true := by
    rcases hr with h | ⟨r, h1, h2⟩
    · simp [h]
    · simp only [Bool.or_eq_true, List.any_eq_true]
      exact .inr ⟨r, h1, by simpa using h2⟩
  have hm : bitsOf m lo width = 0 → bitsOf (merged old m d) lo width = bitsOf old lo width := by
    intro h; rw [bitsOf_merged, h]; simp [merged]
  by_cases h0 : bitsOf m lo width = 0
  · rw [hm h0]
    rcases ha with rfl | rfl | rfl <;> simp [State.fieldWrite, h0]
  · rw [bitsOf_merged, merged] at hr' hv ⊢
    rcases ha with rfl | rfl | rfl <;> simp only [State.fieldWrite, hz, h0, hl, hr', hv] <;> simp_all

/-! ## One register -/

/-- Fields that each take their part of `w` leave a word whose bits are those of `w` in the fields. -/
theorem fold_testBit {who : Who} {k b m d old w : Nat} {c : List Nat} {fs : List FieldSpec}
    (h : ∀ f ∈ fs, s.fieldWrite who k b f m d old = (bitsOf w f.lo f.width, [])) (acc i : Nat) :
    let r := fs.foldl (fun (acc : Nat × List Nat) f =>
      let x := s.fieldWrite who k b f m d old
      (putBits acc.1 f.lo f.width x.1, acc.2 ++ x.2)) (acc, c)
    r.1.testBit i = (if fs.any (fun f => Decidable.decide (f.lo ≤ i ∧ i < f.lo + f.width)) then w.testBit i
      else acc.testBit i) ∧ r.2 = c := by
  induction fs generalizing acc with
  | nil => simp
  | cons f fs ih =>
    have hf := h f (by simp)
    have := ih (fun g hg => h g (by simp [hg])) (putBits acc f.lo f.width (bitsOf w f.lo f.width))
    simp only [List.foldl_cons, hf, List.append_nil, List.any_cons] at this ⊢
    refine ⟨?_, this.2⟩
    rw [this.1, testBit_putBits, testBit_bitsOf]
    by_cases h1 : f.lo ≤ i ∧ i < f.lo + f.width
    · simp [h1, show i - f.lo < f.width by omega, show f.lo + (i - f.lo) = i by omega]
    · simp [h1]

/-- Every field takes its part of the word that the write asks for, and nothing forbids them together. -/
theorem fieldsWrite_eq {who : Who} {k b m d old w : Nat} {fs : List FieldSpec}
    (h : ∀ f ∈ fs, s.fieldWrite who k b f m d old = (bitsOf w f.lo f.width, []))
    (hw : ∀ i, fs.any (fun f => Decidable.decide (f.lo ≤ i ∧ i < f.lo + f.width)) = false → w.testBit i = old.testBit i)
    (ht : ∀ x ∈ s.together k b old w (wanted fs m d old), fOf w x = fOf old x) :
    s.fieldsWrite who k b fs m d old = (w, []) := by
  have e : fs.foldl (fun (acc : Nat × List Nat) f =>
      let x := s.fieldWrite who k b f m d old
      (putBits acc.1 f.lo f.width x.1, acc.2 ++ x.2)) (old, []) = (w, []) := by
    apply Prod.ext
    · apply Nat.eq_of_testBit_eq; intro i
      rw [(fold_testBit s h old i).1]
      split
      · rfl
      · rename_i hn; exact (hw i (Bool.eq_false_iff.mpr hn)).symm
    · exact (fold_testBit s h old 0).2
  simp only [State.fieldsWrite]
  rw [e]
  generalize s.together k b old w (wanted fs m d old) = l at ht
  induction l with
  | nil => rfl
  | cons x l ih =>
    rw [List.foldl_cons, if_pos (ht x (by simp))]
    exact ih (fun y hy => ht y (by simp [hy]))

/-- The same where fields are put back together: one pass over what `together` names. -/
theorem fieldsWrite_back {who : Who} {k b m d old w : Nat} {fs : List FieldSpec}
    (h : ∀ f ∈ fs, s.fieldWrite who k b f m d old = (bitsOf w f.lo f.width, []))
    (hw : ∀ i, fs.any (fun f => Decidable.decide (f.lo ≤ i ∧ i < f.lo + f.width)) = false → w.testBit i = old.testBit i) :
    s.fieldsWrite who k b fs m d old = (s.together k b old w (wanted fs m d old)).foldl
      (fun (acc : Nat × List Nat) (f : Fld) =>
        if fOf acc.1 f = fOf old f then acc
        else (putBits acc.1 f.lo f.width (fOf old f), acc.2 ++ [2])) (w, []) := by
  have e : fs.foldl (fun (acc : Nat × List Nat) f =>
      let x := s.fieldWrite who k b f m d old
      (putBits acc.1 f.lo f.width x.1, acc.2 ++ x.2)) (old, []) = (w, []) := by
    apply Prod.ext
    · apply Nat.eq_of_testBit_eq; intro i
      rw [(fold_testBit s h old i).1]
      split
      · rfl
      · rename_i hn; exact (hw i (Bool.eq_false_iff.mpr hn)).symm
    · exact (fold_testBit s h old 0).2
  simp only [State.fieldsWrite]
  rw [e]

/-- A write that asks one field for a new value, and every other bit for what it holds. -/
theorem fieldsWrite_field {who : Who} {k b m d old v : Nat} {fs : List FieldSpec} {f : Fld} {g : FieldSpec}
    (hm : merged old m d = putBits old f.lo f.width v) (hg : g ∈ fs) (he : g.lo = f.lo ∧ g.width = f.width)
    (hd : ∀ x ∈ fs, x = g ∨ x.lo + x.width ≤ f.lo ∨ f.lo + f.width ≤ x.lo) (hc : ∀ x ∈ fs, x.acc ≠ .w1c)
    (hp : ∀ x ∈ fs, x.acc = .pfo → privileged who = true) (ha : g.acc = .rw ∨ g.acc = .rwd ∨ g.acc = .pfo)
    (hz : s.fieldAbsent k f.lo = false) (hl : s.lockCause k b f.lo g.lock = none)
    (hr : g.ok = [] ∨ ∃ r ∈ g.ok, r.1 ≤ v % 2 ^ f.width ∧ v % 2 ^ f.width ≤ r.2)
    (hv : s.valueOk k b f.lo (bitsOf old f.lo f.width) (v % 2 ^ f.width) = true)
    (ht : ∀ x ∈ s.together k b old (putBits old f.lo f.width v) (wanted fs m d old),
      x.lo + x.width ≤ f.lo ∨ f.lo + f.width ≤ x.lo) :
    s.fieldsWrite who k b fs m d old = (putBits old f.lo f.width v, []) := by
  apply fieldsWrite_eq
  · intro x hx
    rw [← hm]
    rcases hd x hx with rfl | h
    · have e : bitsOf (merged old m d) x.lo x.width = v % 2 ^ f.width := by
        rw [hm, he.1, he.2, bitsOf_putBits_same]
      apply fieldWrite_take s ha (hp x hx)
      · rw [he.1]; exact hz
      · rw [he.1]; exact hl
      · rw [e]; exact hr
      · rw [e, he.1, he.2]; exact hv
    · apply fieldWrite_same s (hc x hx) (hp x hx)
      rw [hm, bitsOf_putBits_ne _ _ _ _ _ _ h]
  · intro i hi
    rw [testBit_putBits, if_neg]
    intro hn
    have := List.any_eq_false.mp hi g hg
    rw [he.1, he.2] at this
    simp at this
    omega
  · intro x hx
    exact bitsOf_putBits_ne _ _ _ _ _ _ (ht x hx)

/-- Registers whose writes go their own way: the violation record, its bit maps, the SPI transmit FIFO and the `_POP` ports. -/
def apartReg (k : Nat) : Bool :=
  k = glbR + GLB_VIOL_ADDR_OFFSET.idx || k = glbR + GLB_VIOL_INFO_COUNT.idx ||
  (glbR + GLB_WR_IGN_WR_IGN.idx ≤ k && k < glbR + GLB_WR_IGN_WR_IGN.idx + 3) || k = rveR + RVE_SPI_TX_DATA.idx || State.isPop k

/-- A write of an ordinary register that nothing refuses: the word, then what it sets going. -/
theorem present_eq {who : Who} {off m d pos k b0 w : Nat} {l0 : Bool} {fs : List FieldSpec}
    (hp : decodeOff (if who.rve then 0 else who.func) (off / 4 * 4) = .at k) (ha : s.regAbsent k = false) (hm : m ≠ 0)
    (hl : RegMap.lookup k = some (b0, fs)) (hr : s.ringDenied who k = false) (hs : apartReg k = false)
    (ho : s.strobeRefused who k m d l0 = false)
    (hf : s.fieldsWrite who k (b0 + k / 2 ^ 20 * 2 ^ 20) fs m d (s.reg k).toNat = (w, [])) :
    s.present who off m d pos l0 =
      ((s.setReg k (BitVec.ofNat 32 w)).written who k (b0 + k / 2 ^ 20 * 2 ^ 20) m d (s.reg k).toNat w pos, false) := by
  simp only [apartReg, Bool.or_eq_false_iff, decide_eq_false_iff_not, Bool.and_eq_false_iff] at hs
  obtain ⟨⟨⟨⟨h1, h2⟩, h3⟩, h4⟩, h5⟩ := hs
  unfold State.present
  rw [hp]
  simp only [ha, hm, hl, hr, h1, h2, h4, h5, hf, ho, decide_false, Bool.false_or, Bool.or_false, Bool.false_eq_true, if_false,
    List.append_nil, List.contains_nil, Bool.false_and]
  rw [if_neg]
  simp only [Bool.and_eq_true, decide_eq_true_eq]
  omega

/-- A write of an ordinary register of which something is refused for cause `c`. -/
theorem present_refused {who : Who} {off m d pos k b0 w c : Nat} {l0 : Bool} {cs : List Nat} {fs : List FieldSpec}
    (hp : decodeOff (if who.rve then 0 else who.func) (off / 4 * 4) = .at k) (ha : s.regAbsent k = false) (hm : m ≠ 0)
    (hl : RegMap.lookup k = some (b0, fs)) (hr : s.ringDenied who k = false) (hs : apartReg k = false)
    (ho : s.strobeRefused who k m d l0 = false)
    (hf : s.fieldsWrite who k (b0 + k / 2 ^ 20 * 2 ^ 20) fs m d (s.reg k).toNat = (w, cs)) (hc : c ∈ cs)
    (hx : c = 1 ∨ (c = 0 ∧ 1 ∉ cs) ∨ (c = 2 ∧ 1 ∉ cs ∧ 0 ∉ cs)) :
    s.present who off m d pos l0 =
      (((s.setReg k (BitVec.ofNat 32 w)).written who k (b0 + k / 2 ^ 20 * 2 ^ 20) m d (s.reg k).toNat w pos).flag who off c,
        true) := by
  simp only [apartReg, Bool.or_eq_false_iff, decide_eq_false_iff_not, Bool.and_eq_false_iff] at hs
  obtain ⟨⟨⟨⟨h1, h2⟩, h3⟩, h4⟩, h5⟩ := hs
  unfold State.present
  rw [hp]
  simp only [ha, hm, hl, hr, h1, h2, h4, h5, hf, ho, decide_false, Bool.false_or, Bool.or_false, Bool.false_eq_true, if_false,
    List.append_nil, Bool.false_and, List.contains_eq_mem, decide_eq_true_eq]
  rw [if_neg (by simp only [Bool.and_eq_true, decide_eq_true_eq]; omega)]
  rcases hx with rfl | ⟨rfl, h6⟩ | ⟨rfl, h6, h7⟩
  · rw [if_pos hc]
  · rw [if_neg h6, if_pos hc]
  · rw [if_neg h6, if_neg h7, if_pos hc]

/-- `s` with the last abort forgotten, as an answered access leaves it. -/
def quiet (s : State) : State := { s with bus := { s.bus with abort := false } }

/-- An access that presents one word. -/
theorem regWrite_eq {a : Access} {k m d : Nat} (h : Presents s a k m d) :
    s.regWrite a = (s.quiet.present a.who a.off m d a.pos
      (a.be % 2 ^ a.len * 2 ^ (a.off % 4) % 2 = 1)).1 := by
  obtain ⟨h1, h2, h3, h4, h5, h6⟩ := h
  have hc : a.off % 4 + a.len ≤ 4 := by
    by_contra hc
    have hlt : 4 < a.off % 4 + a.len := by omega
    have hlen : a.len ≠ 8 := by omega
    simp [crossing, hlt, hlen] at h3
  have hb : a.be % 2 ^ a.len * 2 ^ (a.off % 4) % 16 ≠ 0 := by
    have hb1 : a.be % 2 ^ a.len < 2 ^ a.len := Nat.mod_lt _ (Nat.two_pow_pos _)
    have h7 : a.be % 2 ^ a.len * 2 ^ (a.off % 4) < 16 := by
      calc _ < 2 ^ a.len * 2 ^ (a.off % 4) := Nat.mul_lt_mul_of_pos_right hb1 (Nat.two_pow_pos _)
        _ = 2 ^ (a.len + a.off % 4) := by rw [Nat.pow_add]
        _ ≤ 2 ^ 4 := Nat.pow_le_pow_right (by decide) (by omega)
    rw [Nat.mod_eq_of_lt h7]
    have h8 := Nat.two_pow_pos (a.off % 4)
    exact Nat.mul_ne_zero h4 (by omega)
  simp only [State.regWrite, h1, h3, State.laneWrite, State.writeHalf, hb, h5, h6]
  rw [if_neg (by simp; omega), if_neg (by simp), if_neg (by omega), if_neg (by simp)]
  rfl

/-- Nothing happens where no bit is presented. -/
theorem present_zero {who : Who} {off d pos k : Nat} {l0 : Bool}
    (hp : decodeOff (if who.rve then 0 else who.func) (off / 4 * 4) = .at k) : s.present who off 0 d pos l0 = (s, false) := by
  unfold State.present
  rw [hp]
  simp

theorem laneMask_lt (be : Nat) : laneMask be < 2 ^ 32 := by
  have h : (List.range 4) = [0, 1, 2, 3] := by decide
  simp only [laneMask, h, List.foldl_cons, List.foldl_nil]
  split <;> split <;> split <;> split <;> omega

theorem laneMask_mod (be : Nat) : laneMask be = laneMask (be % 16) := by
  have h : (List.range 4) = [0, 1, 2, 3] := by decide
  have b0 : bitsOf be 0 1 = bitsOf (be % 16) 0 1 := by simp only [bitsOf]; omega
  have b1 : bitsOf be 1 1 = bitsOf (be % 16) 1 1 := by simp only [bitsOf]; omega
  have b2 : bitsOf be 2 1 = bitsOf (be % 16) 2 1 := by simp only [bitsOf]; omega
  have b3 : bitsOf be 3 1 = bitsOf (be % 16) 3 1 := by simp only [bitsOf]; omega
  simp only [laneMask, h, List.foldl_cons, List.foldl_nil, b0, b1, b2, b3]

theorem laneMask_testBit {be i : Nat} (hi : i < 32) (hl : be / 2 ^ (i / 8) % 2 = 0) : (laneMask be).testBit i = false := by
  have h : ∀ b < 16, ∀ i < 32, b / 2 ^ (i / 8) % 2 = 0 → (laneMask b).testBit i = false := by decide +kernel
  rw [laneMask_mod]
  refine h (be % 16) (Nat.mod_lt _ (by decide)) i hi ?_
  have : i / 8 = 0 ∨ i / 8 = 1 ∨ i / 8 = 2 ∨ i / 8 = 3 := by omega
  rcases this with e | e | e | e <;> rw [e] at hl ⊢ <;> omega

end State

theorem Presents.mask_lt {s : State} {a : Access} {k m d : Nat} (h : Presents s a k m d) : m < 2 ^ 32 := by
  have hw := congrArg Prod.fst h.word
  have hl := State.laneMask_lt (a.be % 2 ^ a.len * 2 ^ (a.off % 4))
  rw [← show _ = m from hw]
  unfold State.personality
  dsimp only
  split
  · exact hl
  · exact lt_of_le_of_lt Nat.and_le_right hl
  · exact lt_of_le_of_lt Nat.and_le_right hl
  · exact lt_of_le_of_lt Nat.and_le_right hl

/-- A lane that is not written presents no mask bit (R162). -/
theorem Presents.lane {s : State} {a : Access} {k m d : Nat} (h : Presents s a k m d) {i : Nat} (hi : i < 32)
    (hl : a.be % 2 ^ a.len * 2 ^ (a.off % 4) / 2 ^ (i / 8) % 2 = 0) : m.testBit i = false := by
  have hw := congrArg Prod.fst h.word
  rw [← show _ = m from hw]
  have hm : (State.laneMask (a.be % 2 ^ a.len * 2 ^ (a.off % 4))).testBit i = false := by
    exact State.laneMask_testBit hi hl
  unfold State.personality
  dsimp only
  split
  · exact hm
  · simp [hm]
  · simp [hm]
  · simp [hm]

/-! ## The whole access -/

namespace State

variable (s : State)

@[simp] theorem quiet_reg (k : Nat) : s.quiet.reg k = s.reg k := (rfl)
@[simp] theorem quiet_get (b : Nat) (f : Fld) : s.quiet.get b f = s.get b f := (rfl)
@[simp] theorem quiet_on (b : Nat) (f : Fld) : s.quiet.on b f = s.on b f := (rfl)
@[simp] theorem quiet_ltc : s.quiet.ltc = s.ltc := (rfl)
@[simp] theorem quiet_mode : s.quiet.mode = s.mode := (rfl)
@[simp] theorem quiet_host : s.quiet.host = s.host := (rfl)

/-- An access that presents one word to an ordinary register and is not refused. -/
theorem regWrite_word {a : Access} {k m d b0 w : Nat} {fs : List FieldSpec} (h : Presents s a k m d) (hm : m ≠ 0)
    (hl : RegMap.lookup k = some (b0, fs)) (ha : s.regAbsent k = false) (hr : s.ringDenied a.who k = false)
    (hs : apartReg k = false) (ho : ∀ l, s.quiet.strobeRefused a.who k m d l = false)
    (hf : s.quiet.fieldsWrite a.who k (b0 + k / 2 ^ 20 * 2 ^ 20) fs m d (s.reg k).toNat = (w, [])) :
    s.regWrite a = (s.quiet.setReg k (BitVec.ofNat 32 w)).written a.who k (b0 + k / 2 ^ 20 * 2 ^ 20) m d (s.reg k).toNat w
      a.pos := by
  rw [regWrite_eq s h]
  rw [present_eq s.quiet h.place ha hm hl hr hs (ho _) hf]
  rfl

/-- The same for a register that is not in a function's own file. -/
theorem regWrite_low {a : Access} {k m d b w : Nat} {fs : List FieldSpec} (h : Presents s a k m d) (hm : m ≠ 0) (hk : k < 2 ^ 20)
    (hl : RegMap.lookup k = some (b, fs)) (ha : s.regAbsent k = false) (hr : s.ringDenied a.who k = false)
    (hs : apartReg k = false) (ho : ∀ l, s.quiet.strobeRefused a.who k m d l = false)
    (hf : s.quiet.fieldsWrite a.who k b fs m d (s.reg k).toNat = (w, [])) :
    s.regWrite a = (s.quiet.setReg k (BitVec.ofNat 32 w)).written a.who k b m d (s.reg k).toNat w a.pos := by
  have e : b + k / 2 ^ 20 * 2 ^ 20 = b := by rw [Nat.div_eq_of_lt hk]; simp
  have := regWrite_word s h hm hl ha hr hs ho (w := w) (by rw [e]; exact hf)
  rw [e] at this
  exact this

/-- An access of which something is refused for cause `c`. -/
theorem regWrite_refused {a : Access} {k m d b w c : Nat} {cs : List Nat} {fs : List FieldSpec} (h : Presents s a k m d)
    (hm : m ≠ 0) (hk : k < 2 ^ 20) (hl : RegMap.lookup k = some (b, fs)) (ha : s.regAbsent k = false)
    (hr : s.ringDenied a.who k = false) (hs : apartReg k = false) (ho : ∀ l, s.quiet.strobeRefused a.who k m d l = false)
    (hf : s.quiet.fieldsWrite a.who k b fs m d (s.reg k).toNat = (w, cs)) (hc : c ∈ cs)
    (hx : c = 1 ∨ (c = 0 ∧ 1 ∉ cs) ∨ (c = 2 ∧ 1 ∉ cs ∧ 0 ∉ cs)) :
    s.regWrite a = ((s.quiet.setReg k (BitVec.ofNat 32 w)).written a.who k b m d (s.reg k).toNat w a.pos).flag a.who a.off
      c := by
  have e : b + k / 2 ^ 20 * 2 ^ 20 = b := by rw [Nat.div_eq_of_lt hk]; simp
  rw [regWrite_eq s h, present_refused s.quiet h.place ha hm hl hr hs (ho _) (by rw [e]; exact hf) hc hx, e]
  rfl

/-- An access that presents no bit. -/
theorem regWrite_zero {a : Access} {k d : Nat} (h : Presents s a k 0 d) : s.regWrite a = s.quiet := by
  rw [regWrite_eq s h, present_zero _ h.place]

end State

end Sys2Proof.Machine
end

