-- ==== Sys2Proof/Laws/Keeps.lean ====
section
/-! SUPPORT. What no command touches and what every command keeps: the variant, the queue, and the canonical form of the
four stores. This file holds the relation and its rules; the other Keeps files give it for every function of the
machine. -/

namespace Sys2Proof.Machine

/-- `t` is `s` after something that keeps the variant and the queue, and the canonical form if `s` had it. -/
structure Holds (s t : State) : Prop where
  variant : t.variant = s.variant
  pending : t.pending = s.pending
  wf : s.wf = true → t.wf = true

/-- The count of boundaries stands, and the LTC has moved by its steps alone. -/
structure Steps (s t : State) : Prop extends Holds s t where
  tick : t.prism.tick = s.prism.tick
  steady : t.ltc.steady = s.ltc.steady
  supply : s.pwr.coreFail = none → t.pwr.coreFail = none

/-- The count of boundaries and the LTC stand, and the core supplies do not fail. -/
structure SameClock (s t : State) : Prop where
  tick : t.prism.tick = s.prism.tick
  sec : t.ltc.sec = s.ltc.sec
  ns : t.ltc.ns = s.ltc.ns
  frac : t.ltc.frac = s.ltc.frac
  stepped : t.ltc.stepped = s.ltc.stepped
  supply : s.pwr.coreFail = none → t.pwr.coreFail = none

/-- `Holds`, and the clock stands. -/
structure Keeps (s t : State) : Prop extends Holds s t where
  clock : SameClock s t

theorem SameClock.refl (s : State) : SameClock s s := ⟨rfl, rfl, rfl, rfl, rfl, id⟩
theorem SameClock.trans {s t u : State} (h : SameClock s t) (k : SameClock t u) : SameClock s u :=
  ⟨k.tick.trans h.tick, k.sec.trans h.sec, k.ns.trans h.ns, k.frac.trans h.frac, k.stepped.trans h.stepped,
    fun p => k.supply (h.supply p)⟩

theorem Holds.refl (s : State) : Holds s s := ⟨rfl, rfl, id⟩
theorem Holds.trans {s t u : State} (h : Holds s t) (k : Holds t u) : Holds s u :=
  ⟨k.variant.trans h.variant, k.pending.trans h.pending, fun w => k.wf (h.wf w)⟩

/-- A change that leaves the four stores alone. -/
theorem Holds.frame {s t : State} (hv : t.variant = s.variant) (hp : t.pending = s.pending) (hr : t.regs = s.regs)
    (hm : t.hostMem = s.hostMem) (hg : t.gran = s.gran) : Holds s t :=
  ⟨hv, hp, fun w => by simpa only [State.wf, hr, hm, hg] using w⟩

theorem Keeps.refl (s : State) : Keeps s s := ⟨.refl s, .refl s⟩
theorem Keeps.trans {s t u : State} (h : Keeps s t) (k : Keeps t u) : Keeps s u :=
  ⟨h.toHolds.trans k.toHolds, h.clock.trans k.clock⟩

theorem Keeps.steps {s t : State} (h : Keeps s t) : Steps s t :=
  ⟨h.toHolds, h.clock.tick, by simp only [Ltc.steady, h.clock.sec, h.clock.ns, h.clock.frac, h.clock.stepped],
    h.clock.supply⟩
theorem Steps.trans {s t u : State} (h : Steps s t) (k : Steps t u) : Steps s u :=
  ⟨h.toHolds.trans k.toHolds, k.tick.trans h.tick, k.steady.trans h.steady, fun p => k.supply (h.supply p)⟩
/-- Something that keeps the clock, after something that stepped it. -/
theorem Steps.keeps {s t u : State} (h : Steps s t) (k : Keeps t t → Keeps t u) : Steps s u :=
  h.trans (k (.refl t)).steps
theorem Steps.foldl {α : Type} {r s : State} {f : State → α → State} {l : List α} (h : Steps r s)
    (hf : ∀ x a, Steps r x → Steps r (f x a)) : Steps r (l.foldl f s) := by
  induction l generalizing s with
  | nil => exact h
  | cons a l ih => exact ih (hf s a h)
theorem Steps.ite {r a b : State} {c : Prop} [Decidable c] (ha : Steps r a) (hb : Steps r b) :
    Steps r (if c then a else b) := by split <;> assumption

/-- A change of anything else. -/
theorem Keeps.frame {r s t : State} (h : Keeps r s) (hv : t.variant = s.variant) (hp : t.pending = s.pending)
    (hr : t.regs = s.regs) (hm : t.hostMem = s.hostMem) (hg : t.gran.sram = s.gran.sram)
    (hd : t.gran.shadow = s.gran.shadow) (ht : SameClock s t) : Keeps r t :=
  ⟨⟨hv.trans h.variant, hp.trans h.pending, fun w => by
    have := h.wf w
    simpa only [State.wf, hr, hm, hg, hd] using this⟩, h.clock.trans ht⟩

/-- The same for a state written out over another one, its supplies apart. -/
theorem Keeps.mk' {r s : State} {ltc free host wd prism ens tmp mil milBak hearth gran loom out bridge tcd lens tally hrd
    plk mir bus spi seqs} (h : Keeps r s) (hg : gran.sram = s.gran.sram) (hd : gran.shadow = s.gran.shadow)
    (ht : prism.tick = s.prism.tick) (h1 : ltc.sec = s.ltc.sec) (h2 : ltc.ns = s.ltc.ns) (h3 : ltc.frac = s.ltc.frac)
    (h4 : ltc.stepped = s.ltc.stepped) :
    Keeps r (State.mk s.variant s.regs ltc free s.hostMem host wd prism ens tmp mil milBak hearth gran loom out bridge tcd
      lens tally hrd plk mir s.pwr bus spi seqs s.pending) :=
  Keeps.frame h rfl rfl rfl rfl hg hd ⟨ht, h1, h2, h3, h4, id⟩

theorem Keeps.ite {r a b : State} {c : Prop} [Decidable c] (ha : Keeps r a) (hb : Keeps r b) :
    Keeps r (if c then a else b) := by split <;> assumption

theorem Steps.iteFst {α : Type} {r : State} {a b : State × α} {c : Prop} [Decidable c] (ha : Steps r a.1)
    (hb : Steps r b.1) : Steps r (if c then a else b).1 := by split <;> assumption

theorem Keeps.iteFst {α : Type} {r : State} {a b : State × α} {c : Prop} [Decidable c] (ha : Keeps r a.1)
    (hb : Keeps r b.1) : Keeps r (if c then a else b).1 := by split <;> assumption

theorem Keeps.foldl {α : Type} {r s : State} {f : State → α → State} {l : List α} (h : Keeps r s)
    (hf : ∀ x a, Keeps r x → Keeps r (f x a)) : Keeps r (l.foldl f s) := by
  induction l generalizing s with
  | nil => exact h
  | cons a l ih => exact ih (hf s a h)

theorem Keeps.fst {α : Type} {r s : State} {p : State × α} {a : α} (e : p = (s, a)) (h : Keeps r p.1) : Keeps r s := by
  subst e; exact h

theorem Keeps.snd {α : Type} {r s : State} {p : α × State} {a : α} (e : p = (a, s)) (h : Keeps r p.2) : Keeps r s := by
  subst e; exact h

theorem Keeps.foldlFst {α β : Type} {r : State} {f : State × β → α → State × β} {l : List α} {p : State × β}
    (h : Keeps r p.1) (hf : ∀ x a, Keeps r x.1 → Keeps r (f x a).1) : Keeps r (l.foldl f p).1 := by
  induction l generalizing p with
  | nil => exact h
  | cons a l ih => exact ih (hf p a h)

/-! ## The four stores -/

theorem State.setReg_keeps {r s : State} {k : Nat} {v : Word} (h : Keeps r s) : Keeps r (s.setReg k v) :=
  ⟨⟨h.variant, h.pending, fun w => by
    have := h.wf w
    simp only [State.wf, State.setReg, Bool.and_eq_true] at this ⊢
    exact ⟨⟨⟨memPut_wf _ _ this.1.1.1, this.1.1.2⟩, this.1.2⟩, this.2⟩⟩, h.clock.trans ⟨rfl, rfl, rfl, rfl, rfl, id⟩⟩

theorem State.hostPut_keeps {r s : State} {k : Nat} {b : Byte} (h : Keeps r s) :
    Keeps r { s with hostMem := memPut (fun _ => none) s.hostMem k b } :=
  ⟨⟨h.variant, h.pending, fun w => by
    have := h.wf w
    simp only [State.wf, Bool.and_eq_true] at this ⊢
    exact ⟨⟨⟨this.1.1.1, memPut_wf _ _ this.1.1.2⟩, this.1.2⟩, this.2⟩⟩, h.clock.trans ⟨rfl, rfl, rfl, rfl, rfl, id⟩⟩

theorem State.sramPut_keeps {r s : State} {k : Nat} {b : Byte} (h : Keeps r s) :
    Keeps r (s.setGran (fun g => { g with sram := memPut granDflt g.sram k b })) :=
  ⟨⟨h.variant, h.pending, fun w => by
    have := h.wf w
    simp only [State.wf, State.setGran, Bool.and_eq_true] at this ⊢
    exact ⟨⟨this.1.1, memPut_wf _ _ this.1.2⟩, this.2⟩⟩, h.clock.trans ⟨rfl, rfl, rfl, rfl, rfl, id⟩⟩

theorem State.shadowPut_keeps {r s : State} {k : Nat} {b : Byte} (h : Keeps r s) :
    Keeps r (s.setGran (fun g => { g with shadow := memPut granDflt g.shadow k b })) :=
  ⟨⟨h.variant, h.pending, fun w => by
    have := h.wf w
    simp only [State.wf, State.setGran, Bool.and_eq_true] at this ⊢
    exact ⟨this.1, memPut_wf _ _ this.2⟩⟩, h.clock.trans ⟨rfl, rfl, rfl, rfl, rfl, id⟩⟩

theorem State.hostWrite_keeps {r s : State} {f addr : Nat} {bs : List Byte} (h : Keeps r s) :
    Keeps r (s.hostWrite f addr bs) := by
  induction bs generalizing s addr with
  | nil => exact h
  | cons b bs ih => exact ih (State.hostPut_keeps h)

theorem State.sramWrite_keeps {r s : State} {o : Nat} {bs : List Byte} (h : Keeps r s) : Keeps r (s.sramWrite o bs) := by
  induction bs generalizing s o with
  | nil => exact h
  | cons b bs ih => exact ih (State.sramPut_keeps h)

theorem State.copyOut_keeps {r s : State} {copy p : Nat} (h : Keeps r s) : Keeps r (s.copyOut copy p) :=
  Keeps.foldl h (fun _ _ hx => State.shadowPut_keeps hx)

/-- A change of the Granary that leaves the bytes alone. -/
theorem State.setGran_keeps {r s : State} {f : GranSt → GranSt} (h : Keeps r s) (hg : (f s.gran).sram = s.gran.sram)
    (hd : (f s.gran).shadow = s.gran.shadow) : Keeps r (s.setGran f) :=
  Keeps.frame h rfl rfl rfl rfl hg hd ⟨rfl, rfl, rfl, rfl, rfl, id⟩

/-! ## What a reset and a loss of power leave -/

theorem State.granKeep_sram_wf {s : State} {k : Bool} (h : s.wf = true) :
    memWf granDflt (s.granKeep k).sram = true ∧ memWf granDflt (s.granKeep k).shadow = true := by
  simp only [State.wf, Bool.and_eq_true] at h
  refine ⟨?_, h.2⟩
  cases k
  · rfl
  · exact h.1.2

/-- A state built anew, with an empty register file, host memory and shadow as they were and the SRAM kept or empty. -/
theorem Holds.anew {r s t : State} {k : Bool} (h : Holds r s) (hv : t.variant = s.variant) (hp : t.pending = s.pending)
    (hr : t.regs = []) (hm : t.hostMem = s.hostMem) (hg : t.gran.sram = (s.granKeep k).sram)
    (hd : t.gran.shadow = (s.granKeep k).shadow) : Holds r t :=
  ⟨hv.trans h.variant, hp.trans h.pending, fun w => by
    have h1 := h.wf w
    have h2 := State.granKeep_sram_wf (k := k) h1
    simp only [State.wf, Bool.and_eq_true] at h1 ⊢
    rw [hr, hm, hg, hd]
    exact ⟨⟨⟨rfl, h1.1.1.2⟩, h2.1⟩, h2.2⟩⟩

end Sys2Proof.Machine
end

