-- ==== Sys2Proof/Laws/KeepsReferences.lean ====
section
/-! SUPPORT. Every function of references, ensembles, channels, Granary and the Hearth keeps the variant, the queue and the canonical form. -/

namespace Sys2Proof.Machine

/-! ## Ops -/

theorem State.put_keeps {base s : State} {b : Nat} {f : Fld} {v : Nat} (hk : Keeps base s) : Keeps base (State.put s b f v) := by
  unfold State.put
  repeat' with_reducible first | intro _ | assumption | apply State.setReg_keeps

theorem State.putI_keeps {base s : State} {b : Nat} {f : Fld} {v : Int} (hk : Keeps base s) : Keeps base (State.putI s b f v) := by
  unfold State.putI
  repeat' with_reducible first | intro _ | assumption | apply State.put_keeps

theorem State.putB_keeps {base s : State} {b : Nat} {f : Fld} {v : Bool} (hk : Keeps base s) : Keeps base (State.putB s b f v) := by
  unfold State.putB
  repeat' with_reducible first | intro _ | assumption | apply State.put_keeps

theorem State.putSat_keeps {base s : State} {b : Nat} {f : Fld} {v : Nat} (hk : Keeps base s) : Keeps base (State.putSat s b f v) := by
  unfold State.putSat
  repeat' with_reducible first | intro _ | assumption | apply State.put_keeps

theorem State.putSatI_keeps {base s : State} {b : Nat} {f : Fld} {v : Int} (hk : Keeps base s) : Keeps base (State.putSatI s b f v) := by
  unfold State.putSatI
  repeat' with_reducible first | intro _ | assumption | apply State.putI_keeps

theorem State.putWord_keeps {base s : State} {k : Nat} {v : Nat} (hk : Keeps base s) : Keeps base (State.putWord s k v) := by
  unfold State.putWord
  repeat' first
    | (with_reducible first | intro _ | assumption | apply State.setReg_keeps | apply Keeps.foldl | apply Keeps.foldlFst)
    | (dsimp only)
    | split

theorem State.peak_keeps {base s : State} {b : Nat} {f : Fld} {v : Nat} (hk : Keeps base s) : Keeps base (State.peak s b f v) := by
  unfold State.peak
  repeat' with_reducible first | intro _ | assumption | apply State.putSat_keeps | apply Keeps.ite

theorem State.put64_keeps {base s : State} {b : Nat} {lo : Fld} {hi : Fld} {v : Int} (hk : Keeps base s) : Keeps base (State.put64 s b lo hi v) := by
  unfold State.put64
  repeat' with_reducible first | intro _ | assumption | apply State.put_keeps

theorem State.setMode_keeps {base s : State} {m : Nat} (hk : Keeps base s) : Keeps base (State.setMode s m) := by
  unfold State.setMode
  repeat' with_reducible first | intro _ | assumption | apply State.put_keeps

theorem State.utcLatch_keeps {base s : State} (hk : Keeps base s) : Keeps base (State.utcLatch s) := by
  unfold State.utcLatch
  repeat' first
    | (with_reducible first | intro _ | assumption | apply Keeps.mk' | rfl)
    | (dsimp only)
    | split

theorem State.setChan_keeps {base s : State} {c : Nat} {f : Chan → Chan} (hk : Keeps base s) : Keeps base (State.setChan s c f) := by
  unfold State.setChan
  repeat' with_reducible first | intro _ | assumption | apply Keeps.mk' | rfl

theorem State.setRef_keeps {base s : State} {i : Nat} {f : RefSt → RefSt} (hk : Keeps base s) : Keeps base (State.setRef s i f) := by
  unfold State.setRef
  repeat' with_reducible first | intro _ | assumption | apply Keeps.mk' | rfl

theorem State.bump_keeps {base s : State} {b : Nat} {f : Fld} {n : optParam Nat 1} (hk : Keeps base s) : Keeps base (State.bump s b f n) := by
  unfold State.bump
  repeat' with_reducible first | intro _ | assumption | apply State.putSat_keeps

theorem State.fresh_keeps {base s : State} {width : Nat} (hk : Keeps base s) : Keeps base (State.fresh s width).2 := by
  unfold State.fresh
  repeat' with_reducible first | intro _ | assumption | apply Keeps.mk' | rfl

theorem State.raiseAt_keeps {base s : State} {tn : Nat} {ev : Nat} {inst : Nat} {data : Nat} (hk : Keeps base s) : Keeps base (State.raiseAt s tn ev inst data) := by
  unfold State.raiseAt
  repeat' with_reducible first | intro _ | assumption | apply Keeps.ite | apply Keeps.mk' | rfl

theorem State.raise_keeps {base s : State} {ev : Nat} {inst : Nat} {data : Nat} (hk : Keeps base s) : Keeps base (State.raise s ev inst data) := by
  unfold State.raise
  repeat' with_reducible first | intro _ | assumption | apply State.raiseAt_keeps

/-! ## Watch -/

theorem State.syncSafehold_keeps {base s : State} (hk : Keeps base s) : Keeps base (State.syncSafehold s) := by
  unfold State.syncSafehold
  repeat' with_reducible first | intro _ | assumption | apply State.putB_keeps

theorem State.syncDq_keeps {base s : State} (hk : Keeps base s) : Keeps base (State.syncDq s) := by
  unfold State.syncDq
  repeat' with_reducible first | intro _ | assumption | apply State.putB_keeps

theorem State.setWd_keeps {base s : State} {f : WatchSt → WatchSt} (hk : Keeps base s) : Keeps base (State.setWd s f) := by
  unfold State.setWd
  repeat' with_reducible first | intro _ | assumption | apply Keeps.mk' | rfl

theorem State.ev114_keeps {base s : State} {n : Nat} {sev : Nat} {queued : Bool} {esc : Bool} (hk : Keeps base s) : Keeps base (State.ev114 s n sev queued esc) := by
  unfold State.ev114
  repeat' with_reducible first | intro _ | assumption | apply State.raise_keeps | apply Keeps.ite

theorem State.suppress_keeps {base s : State} {n : Nat} {until? : Option Nat} (hk : Keeps base s) : Keeps base (State.suppress s n until?) := by
  unfold State.suppress
  repeat' with_reducible first | intro _ | assumption | apply State.setWd_keeps | apply Keeps.foldl

theorem State.startReaction_keeps {base s : State} {n : Nat} {sev : Nat} {tick : Nat} {queued : Bool} {esc : Bool} (hk : Keeps base s) : Keeps base (State.startReaction s n sev tick queued esc) := by
  unfold State.startReaction
  repeat' with_reducible first | intro _ | assumption | apply State.ev114_keeps | apply State.setWd_keeps | apply State.suppress_keeps | apply Keeps.ite

theorem State.makeCurrent_keeps {base s : State} {n : Nat} {sev : Nat} {tick : Nat} (hk : Keeps base s) : Keeps base (State.makeCurrent s n sev tick) := by
  unfold State.makeCurrent
  repeat' first
    | (with_reducible first | intro _ | assumption | apply State.setWd_keeps | apply State.put_keeps | apply State.putB_keeps)

theorem State.queueReaction_keeps {base s : State} {n : Nat} (hk : Keeps base s) : Keeps base (State.queueReaction s n) := by
  unfold State.queueReaction
  repeat' with_reducible first | intro _ | assumption | apply State.setWd_keeps | apply State.put_keeps | apply State.putB_keeps

theorem State.react_keeps {base s : State} {n : Nat} {sev : Nat} (hk : Keeps base s) : Keeps base (State.react s n sev) := by
  unfold State.react
  repeat' first
    | (with_reducible first | intro _ | assumption | apply State.setWd_keeps | apply State.ev114_keeps | apply State.suppress_keeps | apply State.startReaction_keeps | apply State.makeCurrent_keeps | apply State.queueReaction_keeps | apply Keeps.ite)
    | (dsimp only)
    | split

theorem State.recordFirst_keeps {base s : State} {n : Nat} {sev : Nat} {multi : Bool} (hk : Keeps base s) : Keeps base (State.recordFirst s n sev multi) := by
  unfold State.recordFirst
  repeat' with_reducible first | intro _ | assumption | apply State.putB_keeps | apply State.put_keeps | apply State.put64_keeps | apply Keeps.ite

theorem State.consequential_keeps {base s : State} {n : Nat} (hk : Keeps base s) : Keeps base (State.consequential s n) := by
  unfold State.consequential
  repeat' with_reducible first | intro _ | assumption | apply State.setWd_keeps | apply State.putB_keeps

theorem State.occurOne_keeps {base s : State} {n : Nat} {multi : Bool} (hk : Keeps base s) : Keeps base (State.occurOne s n multi) := by
  unfold State.occurOne
  repeat' with_reducible first | intro _ | assumption | apply State.consequential_keeps | apply State.setWd_keeps | apply State.putB_keeps | apply State.syncSafehold_keeps | apply State.react_keeps | apply State.recordFirst_keeps | apply Keeps.ite

theorem State.occur_keeps {base s : State} {n : Nat} (hk : Keeps base s) : Keeps base (State.occur s n) := by
  unfold State.occur
  repeat' with_reducible first | intro _ | assumption | apply State.occurOne_keeps

theorem State.occurMany_keeps {base s : State} {l : List Nat} (hk : Keeps base s) : Keeps base (State.occurMany s l) := by
  unfold State.occurMany
  repeat' first
    | (with_reducible first | intro _ | assumption | apply State.occur_keeps | apply State.occurOne_keeps | apply Keeps.foldl | apply Keeps.foldlFst)
    | (dsimp only)
    | split

theorem State.heldStart_keeps {base s : State} {n : Nat} (hk : Keeps base s) : Keeps base (State.heldStart s n) := by
  unfold State.heldStart
  repeat' with_reducible first | intro _ | assumption | apply State.occur_keeps | apply State.setWd_keeps | apply Keeps.ite

theorem State.heldBoundary_keeps {base s : State} {n : Nat} (hk : Keeps base s) : Keeps base (State.heldBoundary s n) := by
  unfold State.heldBoundary
  repeat' with_reducible first | intro _ | assumption | apply State.consequential_keeps | apply State.occur_keeps | apply Keeps.ite

theorem State.heldEnd_keeps {base s : State} {n : Nat} (hk : Keeps base s) : Keeps base (State.heldEnd s n) := by
  unfold State.heldEnd
  repeat' with_reducible first | intro _ | assumption | apply State.setWd_keeps

theorem State.latchCleared_keeps {base s : State} {n : Nat} (hk : Keeps base s) : Keeps base (State.latchCleared s n) := by
  unfold State.latchCleared
  repeat' with_reducible first | intro _ | assumption | apply State.setWd_keeps | apply State.put_keeps | apply State.putB_keeps | apply State.syncSafehold_keeps | apply Keeps.ite

theorem State.firstCleared_keeps {base s : State} (hk : Keeps base s) : Keeps base (State.firstCleared s) := by
  unfold State.firstCleared
  repeat' with_reducible first | intro _ | assumption | apply State.put_keeps | apply State.putB_keeps

theorem State.startQueued_keeps {base s : State} {n : Nat} {sev : Nat} (hk : Keeps base s) : Keeps base (State.startQueued s n sev) := by
  unfold State.startQueued
  repeat' with_reducible first | intro _ | assumption | apply State.put_keeps | apply State.putB_keeps | apply State.setWd_keeps | apply State.startReaction_keeps | apply State.makeCurrent_keeps | apply Keeps.ite

theorem State.endReaction_keeps {base s : State} (hk : Keeps base s) : Keeps base (State.endReaction s) := by
  unfold State.endReaction
  repeat' first
    | (with_reducible first | intro _ | assumption | apply State.setWd_keeps | apply State.put_keeps | apply State.putB_keeps | apply State.startQueued_keeps | apply Keeps.ite | apply Keeps.foldl | apply Keeps.foldlFst)
    | (dsimp only)
    | split

/-! ## Rings -/

theorem State.setHost_keeps {base s : State} {f : HostSt → HostSt} (hk : Keeps base s) : Keeps base (State.setHost s f) := by
  unfold State.setHost
  repeat' with_reducible first | intro _ | assumption | apply Keeps.mk' | rfl

theorem State.setRing_keeps {base s : State} {b : Nat} {f : RingSt → RingSt} (hk : Keeps base s) : Keeps base (State.setRing s b f) := by
  unfold State.setRing
  repeat' with_reducible first | intro _ | assumption | apply State.setHost_keeps

theorem State.charge_keeps {base s : State} {f : Nat} {cls : Nat} {ring : Nat} {len : Nat} (hk : Keeps base s) : Keeps base (State.charge s f cls ring len) := by
  unfold State.charge
  repeat' first
    | (with_reducible first | intro _ | assumption | apply State.setHost_keeps)
    | (dsimp only)
    | split

theorem State.ringPut_keeps {base s : State} {b : Nat} {esize : Nat} {bytes : List Byte} (hk : Keeps base s) : Keeps base (State.ringPut s b esize bytes) := by
  unfold State.ringPut
  repeat' with_reducible first | intro _ | assumption | apply State.hostWrite_keeps | apply State.setRing_keeps | apply State.put_keeps

theorem State.vecDue_keeps {base s : State} {f : Nat} {v : Nat} (hk : Keeps base s) : Keeps base (State.vecDue s f v) := by
  unfold State.vecDue
  repeat' with_reducible first | intro _ | assumption | apply State.setHost_keeps

theorem State.msixSend_keeps {base s : State} {f : Nat} {v : Nat} (hk : Keeps base s) : Keeps base (State.msixSend s f v) := by
  unfold State.msixSend
  repeat' with_reducible first | intro _ | assumption | apply State.setHost_keeps | apply State.hostWrite_keeps | apply Keeps.ite

theorem State.msixSignal_keeps {base s : State} {f : Nat} {v : Nat} (hk : Keeps base s) : Keeps base (State.msixSignal s f v) := by
  unfold State.msixSignal
  repeat' with_reducible first | intro _ | assumption | apply State.msixSend_keeps | apply State.setHost_keeps | apply Keeps.ite

theorem State.msixAll_keeps {base s : State} (hk : Keeps base s) : Keeps base (State.msixAll s) := by
  unfold State.msixAll
  repeat' with_reducible first | intro _ | assumption | apply State.msixSignal_keeps | apply Keeps.foldl

theorem State.complete_keeps {base s : State} {f : Nat} {cls : Nat} {k : Nat} {tag : Nat} {opc : Nat} {status : Nat} {idx : Nat} {applied : Nat} (hk : Keeps base s) : Keeps base (State.complete s f cls k tag opc status idx applied) := by
  unfold State.complete
  repeat' first
    | (with_reducible first | intro _ | assumption | apply State.setRing_keeps | apply State.charge_keeps | apply State.ringPut_keeps | apply State.vecDue_keeps | apply State.bump_keeps | apply Keeps.ite)
    | (dsimp only)
    | split

theorem State.finish_keeps {base s : State} {d : Desc} {st : Status} {applied : Nat} (hk : Keeps base s) : Keeps base (State.finish s d st applied) := by
  unfold State.finish
  repeat' first
    | (with_reducible first | intro _ | assumption | apply State.complete_keeps | apply State.setRing_keeps)

theorem State.discard_keeps {base s : State} {d : Desc} (hk : Keeps base s) : Keeps base (State.discard s d) := by
  unfold State.discard
  repeat' first
    | (with_reducible first | intro _ | assumption | apply State.setRing_keeps)

theorem State.discardStaged_keeps {base s : State} {which : Staged → Bool} (hk : Keeps base s) : Keeps base (State.discardStaged s which) := by
  unfold State.discardStaged
  repeat' with_reducible first | intro _ | assumption | apply State.discard_keeps | apply State.setHost_keeps | apply State.put_keeps | apply Keeps.foldl | apply Keeps.foldlFst | apply Keeps.mk' | rfl

theorem State.writeEvent_keeps {base s : State} {f : Nat} {e : EvOcc} (hk : Keeps base s) : Keeps base (State.writeEvent s f e) := by
  unfold State.writeEvent
  repeat' first
    | (with_reducible first | intro _ | assumption | apply State.setRing_keeps | apply State.charge_keeps | apply State.ringPut_keeps | apply State.vecDue_keeps | apply State.bump_keeps | apply Keeps.ite | apply Keeps.iteFst | apply Keeps.foldlFst)
    | (dsimp only)
    | split

theorem State.writeEv123_keeps {base s : State} {f : Nat} (hk : Keeps base s) : Keeps base (State.writeEv123 s f) := by
  unfold State.writeEv123
  repeat' with_reducible first | intro _ | assumption | apply State.setRing_keeps | apply State.writeEvent_keeps | apply Keeps.ite

theorem State.eventsDone_keeps {base s : State} (hk : Keeps base s) : Keeps base (State.eventsDone s) := by
  unfold State.eventsDone
  repeat' first
    | (with_reducible first | intro _ | assumption | apply State.setHost_keeps)
    | (dsimp only)
    | split

theorem State.flushEvents_keeps {base s : State} (hk : Keeps base s) : Keeps base (State.flushEvents s) := by
  unfold State.flushEvents
  repeat' first
    | (with_reducible first | intro _ | assumption | apply State.writeEvent_keeps | apply State.writeEv123_keeps | apply State.eventsDone_keeps | apply Keeps.ite | apply Keeps.foldl)
    | (dsimp only)
    | split

theorem State.writeBacks_keeps {base s : State} (hk : Keeps base s) : Keeps base (State.writeBacks s) := by
  unfold State.writeBacks
  repeat' first
    | (with_reducible first | intro _ | assumption | apply State.hostWrite_keeps | apply State.setRing_keeps | apply State.charge_keeps | apply Keeps.ite | apply Keeps.foldl | apply Keeps.iteFst | apply Keeps.foldlFst)
    | (dsimp only)
    | split

theorem State.thresholds_keeps {base s : State} (hk : Keeps base s) : Keeps base (State.thresholds s) := by
  unfold State.thresholds
  repeat' with_reducible first | intro _ | assumption | apply State.setRing_keeps | apply State.raise_keeps | apply State.vecDue_keeps | apply Keeps.ite | apply Keeps.foldl

theorem State.doorbellReject_keeps {base s : State} {f : Nat} {slot : Nat} {cause : Nat} {ring : Option Nat} (hk : Keeps base s) : Keeps base (State.doorbellReject s f slot cause ring) := by
  unfold State.doorbellReject
  repeat' first
    | (with_reducible first | intro _ | assumption | apply State.put_keeps | apply State.bump_keeps | apply State.raise_keeps)
    | (dsimp only)
    | split

theorem State.doorbell_keeps {base s : State} {f : Nat} {page : Nat} {offset : Nat} {size : Nat} {v : Nat} (hk : Keeps base s) : Keeps base (State.doorbell s f page offset size v) := by
  unfold State.doorbell
  repeat' first
    | (with_reducible first | intro _ | assumption | apply State.doorbellReject_keeps | apply State.setRing_keeps | apply Keeps.ite)
    | (dsimp only)
    | split

theorem State.eventsLost_keeps {base s : State} {f : Nat} (hk : Keeps base s) : Keeps base (State.eventsLost s f) := by
  unfold State.eventsLost
  repeat' first
    | (with_reducible first | intro _ | assumption | apply State.setHost_keeps | apply State.setRing_keeps | apply State.bump_keeps | apply Keeps.ite | apply Keeps.iteFst | apply Keeps.foldlFst)
    | (dsimp only)
    | split

theorem State.recordsLost_keeps {base s : State} {k : Nat} (hk : Keeps base s) : Keeps base (State.recordsLost s k) := by
  unfold State.recordsLost
  repeat' first
    | (with_reducible first | intro _ | assumption | apply State.setRing_keeps | apply Keeps.ite | apply Keeps.iteFst | apply Keeps.foldlFst | apply Keeps.mk' | rfl | apply Keeps.mk' | rfl)
    | (dsimp only)
    | split

theorem State.reused_keeps {base s : State} {b : Nat} (hk : Keeps base s) : Keeps base (State.reused s b) := by
  unfold State.reused
  repeat' first
    | (with_reducible first | intro _ | assumption | apply State.eventsLost_keeps | apply State.recordsLost_keeps | apply Keeps.ite | apply Keeps.foldl)
    | (dsimp only)
    | split

theorem State.ringEnabled_keeps {base s : State} {b : Nat} (hk : Keeps base s) : Keeps base (State.ringEnabled s b) := by
  unfold State.ringEnabled
  repeat' first
    | (with_reducible first | intro _ | assumption | apply State.put_keeps | apply State.setRing_keeps | apply State.reused_keeps)
    | (dsimp only)
    | split

theorem State.ringDisabled_keeps {base s : State} {b : Nat} {log : Nat} (hk : Keeps base s) : Keeps base (State.ringDisabled s b log) := by
  unfold State.ringDisabled
  repeat' first
    | (with_reducible first | intro _ | assumption | apply State.setRing_keeps)
    | (dsimp only)
    | split

theorem State.closeRings_keeps {base s : State} (hk : Keeps base s) : Keeps base (State.closeRings s) := by
  unfold State.closeRings
  repeat' first
    | (with_reducible first | intro _ | assumption | apply State.setHost_keeps | apply State.eventsLost_keeps | apply Keeps.ite | apply Keeps.foldl | apply Keeps.iteFst | apply Keeps.foldlFst)
    | (dsimp only)
    | split

/-! ## Prism -/

theorem State.setPrism_keeps {base s : State} {f : PrismSt → PrismSt} (hk : Keeps base s)
    (ht : (f s.prism).tick = s.prism.tick) : Keeps base (State.setPrism s f) := by
  unfold State.setPrism
  repeat' with_reducible first | intro _ | assumption | apply Keeps.mk' | rfl

theorem State.addRes_keeps {base s : State} {i : Nat} {m : Nat} {failed : Bool} (hk : Keeps base s) : Keeps base (State.addRes s i m failed) := by
  unfold State.addRes
  repeat' with_reducible first | intro _ | assumption | apply State.setRef_keeps

theorem State.missEdge_keeps {base s : State} {i : Nat} (hk : Keeps base s) : Keeps base (State.missEdge s i) := by
  unfold State.missEdge
  repeat' first
    | (with_reducible first | intro _ | assumption | apply State.setRef_keeps | apply State.addRes_keeps)
    | (dsimp only)
    | split

theorem State.monAct_keeps {base s : State} {i : Nat} {es : List EdgeIn} {now : Int} (hk : Keeps base s) : Keeps base (State.monAct s i es now) := by
  unfold State.monAct
  repeat' first
    | (with_reducible first | intro _ | assumption | apply State.addRes_keeps | apply State.missEdge_keeps | apply State.setRef_keeps | apply Keeps.ite)
    | (dsimp only)
    | split

theorem State.monFrq_keeps {base s : State} {i : Nat} {es : List EdgeIn} {now : Int} (hk : Keeps base s) : Keeps base (State.monFrq s i es now) := by
  unfold State.monFrq
  repeat' first
    | (with_reducible first | intro _ | assumption | apply State.putI_keeps | apply State.setRef_keeps | apply State.addRes_keeps | apply Keeps.ite | apply Keeps.foldl | apply Keeps.iteFst | apply Keeps.foldlFst)
    | (dsimp only)
    | split

theorem State.monPj_keeps {base s : State} {i : Nat} {x : Rat} {now : Int} (hk : Keeps base s) : Keeps base (State.monPj s i x now) := by
  unfold State.monPj
  repeat' first
    | (with_reducible first | intro _ | assumption | apply State.addRes_keeps | apply Keeps.ite)
    | (dsimp only)
    | split

theorem State.monPw_keeps {base s : State} {i : Nat} {lead : List EdgeIn} {trail : List Nat} {now : Int} (hk : Keeps base s) : Keeps base (State.monPw s i lead trail now) := by
  unfold State.monPw
  repeat' first
    | (with_reducible first | intro _ | assumption | apply State.setRef_keeps | apply State.addRes_keeps | apply Keeps.ite | apply Keeps.foldl | apply Keeps.foldlFst)
    | (dsimp only)
    | split

theorem State.setTc_keeps {base s : State} {f : TcSt → TcSt} (hk : Keeps base s) : Keeps base (State.setTc s f) := by
  unfold State.setTc
  repeat' with_reducible first | intro _ | assumption | apply State.setPrism_keeps | rfl

theorem State.runMonitors_keeps {base s : State} {inp : RefIn} (hk : Keeps base s) : Keeps base (State.runMonitors s inp) := by
  unfold State.runMonitors
  repeat' first
    | (with_reducible first | intro _ | assumption | apply State.setRef_keeps | apply State.addRes_keeps | apply State.monAct_keeps | apply State.monFrq_keeps | apply State.monPj_keeps | apply State.monPw_keeps | apply Keeps.ite)
    | (dsimp only)
    | split

theorem State.acceptSample_keeps {base s : State} {i : Nat} (hk : Keeps base s) : Keeps base (State.acceptSample s i) := by
  unfold State.acceptSample
  repeat' first
    | (with_reducible first | intro _ | assumption | apply State.setRef_keeps | apply Keeps.ite)
    | (dsimp only)
    | split

theorem State.judge_keeps {base s : State} {i : Nat} {tn : Nat} (hk : Keeps base s) : Keeps base (State.judge s i tn) := by
  unfold State.judge
  repeat' with_reducible first | intro _ | assumption | apply State.setRef_keeps | apply State.putB_keeps | apply State.put_keeps | apply State.acceptSample_keeps | apply State.raiseAt_keeps | apply Keeps.ite

theorem State.latchRef_keeps {base s : State} {i : Nat} (hk : Keeps base s) : Keeps base (State.latchRef s i) := by
  unfold State.latchRef
  repeat' with_reducible first | intro _ | assumption | apply State.setRef_keeps | apply Keeps.ite

theorem State.latchRefs_keeps {base s : State} (hk : Keeps base s) : Keeps base (State.latchRefs s) := by
  unfold State.latchRefs
  repeat' with_reducible first | intro _ | assumption | apply State.latchRef_keeps | apply Keeps.foldl

theorem State.refOverride_keeps {base s : State} {i : Nat} {act : Nat} (hk : Keeps base s) : Keeps base (State.refOverride s i act) := by
  unfold State.refOverride
  repeat' first
    | (with_reducible first | intro _ | assumption | apply State.putB_keeps | apply State.setRef_keeps | apply Keeps.ite)
    | (dsimp only)
    | split

theorem State.setQuality_keeps {base s : State} {i : Nat} {ql : Nat} {cc : Nat} (hk : Keeps base s) : Keeps base (State.setQuality s i ql cc) := by
  unfold State.setQuality
  repeat' with_reducible first | intro _ | assumption | apply State.put_keeps

theorem State.showSel_keeps {base s : State} {c : Nat} {cur : Option Nat} (hk : Keeps base s) : Keeps base (State.showSel s c cur) := by
  unfold State.showSel
  repeat' first
    | (with_reducible first | intro _ | assumption | apply State.put_keeps | apply State.putB_keeps)
    | (dsimp only)
    | split

theorem State.select_keeps {base s : State} {c : Nat} (hk : Keeps base s) : Keeps base (State.select s c) := by
  unfold State.select
  repeat' first
    | (with_reducible first | intro _ | assumption | apply State.setPrism_keeps | apply State.showSel_keeps | apply Keeps.ite)
    | (dsimp only)
    | split

theorem State.setPreLock_keeps {base s : State} {x : PreLock} (hk : Keeps base s) : Keeps base (State.setPreLock s x) := by
  unfold State.setPreLock
  repeat' with_reducible first | intro _ | assumption | apply State.setPrism_keeps | rfl

theorem State.preLockStep_keeps {base s : State} {c : Nat} {i : Nat} (hk : Keeps base s) : Keeps base (State.preLockStep s c i) := by
  unfold State.preLockStep
  repeat' first
    | (with_reducible first | intro _ | assumption | apply State.setPrism_keeps | apply State.setPreLock_keeps | apply Keeps.ite | rfl)
    | (dsimp only)
    | split

theorem State.preLockAll_keeps {base s : State} (hk : Keeps base s) : Keeps base (State.preLockAll s) := by
  unfold State.preLockAll
  repeat' with_reducible first | intro _ | assumption | apply State.preLockStep_keeps | apply Keeps.foldl

theorem State.latchPreLock_keeps {base s : State} (hk : Keeps base s) : Keeps base (State.latchPreLock s) := by
  unfold State.latchPreLock
  repeat' with_reducible first | intro _ | assumption | apply State.put_keeps | apply State.putB_keeps | apply State.setPrism_keeps | apply Keeps.foldl | rfl

/-! ## Ensemble -/

theorem State.setEns_keeps {base s : State} {e : Nat} {f : EnsSt → EnsSt} (hk : Keeps base s) : Keeps base (State.setEns s e f) := by
  unfold State.setEns
  repeat' with_reducible first | intro _ | assumption | apply Keeps.mk' | rfl

theorem State.setSlot_keeps {base s : State} {e : Nat} {m : Nat} {f : Slot → Slot} (hk : Keeps base s) : Keeps base (State.setSlot s e m f) := by
  unfold State.setSlot
  repeat' with_reducible first | intro _ | assumption | apply State.setEns_keeps

theorem State.setMState_keeps {base s : State} {e : Nat} {m : Nat} {new : Nat} {cause : Nat} {tn : Nat} (hk : Keeps base s) : Keeps base (State.setMState s e m new cause tn) := by
  unfold State.setMState
  repeat' with_reducible first | intro _ | assumption | apply State.put_keeps | apply State.putB_keeps | apply State.setPrism_keeps | apply State.setEns_keeps | apply State.raiseAt_keeps | apply Keeps.ite | rfl

theorem State.memberOut_keeps {base s : State} {e : Nat} {m : Nat} {cause : Nat} {tn : Nat} (hk : Keeps base s) : Keeps base (State.memberOut s e m cause tn) := by
  unfold State.memberOut
  repeat' with_reducible first | intro _ | assumption | apply State.setMState_keeps | apply State.setSlot_keeps | apply State.put_keeps

theorem State.syncIncnt_keeps {base s : State} {e : Nat} (hk : Keeps base s) : Keeps base (State.syncIncnt s e) := by
  unfold State.syncIncnt
  repeat' with_reducible first | intro _ | assumption | apply State.put_keeps

theorem State.ensBoot_keeps {base s : State} {e : Nat} (hk : Keeps base s) : Keeps base (State.ensBoot s e) := by
  unfold State.ensBoot
  repeat' with_reducible first | intro _ | assumption | apply State.setEns_keeps | apply State.putB_keeps

theorem State.bootIfOut_keeps {base s : State} {e : Nat} (hk : Keeps base s) : Keeps base (State.bootIfOut s e) := by
  unfold State.bootIfOut
  repeat' first
    | (with_reducible first | intro _ | assumption | apply State.syncIncnt_keeps | apply State.ensBoot_keeps | apply Keeps.ite | apply Keeps.foldl)
    | (dsimp only)
    | split

theorem State.ensStop_keeps {base s : State} {e : Nat} {tn : Nat} (hk : Keeps base s) : Keeps base (State.ensStop s e tn) := by
  unfold State.ensStop
  repeat' with_reducible first | intro _ | assumption | apply State.memberOut_keeps | apply State.setPrism_keeps | apply State.setEns_keeps | apply State.putB_keeps | apply State.setRef_keeps | apply State.syncIncnt_keeps | apply Keeps.ite | apply Keeps.foldl | rfl

theorem State.ensEnabled_keeps {base s : State} {e : Nat} (hk : Keeps base s) : Keeps base (State.ensEnabled s e) := by
  unfold State.ensEnabled
  repeat' with_reducible first | intro _ | assumption | apply State.ensStop_keeps | apply State.ensBoot_keeps | apply State.setEns_keeps | apply Keeps.ite

theorem State.learnEnd_keeps {base s : State} {e : Nat} {m : Nat} {tn : Nat} (hk : Keeps base s) : Keeps base (State.learnEnd s e m tn) := by
  unfold State.learnEnd
  repeat' with_reducible first | intro _ | assumption | apply State.setSlot_keeps | apply State.setMState_keeps | apply State.setEns_keeps | apply State.syncIncnt_keeps | apply Keeps.ite

theorem State.tamperRejoin_keeps {base s : State} {e : Nat} {m : Nat} {tn : Nat} (hk : Keeps base s) : Keeps base (State.tamperRejoin s e m tn) := by
  unfold State.tamperRejoin
  repeat' first
    | (with_reducible first | intro _ | assumption | apply State.memberOut_keeps | apply State.bootIfOut_keeps | apply Keeps.ite)
    | (dsimp only)
    | split

theorem State.allanStep_keeps {base s : State} {e : Nat} {m : Nat} (hk : Keeps base s) : Keeps base (State.allanStep s e m) := by
  unfold State.allanStep
  repeat' first
    | (with_reducible first | intro _ | assumption | apply State.fresh_keeps | apply State.setSlot_keeps | apply Keeps.ite)
    | (dsimp only)
    | split

theorem State.allanUpdate_keeps {base s : State} {e : Nat} (hk : Keeps base s) : Keeps base (State.allanUpdate s e) := by
  unfold State.allanUpdate
  repeat' with_reducible first | intro _ | assumption | apply State.allanStep_keeps | apply State.setEns_keeps | apply Keeps.ite | apply Keeps.foldl

theorem State.setShares_keeps {base s : State} {e : Nat} (hk : Keeps base s) : Keeps base (State.setShares s e) := by
  unfold State.setShares
  repeat' with_reducible first | intro _ | assumption | apply State.putSat_keeps | apply State.setSlot_keeps | apply Keeps.ite | apply Keeps.foldl

theorem State.reanchor_keeps {base s : State} {e : Nat} (hk : Keeps base s) : Keeps base (State.reanchor s e) := by
  unfold State.reanchor
  repeat' with_reducible first | intro _ | assumption | apply State.putB_keeps | apply State.setEns_keeps | apply Keeps.ite

theorem State.checkAnchor_keeps {base s : State} {e : Nat} (hk : Keeps base s) : Keeps base (State.checkAnchor s e) := by
  unfold State.checkAnchor
  repeat' with_reducible first | intro _ | assumption | apply State.putB_keeps | apply State.setEns_keeps | apply Keeps.ite

theorem State.pathSuspects_keeps {base s : State} {tn : Nat} (hk : Keeps base s) : Keeps base (State.pathSuspects s tn) := by
  unfold State.pathSuspects
  repeat' first
    | (with_reducible first | intro _ | assumption | apply State.setPrism_keeps | apply State.setSlot_keeps | apply State.setMState_keeps | apply State.setEns_keeps | apply State.put_keeps | apply State.putB_keeps | apply State.memberOut_keeps | apply Keeps.ite | apply Keeps.foldl | apply Keeps.foldlFst | rfl)
    | (dsimp only)
    | split

theorem State.asymWindowEnd_keeps {base s : State} {e : Nat} {tn : Nat} (hk : Keeps base s) : Keeps base (State.asymWindowEnd s e tn) := by
  unfold State.asymWindowEnd
  repeat' first
    | (with_reducible first | intro _ | assumption | apply State.putSatI_keeps | apply State.setPrism_keeps | apply State.setEns_keeps | apply State.setSlot_keeps | apply State.setMState_keeps | apply State.memberOut_keeps | apply State.syncIncnt_keeps | apply State.bootIfOut_keeps | apply Keeps.ite)
    | (dsimp only)
    | split

theorem State.ensPilot_keeps {base s : State} {e : Nat} {tn : Nat} (hk : Keeps base s) : Keeps base (State.ensPilot s e tn) := by
  unfold State.ensPilot
  repeat' first
    | (with_reducible first | intro _ | assumption | apply State.put_keeps | apply State.setMState_keeps | apply State.setSlot_keeps | apply State.setEns_keeps | apply State.putB_keeps | apply State.setRef_keeps | apply Keeps.ite)
    | (dsimp only)
    | split

theorem State.ensJudge_keeps {base s : State} {e : Nat} (hk : Keeps base s) : Keeps base (State.ensJudge s e) := by
  unfold State.ensJudge
  repeat' first
    | (with_reducible first | intro _ | assumption | apply State.setPrism_keeps | apply Keeps.ite | apply Keeps.foldl | apply Keeps.iteFst | apply Keeps.foldlFst)
    | (dsimp only)
    | split

theorem State.ensMember_keeps {base s : State} {e : Nat} {m : Nat} {tn : Nat} {xp : Rat} (hk : Keeps base s) : Keeps base (State.ensMember s e m tn xp) := by
  unfold State.ensMember
  repeat' first
    | (with_reducible first | intro _ | assumption | apply State.memberOut_keeps | apply State.setMState_keeps | apply State.setSlot_keeps | apply State.putB_keeps | apply State.setPrism_keeps | apply State.put_keeps | apply State.putSat_keeps | apply Keeps.ite | rfl)
    | (dsimp only)
    | split

theorem State.ensCombine_keeps {base s : State} {e : Nat} {xp : Rat} (hk : Keeps base s) : Keeps base (State.ensCombine s e xp) := by
  unfold State.ensCombine
  repeat' first
    | (with_reducible first | intro _ | assumption | apply State.setSlot_keeps | apply State.setEns_keeps | apply Keeps.ite | apply Keeps.foldl | apply Keeps.foldlFst)
    | (dsimp only)
    | split

theorem State.ensQuality_keeps {base s : State} {e : Nat} (hk : Keeps base s) : Keeps base (State.ensQuality s e) := by
  unfold State.ensQuality
  repeat' first
    | (with_reducible first | intro _ | assumption | apply State.setQuality_keeps | apply Keeps.ite | apply Keeps.foldl | apply Keeps.foldlFst)
    | (dsimp only)
    | split

theorem State.ensPublish_keeps {base s : State} {e : Nat} (hk : Keeps base s) : Keeps base (State.ensPublish s e) := by
  unfold State.ensPublish
  repeat' first
    | (with_reducible first | intro _ | assumption | apply State.setRef_keeps | apply State.addRes_keeps | apply Keeps.ite)
    | (dsimp only)
    | split

theorem State.ensIdle_keeps {base s : State} {e : Nat} {m : Nat} {tn : Nat} (hk : Keeps base s) : Keeps base (State.ensIdle s e m tn) := by
  unfold State.ensIdle
  repeat' first
    | (with_reducible first | intro _ | assumption | apply State.setSlot_keeps | apply State.memberOut_keeps | apply Keeps.ite | apply Keeps.iteFst | apply Keeps.foldlFst)
    | (dsimp only)
    | split

theorem State.pilotCheck_keeps {base s : State} {e : Nat} (hk : Keeps base s) : Keeps base (State.pilotCheck s e) := by
  unfold State.pilotCheck
  repeat' first
    | (with_reducible first | intro _ | assumption | apply State.setEns_keeps | apply State.syncIncnt_keeps | apply State.ensBoot_keeps | apply Keeps.ite)
    | (dsimp only)
    | split

theorem State.ensStart_keeps {base s : State} {e : Nat} {tn : Nat} (hk : Keeps base s) : Keeps base (State.ensStart s e tn) := by
  unfold State.ensStart
  repeat' first
    | (with_reducible first | intro _ | assumption | apply State.bootIfOut_keeps | apply State.ensStop_keeps | apply State.checkAnchor_keeps | apply Keeps.ite)
    | (dsimp only)
    | split

theorem State.ensTick_keeps {base s : State} {e : Nat} {tn : Nat} (hk : Keeps base s) : Keeps base (State.ensTick s e tn) := by
  unfold State.ensTick
  repeat' first
    | (with_reducible first | intro _ | assumption | apply State.syncIncnt_keeps | apply State.bootIfOut_keeps | apply State.ensStop_keeps | apply State.setShares_keeps | apply State.checkAnchor_keeps | apply State.asymWindowEnd_keeps | apply State.ensPilot_keeps | apply State.ensMember_keeps | apply State.ensCombine_keeps | apply State.ensPublish_keeps | apply State.ensIdle_keeps | apply State.pilotCheck_keeps | apply Keeps.ite | apply Keeps.foldl)
    | (dsimp only)
    | split

theorem State.ensDue_keeps {base s : State} (hk : Keeps base s) : Keeps base (State.ensDue s) := by
  unfold State.ensDue
  repeat' with_reducible first | intro _ | assumption | apply State.tamperRejoin_keeps | apply State.learnEnd_keeps | apply State.reanchor_keeps | apply State.allanUpdate_keeps | apply State.asymWindowEnd_keeps | apply Keeps.foldl

theorem State.plausResults_keeps {base s : State} (hk : Keeps base s) : Keeps base (State.plausResults s) := by
  unfold State.plausResults
  repeat' with_reducible first | intro _ | assumption | apply State.addRes_keeps | apply Keeps.ite | apply Keeps.foldl

theorem State.ensAll_keeps {base s : State} {tn : Nat} (hk : Keeps base s) : Keeps base (State.ensAll s tn) := by
  unfold State.ensAll
  repeat' first
    | (with_reducible first | intro _ | assumption | apply State.setPrism_keeps | apply State.pathSuspects_keeps | apply State.ensJudge_keeps | apply State.ensStart_keeps | apply State.ensTick_keeps | apply State.plausResults_keeps | apply Keeps.foldl)
    | (dsimp only)
    | split

theorem State.ensembleSet_keeps {base s : State} {e : Nat} {pl : List Byte} {tn : Nat} (hk : Keeps base s) : Keeps base (State.ensembleSet s e pl tn) := by
  unfold State.ensembleSet
  repeat' first
    | (with_reducible first | intro _ | assumption | apply State.put_keeps | apply State.putB_keeps | apply State.putWord_keeps | apply State.setRef_keeps | apply State.setPrism_keeps | apply State.setEns_keeps | apply State.setSlot_keeps | apply State.setMState_keeps | apply State.memberOut_keeps | apply State.syncIncnt_keeps | apply State.ensBoot_keeps | apply State.ensStop_keeps | apply Keeps.ite | apply Keeps.foldl | apply Keeps.iteFst | apply Keeps.foldlFst)
    | (dsimp only)
    | split

theorem State.tamperClear_keeps {base s : State} {e : Nat} {slots : Nat} {tn : Nat} (hk : Keeps base s) : Keeps base (State.tamperClear s e slots tn) := by
  unfold State.tamperClear
  repeat' first
    | (with_reducible first | intro _ | assumption | apply State.memberOut_keeps | apply State.syncIncnt_keeps | apply State.bootIfOut_keeps | apply Keeps.ite | apply Keeps.foldl)
    | (dsimp only)
    | split

theorem State.latchEns_keeps {base s : State} (hk : Keeps base s) : Keeps base (State.latchEns s) := by
  unfold State.latchEns
  repeat' with_reducible first | intro _ | assumption | apply State.putSat_keeps | apply State.putB_keeps | apply State.setEns_keeps | apply State.putSatI_keeps | apply Keeps.ite | apply Keeps.foldl

/-! ## Timecode -/

theorem State.tcResult_keeps {base s : State} {t : Option Int} {utc : Bool} (hk : Keeps base s) : Keeps base (State.tcResult s t utc) := by
  unfold State.tcResult
  repeat' first
    | (with_reducible first | intro _ | assumption | apply State.bump_keeps | apply State.putB_keeps | apply State.addRes_keeps | apply State.setTc_keeps | apply Keeps.ite)
    | (dsimp only)
    | split

theorem State.tcFail_keeps {base s : State} {f : Fld} (hk : Keeps base s) : Keeps base (State.tcFail s f) := by
  unfold State.tcFail
  repeat' first
    | (with_reducible first | intro _ | assumption | apply State.tcResult_keeps | apply State.bump_keeps | apply Keeps.ite)
    | (dsimp only)
    | split

theorem State.tcSentence_keeps {base s : State} {e : Nat × Nat × Int × Bool} (hk : Keeps base s) : Keeps base (State.tcSentence s e) := by
  unfold State.tcSentence
  repeat' first
    | (with_reducible first | intro _ | assumption | apply State.setTc_keeps | apply State.tcResult_keeps | apply State.tcFail_keeps | apply State.bump_keeps | apply Keeps.foldl | apply Keeps.iteFst | apply Keeps.foldlFst)
    | (dsimp only)
    | split

theorem State.tcEdge_keeps {base s : State} {t : Int} (hk : Keeps base s) : Keeps base (State.tcEdge s t) := by
  unfold State.tcEdge
  repeat' first
    | (with_reducible first | intro _ | assumption | apply State.setTc_keeps | apply State.tcResult_keeps | apply State.tcSentence_keeps | apply Keeps.ite | apply Keeps.iteFst | apply Keeps.foldlFst)
    | (dsimp only)
    | split

theorem State.tcEarly_keeps {base s : State} {befores : List Nat} (hk : Keeps base s) : Keeps base (State.tcEarly s befores) := by
  unfold State.tcEarly
  repeat' first
    | (with_reducible first | intro _ | assumption | apply State.setTc_keeps | apply State.tcEdge_keeps | apply Keeps.foldl)
    | (dsimp only)
    | split

theorem State.tcDeadline_keeps {base s : State} (hk : Keeps base s) : Keeps base (State.tcDeadline s) := by
  unfold State.tcDeadline
  repeat' first
    | (with_reducible first | intro _ | assumption | apply State.tcResult_keeps | apply Keeps.ite)
    | (dsimp only)
    | split

theorem State.todSentence_keeps {base s : State} {x : TodIn} (hk : Keeps base s) : Keeps base (State.todSentence s x) := by
  unfold State.todSentence
  repeat' first
    | (with_reducible first | intro _ | assumption | apply State.setTc_keeps | apply State.tcResult_keeps | apply State.tcEarly_keeps | apply State.bump_keeps | apply Keeps.ite)
    | (dsimp only)
    | split

theorem State.irigControl_keeps {base s : State} {x : IrigIn} (hk : Keeps base s) : Keeps base (State.irigControl s x) := by
  unfold State.irigControl
  repeat' first
    | (with_reducible first | intro _ | assumption | apply State.put_keeps | apply State.putB_keeps | apply State.setTc_keeps | apply Keeps.ite)
    | (dsimp only)
    | split

theorem State.irigFrame_keeps {base s : State} {x : IrigIn} (hk : Keeps base s) : Keeps base (State.irigFrame s x) := by
  unfold State.irigFrame
  repeat' first
    | (with_reducible first | intro _ | assumption | apply State.tcResult_keeps | apply State.tcFail_keeps | apply State.irigControl_keeps | apply State.bump_keeps | apply Keeps.ite)
    | (dsimp only)
    | split

/-! ## Model -/

theorem State.setHearth_keeps {base s : State} {f : HearthSt → HearthSt} (hk : Keeps base s) : Keeps base (State.setHearth s f) := by
  unfold State.setHearth
  repeat' with_reducible first | intro _ | assumption | apply Keeps.mk' | rfl

/-! ## Miller -/

theorem State.publishErr_keeps {base s : State} {c : Nat} (hk : Keeps base s) : Keeps base (State.publishErr s c) := by
  unfold State.publishErr
  repeat' first
    | (with_reducible first | intro _ | assumption | apply State.setChan_keeps)

theorem State.decide_keeps {base s : State} {c : Nat} {st : Nat} {cause : Nat} {idx : Option Nat} (hk : Keeps base s) : Keeps base (State.decide s c st cause idx) := by
  unfold State.decide
  repeat' with_reducible first | intro _ | assumption | apply State.setChan_keeps

theorem State.sourceRows_keeps {base s : State} {c : Nat} {st : Nat} {cause : Nat} (hk : Keeps base s) : Keeps base (State.sourceRows s c st cause) := by
  unfold State.sourceRows
  repeat' first
    | (with_reducible first | intro _ | assumption | apply State.setChan_keeps | apply State.decide_keeps | apply Keeps.ite)

theorem State.openSpec_keeps {base s : State} {c : Nat} (hk : Keeps base s) : Keeps base (State.openSpec s c) := by
  unfold State.openSpec
  repeat' first
    | (with_reducible first | intro _ | assumption | apply State.setChan_keeps | apply State.decide_keeps | apply Keeps.ite)
    | (dsimp only)
    | split

theorem State.endSpec_keeps {base s : State} {c : Nat} {commit : Bool} (hk : Keeps base s) : Keeps base (State.endSpec s c commit) := by
  unfold State.endSpec
  repeat' first
    | (with_reducible first | intro _ | assumption | apply State.setChan_keeps | apply State.decide_keeps | apply State.sourceRows_keeps | apply Keeps.ite)
    | (dsimp only)
    | split

theorem State.specOutcome_keeps {base s : State} {c : Nat} (hk : Keeps base s) : Keeps base (State.specOutcome s c) := by
  unfold State.specOutcome
  repeat' first
    | (with_reducible first | intro _ | assumption | apply State.endSpec_keeps | apply State.setChan_keeps | apply State.decide_keeps | apply Keeps.ite)

theorem State.specWord_keeps {base s : State} {c : Nat} {specOpen : Bool} (hk : Keeps base s) : Keeps base (State.specWord s c specOpen) := by
  unfold State.specWord
  repeat' first
    | (with_reducible first | intro _ | assumption | apply State.setChan_keeps)

theorem State.bankC_keeps {base s : State} {c : Nat} {st : Nat} {nst : Nat} {smp : Option Rat} (hk : Keeps base s) : Keeps base (State.bankC s c st nst smp) := by
  unfold State.bankC
  repeat' with_reducible first | intro _ | assumption | apply State.setChan_keeps | apply Keeps.ite

theorem State.bankS_keeps {base s : State} {c : Nat} (hk : Keeps base s) : Keeps base (State.bankS s c) := by
  unfold State.bankS
  repeat' first
    | (with_reducible first | intro _ | assumption | apply State.setChan_keeps | apply Keeps.ite)
    | (dsimp only)
    | split

theorem State.settle_keeps {base s : State} {c : Nat} (hk : Keeps base s) : Keeps base (State.settle s c) := by
  unfold State.settle
  repeat' first
    | (with_reducible first | intro _ | assumption | apply State.setChan_keeps | apply Keeps.ite)
    | (dsimp only)
    | split

theorem State.millerTick_keeps {base s : State} {c : Nat} (hk : Keeps base s) : Keeps base (State.millerTick s c) := by
  unfold State.millerTick
  repeat' first
    | (with_reducible first | intro _ | assumption | apply State.setChan_keeps | apply State.sourceRows_keeps | apply State.openSpec_keeps | apply State.specOutcome_keeps | apply State.specWord_keeps | apply State.bankC_keeps | apply State.bankS_keeps | apply State.settle_keeps | apply State.verdict_keeps | apply Keeps.ite)
    | (dsimp only)
    | split

theorem State.specLimit_keeps {base s : State} {c : Nat} (hk : Keeps base s) : Keeps base (State.specLimit s c) := by
  unfold State.specLimit
  repeat' first
    | (with_reducible first | intro _ | assumption | apply State.setChan_keeps | apply State.endSpec_keeps | apply State.settle_keeps | apply Keeps.ite)
    | (dsimp only)
    | split

theorem State.channelLock_keeps {base s : State} {c : Nat} (hk : Keeps base s) : Keeps base (State.channelLock s c) := by
  unfold State.channelLock
  repeat' with_reducible first | intro _ | assumption | apply State.decide_keeps | apply Keeps.ite

theorem State.channelUnlock_keeps {base s : State} {c : Nat} (hk : Keeps base s) : Keeps base (State.channelUnlock s c) := by
  unfold State.channelUnlock
  repeat' with_reducible first | intro _ | assumption | apply State.decide_keeps | apply State.setChan_keeps | apply State.specWord_keeps | apply Keeps.ite

theorem State.millerDue_keeps {base s : State} (hk : Keeps base s) : Keeps base (State.millerDue s) := by
  unfold State.millerDue
  repeat' with_reducible first | intro _ | assumption | apply State.channelUnlock_keeps | apply State.channelLock_keeps | apply State.specLimit_keeps | apply Keeps.foldl

theorem State.timeChange_keeps {base s : State} {c : Nat} {old : Nat} {st : Nat} (hk : Keeps base s) : Keeps base (State.timeChange s c old st) := by
  unfold State.timeChange
  repeat' first
    | (with_reducible first | intro _ | assumption | apply State.putB_keeps | apply State.setHearth_keeps | apply Keeps.ite | apply Keeps.mk' | rfl | apply Keeps.mk' | rfl)
    | (dsimp only)
    | split

theorem State.applyChange_keeps {base s : State} {c : Nat} {x : Change} {silent : optParam Bool false} (hk : Keeps base s) : Keeps base (State.applyChange s c x silent) := by
  unfold State.applyChange
  extract_lets
  repeat' first
    | (with_reducible first | intro _ | assumption | apply State.put_keeps | apply State.putB_keeps | apply State.setChan_keeps | apply State.bump_keeps | apply State.raise_keeps | apply State.timeChange_keeps | apply Keeps.ite)

theorem State.removeOc_keeps {base s : State} {c : Nat} (hk : Keeps base s) : Keeps base (State.removeOc s c) := by
  unfold State.removeOc
  repeat' with_reducible first | intro _ | assumption | apply State.setPrism_keeps | apply State.setChan_keeps | rfl

theorem State.applyEnding_keeps {base s : State} {c : Nat} (hk : Keeps base s) : Keeps base (State.applyEnding s c) := by
  unfold State.applyEnding
  repeat' first
    | (with_reducible first | intro _ | assumption | apply State.setChan_keeps | apply State.removeOc_keeps | apply Keeps.ite)
    | (dsimp only)
    | split
    | (with_reducible first | apply Keeps.mk')

theorem State.regain_keeps {base s : State} {c : Nat} (hk : Keeps base s) : Keeps base (State.regain s c) := by
  unfold State.regain
  repeat' with_reducible first | intro _ | assumption | apply State.setChan_keeps | apply Keeps.ite

theorem State.freeRunPair_keeps {base s : State} {c : Nat} (hk : Keeps base s) : Keeps base (State.freeRunPair s c) := by
  unfold State.freeRunPair
  repeat' first
    | (with_reducible first | intro _ | assumption | apply State.setChan_keeps | apply Keeps.ite)

theorem State.latchLim_keeps {base s : State} {c : Nat} (hk : Keeps base s) : Keeps base (State.latchLim s c) := by
  unfold State.latchLim
  repeat' first
    | (with_reducible first | intro _ | assumption | apply State.setChan_keeps)
    | (dsimp only)
    | split

theorem State.latchChan_keeps {base s : State} {c : Nat} (hk : Keeps base s) : Keeps base (State.latchChan s c) := by
  unfold State.latchChan
  repeat' first
    | (with_reducible first | intro _ | assumption | apply State.setChan_keeps | apply State.freeRunPair_keeps | apply State.latchLim_keeps | apply Keeps.ite)
    | (dsimp only)
    | split

theorem State.milStatus_keeps {base s : State} {c : Nat} (hk : Keeps base s) : Keeps base (State.milStatus s c) := by
  unfold State.milStatus
  repeat' with_reducible first | intro _ | assumption | apply State.putB_keeps | apply State.put_keeps | apply Keeps.ite

theorem State.millerApply_keeps {base s : State} {c : Nat} (hk : Keeps base s) : Keeps base (State.millerApply s c) := by
  unfold State.millerApply
  repeat' first
    | (with_reducible first | intro _ | assumption | apply State.put_keeps | apply State.setChan_keeps | apply State.removeOc_keeps | apply State.applyEnding_keeps | apply State.again_keeps | apply State.bump_keeps | apply State.applyChange_keeps | apply Keeps.ite | apply Keeps.foldl)
    | (dsimp only)
    | split

theorem State.millerApplyAll_keeps {base s : State} (hk : Keeps base s) : Keeps base (State.millerApplyAll s) := by
  unfold State.millerApplyAll
  repeat' with_reducible first | intro _ | assumption | apply State.millerApply_keeps | apply Keeps.foldl

theorem State.advancePhases_keeps {base s : State} {dt : Rat} (hk : Keeps base s) : Keeps base (State.advancePhases s dt) := by
  unfold State.advancePhases
  repeat' first
    | (with_reducible first | intro _ | assumption | apply State.setChan_keeps)
    | (dsimp only)
    | split
    | (with_reducible first | apply Keeps.mk')

theorem State.removal_keeps {base s : State} {c : Nat} (hk : Keeps base s) : Keeps base (State.removal s c) := by
  unfold State.removal
  repeat' first
    | (with_reducible first | intro _ | assumption | apply State.setChan_keeps | apply State.removeOc_keeps | apply Keeps.ite)
    | (dsimp only)
    | split

theorem State.removals_keeps {base s : State} (hk : Keeps base s) : Keeps base (State.removals s) := by
  unfold State.removals
  repeat' first
    | (with_reducible first | intro _ | assumption | apply State.removal_keeps | apply Keeps.foldl)
    | (dsimp only)
    | split

theorem State.selSave_keeps {base s : State} (hk : Keeps base s) : Keeps base (State.selSave s) := by
  unfold State.selSave
  repeat' first
    | (with_reducible first | intro _ | assumption | apply State.setChan_keeps | apply State.setPrism_keeps | apply Keeps.foldl)
    | (dsimp only)
    | split

theorem State.reselect_keeps {base s : State} {c : Nat} (hk : Keeps base s) : Keeps base (State.reselect s c) := by
  unfold State.reselect
  repeat' first
    | (with_reducible first | intro _ | assumption | apply State.setChan_keeps | apply State.setPrism_keeps | apply State.showSel_keeps | apply State.select_keeps | apply State.publishErr_keeps | apply State.removal_keeps | apply Keeps.ite)
    | (dsimp only)
    | split

theorem State.dropSpec_keeps {base s : State} {c : Nat} {keepX : Bool} (hk : Keeps base s) : Keeps base (State.dropSpec s c keepX) := by
  unfold State.dropSpec
  repeat' with_reducible first | intro _ | assumption | apply State.setChan_keeps

theorem State.milEnable_keeps {base s : State} {c : Nat} (hk : Keeps base s) : Keeps base (State.milEnable s c) := by
  unfold State.milEnable
  repeat' with_reducible first | intro _ | assumption | apply State.applyChange_keeps | apply State.put_keeps | apply State.putB_keeps | apply State.setChan_keeps | apply State.dropSpec_keeps | apply Keeps.ite

theorem State.millerStart_keeps {base s : State} (hk : Keeps base s) : Keeps base (State.millerStart s) := by
  unfold State.millerStart
  repeat' with_reducible first | intro _ | assumption | apply State.putB_keeps | apply State.setChan_keeps | apply State.applyChange_keeps | apply Keeps.ite | apply Keeps.foldl

theorem State.millerStop_keeps {base s : State} (hk : Keeps base s) : Keeps base (State.millerStop s) := by
  unfold State.millerStop
  repeat' first
    | (with_reducible first | intro _ | assumption | apply State.putB_keeps | apply State.setChan_keeps | apply State.put_keeps | apply State.dropSpec_keeps | apply Keeps.foldl | apply Keeps.foldlFst)
    | (dsimp only)
    | split

theorem State.chanState_keeps {base s : State} {c : Nat} {act : Nat} (hk : Keeps base s) : Keeps base (State.chanState s c act).1 := by
  unfold State.chanState
  repeat' first
    | (with_reducible first | intro _ | assumption | apply State.setChan_keeps | apply State.put_keeps | apply State.applyChange_keeps | apply State.dropSpec_keeps | apply State.putB_keeps | apply Keeps.ite | apply Keeps.iteFst)
    | (dsimp only)
    | split

theorem State.chanPhase_keeps {base s : State} {c : Nat} {op : Nat} {amount : Int} (hk : Keeps base s) : Keeps base (State.chanPhase s c op amount).1 := by
  unfold State.chanPhase
  repeat' first
    | (with_reducible first | intro _ | assumption | apply State.setChan_keeps | apply Keeps.ite | apply Keeps.iteFst)

theorem State.chanLoop_keeps {base s : State} {c : Nat} {pl : List Byte} (hk : Keeps base s) : Keeps base (State.chanLoop s c pl) := by
  unfold State.chanLoop
  repeat' with_reducible first | intro _ | assumption | apply State.put_keeps | apply Keeps.ite

theorem State.latchMil_keeps {base s : State} (hk : Keeps base s) : Keeps base (State.latchMil s) := by
  unfold State.latchMil
  repeat' with_reducible first | intro _ | assumption | apply State.put64_keeps | apply State.putSatI_keeps | apply State.putB_keeps | apply State.setChan_keeps | apply Keeps.ite | apply Keeps.foldl

theorem State.millerTickAll_keeps {base s : State} (hk : Keeps base s) : Keeps base (State.millerTickAll s) := by
  unfold State.millerTickAll
  repeat' with_reducible first | intro _ | assumption | apply State.millerTick_keeps | apply Keeps.foldl | apply Keeps.foldlFst | apply Keeps.mk' | rfl

/-! ## Granary -/

theorem State.copyIn_keeps {base s : State} {copy : Nat} {p : Nat} (hk : Keeps base s) : Keeps base (State.copyIn s copy p) := by
  unfold State.copyIn
  repeat' with_reducible first | intro _ | assumption | apply State.sramWrite_keeps

theorem State.setDirty_keeps {base s : State} {p : Nat} (hk : Keeps base s) : Keeps base (State.setDirty s p) := by
  unfold State.setDirty
  repeat' with_reducible first | intro _ | assumption | apply State.setGran_keeps | apply Keeps.ite | apply Keeps.mk' | rfl

theorem State.setPage_keeps {base s : State} {p : Nat} {f : PageSt → PageSt} (hk : Keeps base s) : Keeps base (State.setPage s p f) := by
  unfold State.setPage
  repeat' with_reducible first | intro _ | assumption | apply State.setGran_keeps | apply Keeps.mk' | rfl

theorem State.granStatus_keeps {base s : State} (hk : Keeps base s) : Keeps base (State.granStatus s) := by
  unfold State.granStatus
  repeat' with_reducible first | intro _ | assumption | apply State.put_keeps | apply State.putB_keeps

theorem State.queuePage_keeps {base s : State} {p : Nat} {force : Bool} (hk : Keeps base s) : Keeps base (State.queuePage s p force) := by
  unfold State.queuePage
  repeat' with_reducible first | intro _ | assumption | apply State.granStatus_keeps | apply State.setGran_keeps | apply Keeps.ite | rfl

theorem State.storeRequest_keeps {base s : State} {first : Nat} {n : Nat} {force : Bool} {tamper : Bool} (hk : Keeps base s) : Keeps base (State.storeRequest s first n force tamper).1 := by
  unfold State.storeRequest
  repeat' with_reducible first | intro _ | assumption | apply State.setGran_keeps | apply State.granStatus_keeps | apply State.queuePage_keeps | apply Keeps.ite | apply Keeps.iteFst | apply Keeps.foldl | apply Keeps.foldlFst | rfl

theorem State.lockStatus_keeps {base s : State} (hk : Keeps base s) : Keeps base (State.lockStatus s) := by
  unfold State.lockStatus
  repeat' with_reducible first | intro _ | assumption | apply State.put_keeps

theorem State.granUnlock_keeps {base s : State} {region : Nat} {kind : Nat} {pw : Nat} (hk : Keeps base s) : Keeps base (State.granUnlock s region kind pw) := by
  unfold State.granUnlock
  repeat' with_reducible first | intro _ | assumption | apply State.lockStatus_keeps | apply State.setGran_keeps | apply State.putB_keeps | apply State.put_keeps | apply Keeps.ite | rfl

theorem State.granLock_keeps {base s : State} {region : Nat} {kind : Nat} (hk : Keeps base s) : Keeps base (State.granLock s region kind) := by
  unfold State.granLock
  repeat' with_reducible first | intro _ | assumption | apply State.lockStatus_keeps | apply State.setGran_keeps | rfl

theorem State.granSetPw_keeps {base s : State} {region : Nat} {kind : Nat} {pw : Nat} (hk : Keeps base s) : Keeps base (State.granSetPw s region kind pw) := by
  unfold State.granSetPw
  repeat' with_reducible first | intro _ | assumption | apply State.lockStatus_keeps | apply State.setGran_keeps | apply Keeps.ite | rfl

theorem State.granLockAll_keeps {base s : State} (hk : Keeps base s) : Keeps base (State.granLockAll s) := by
  unfold State.granLockAll
  repeat' with_reducible first | intro _ | assumption | apply State.lockStatus_keeps | apply State.setGran_keeps | rfl

theorem State.pfJoin_keeps {base s : State} {p : Nat} (hk : Keeps base s) : Keeps base (State.pfJoin s p) := by
  unfold State.pfJoin
  repeat' first
    | (with_reducible first | intro _ | assumption | apply State.setGran_keeps | apply State.granStatus_keeps | apply Keeps.ite | apply Keeps.iteFst | apply Keeps.foldlFst)
    | (dsimp only)
    | split

theorem State.granWritePart_keeps {base s : State} {p : Nat} {o : Nat} {bs : List Byte} (hk : Keeps base s) : Keeps base (State.granWritePart s p o bs) := by
  unfold State.granWritePart
  repeat' first
    | (with_reducible first | intro _ | assumption | apply State.put_keeps | apply State.putB_keeps | apply State.setGran_keeps | apply State.sramWrite_keeps | apply State.setDirty_keeps | apply State.queuePage_keeps | apply State.pfJoin_keeps | apply Keeps.ite)
    | (dsimp only)
    | split

theorem State.granWrite_keeps {base s : State} {o : Nat} {bs : List Byte} (hk : Keeps base s) : Keeps base (State.granWrite s o bs) := by
  unfold State.granWrite
  repeat' with_reducible first | intro _ | assumption | apply State.granWritePart_keeps | apply Keeps.foldl

theorem State.granRead_keeps {base s : State} {o : Nat} {n : Nat} (hk : Keeps base s) : Keeps base (State.granRead s o n) := by
  unfold State.granRead
  repeat' with_reducible first | intro _ | assumption | apply State.put_keeps | apply State.putB_keeps | apply Keeps.ite | apply Keeps.foldl | apply Keeps.foldlFst | apply Keeps.mk' | rfl

theorem State.nextSeq_keeps {base s : State} {src : Nat} (hk : Keeps base s) : Keeps base (State.nextSeq s src).2 := by
  unfold State.nextSeq
  repeat' with_reducible first | intro _ | assumption | apply Keeps.mk' | rfl

theorem State.tamperWrite_keeps {base s : State} {r : Nat} (hk : Keeps base s) : Keeps base (State.tamperWrite s r) := by
  unfold State.tamperWrite
  repeat' first
    | (with_reducible first | intro _ | assumption | apply State.setDirty_keeps | apply State.sramWrite_keeps | apply State.put_keeps | apply State.putB_keeps | apply State.storeRequest_keeps | apply Keeps.ite)
    | (dsimp only)
    | split
    | (with_reducible first | apply Keeps.mk')

theorem State.tamperLog_keeps {base s : State} {r : Nat} (hk : Keeps base s) : Keeps base (State.tamperLog s r) := by
  unfold State.tamperLog
  repeat' with_reducible first | intro _ | assumption | apply State.tamperWrite_keeps | apply State.bump_keeps | apply Keeps.ite | apply Keeps.mk' | rfl

theorem State.tamperNext_keeps {base s : State} (hk : Keeps base s) : Keeps base (State.tamperNext s) := by
  unfold State.tamperNext
  extract_lets x1 x2 x3
  have hx2 : Keeps base x2 := by
    repeat' first
      | (with_reducible first | intro _ | assumption | apply State.tamperWrite_keeps)
      | (dsimp only)
      | split
      | (with_reducible first | apply Keeps.mk')
  clear_value x1 x2 x3
  repeat' first
    | (with_reducible first | intro _ | assumption | apply State.tamperWrite_keeps)
    | (dsimp only)
    | split
    | (with_reducible first | apply Keeps.mk')

theorem State.wearInc_keeps {base s : State} {c : Nat} (hk : Keeps base s) : Keeps base (State.wearInc s c) := by
  unfold State.wearInc
  repeat' with_reducible first | intro _ | assumption | apply State.setGran_keeps | rfl

theorem State.wearLatch_keeps {base s : State} (hk : Keeps base s) : Keeps base (State.wearLatch s) := by
  unfold State.wearLatch
  repeat' with_reducible first | intro _ | assumption | apply State.put_keeps | apply State.putB_keeps

theorem State.wearWrite_keeps {base s : State} {c : Nat} {worn : Bool} (hk : Keeps base s) : Keeps base (State.wearWrite s c worn) := by
  unfold State.wearWrite
  repeat' with_reducible first | intro _ | assumption | apply State.setGran_keeps | apply State.raise_keeps | apply Keeps.ite | rfl

theorem State.tamperEdge_keeps {base s : State} {pin : Nat} {rising : Bool} {ns : Nat} {hold : Nat} (hk : Keeps base s) : Keeps base (State.tamperEdge s pin rising ns hold) := by
  unfold State.tamperEdge
  repeat' first
    | (with_reducible first | intro _ | assumption | apply State.putB_keeps | apply State.raise_keeps | apply State.nextSeq_keeps | apply State.tamperLog_keeps | apply State.wearInc_keeps | apply Keeps.ite | apply Keeps.iteFst | apply Keeps.foldlFst | apply Keeps.mk' | rfl)
    | (dsimp only)
    | split

theorem State.tamperReport_keeps {base s : State} (hk : Keeps base s) : Keeps base (State.tamperReport s) := by
  unfold State.tamperReport
  repeat' with_reducible first | intro _ | assumption | apply State.putB_keeps | apply State.raise_keeps | apply Keeps.ite | apply Keeps.foldl | apply Keeps.foldlFst | apply Keeps.mk' | rfl

theorem State.reqDone_keeps {base s : State} {p : Nat} {stored : Bool} {failed : Bool} (hk : Keeps base s) : Keeps base (State.reqDone s p stored failed) := by
  unfold State.reqDone
  repeat' with_reducible first | intro _ | assumption | apply State.setGran_keeps | apply State.raise_keeps | apply State.tamperNext_keeps | apply State.granStatus_keeps | apply Keeps.ite | apply Keeps.foldl | apply Keeps.foldlFst | rfl

theorem State.takePages_keeps {base s : State} {l : List (Nat × Bool)} (h : Keeps base s) : Keeps base (s.takePages l) := by
  induction l generalizing s with
  | nil => exact h
  | cons e l ih =>
    unfold State.takePages
    exact Keeps.ite (State.granStatus_keeps (State.setPage_keeps (State.setGran_keeps (State.setGran_keeps h rfl rfl) rfl rfl)))
      (ih (State.reqDone_keeps (State.setGran_keeps h rfl rfl)))

theorem State.pageStoreStart_keeps {base s : State} (hk : Keeps base s) : Keeps base (State.pageStoreStart s) := by
  unfold State.pageStoreStart
  repeat' with_reducible first | intro _ | assumption | apply State.takePages_keeps | apply Keeps.ite

theorem State.pfEnd_keeps {base s : State} (hk : Keeps base s) : Keeps base (State.pfEnd s) := by
  unfold State.pfEnd
  repeat' with_reducible first | intro _ | assumption | apply State.setGran_keeps | apply Keeps.ite | rfl

theorem State.pageStoreComplete_keeps {base s : State} {ok : Bool} (hk : Keeps base s) : Keeps base (State.pageStoreComplete s ok) := by
  unfold State.pageStoreComplete
  repeat' first
    | (with_reducible first | intro _ | assumption | apply State.copyOut_keeps | apply State.setPage_keeps | apply State.put_keeps | apply State.setGran_keeps | apply State.putB_keeps | apply State.setDirty_keeps | apply State.raise_keeps | apply State.sramWrite_keeps | apply State.pfEnd_keeps | apply State.reqDone_keeps | apply State.occur_keeps | apply Keeps.ite | apply Keeps.foldl | apply Keeps.foldlFst)
    | (dsimp only)
    | split

theorem State.pfStore_keeps {base s : State} (hk : Keeps base s) : Keeps base (State.pfStore s) := by
  unfold State.pfStore
  repeat' first
    | (with_reducible first | intro _ | assumption | apply State.put_keeps | apply State.setGran_keeps | apply State.granStatus_keeps | apply State.tamperNext_keeps | apply State.wearInc_keeps | apply State.pfEnd_keeps | apply Keeps.ite | apply Keeps.iteFst | apply Keeps.foldlFst)
    | (dsimp only)
    | split

theorem State.granMarks_keeps {base s : State} {marks : List Nat} (hk : Keeps base s) : Keeps base (State.granMarks s marks) := by
  unfold State.granMarks
  repeat' with_reducible first | intro _ | assumption | apply State.setGran_keeps | apply State.putSat_keeps | apply State.put_keeps | apply Keeps.foldl | apply Keeps.foldlFst | rfl

theorem State.pfMark_keeps {base s : State} {first : Nat} {n : Nat} {set : Bool} (hk : Keeps base s) : Keeps base (State.pfMark s first n set).1 := by
  unfold State.pfMark
  repeat' with_reducible first | intro _ | assumption | apply State.granMarks_keeps | apply Keeps.ite | apply Keeps.iteFst

theorem State.recoverPage_keeps {base s : State} {p : Nat} (hk : Keeps base s) : Keeps base (State.recoverPage s p) := by
  unfold State.recoverPage
  repeat' with_reducible first | intro _ | assumption | apply State.sramWrite_keeps | apply State.put_keeps | apply State.putB_keeps | apply State.setGran_keeps | apply State.occur_keeps | apply State.raise_keeps | apply State.bump_keeps | apply State.setPage_keeps | apply State.copyIn_keeps | apply Keeps.ite | rfl

theorem State.recoverStart_keeps {base s : State} (hk : Keeps base s) : Keeps base (State.recoverStart s) := by
  unfold State.recoverStart
  repeat' with_reducible first | intro _ | assumption | apply State.setGran_keeps | apply State.putB_keeps | apply State.put_keeps | rfl

theorem State.recoverPages_keeps {base s : State} (hk : Keeps base s) : Keeps base (State.recoverPages s) := by
  unfold State.recoverPages
  repeat' with_reducible first | intro _ | assumption | apply State.recoverPage_keeps | apply Keeps.foldl

theorem State.recoverEnd_keeps {base s : State} (hk : Keeps base s) : Keeps base (State.recoverEnd s) := by
  unfold State.recoverEnd
  repeat' with_reducible first | intro _ | assumption | apply State.setGran_keeps | apply State.put_keeps | apply State.raise_keeps | apply State.putB_keeps | apply State.granStatus_keeps | apply State.lockStatus_keeps | apply State.granMarks_keeps | apply Keeps.ite | rfl

theorem State.granRecover_keeps {base s : State} (hk : Keeps base s) : Keeps base (State.granRecover s) := by
  unfold State.granRecover
  repeat' with_reducible first | intro _ | assumption | apply State.recoverEnd_keeps | apply State.recoverPages_keeps | apply State.recoverStart_keeps

/-! ## Hearth -/

theorem State.putCount_keeps {base s : State} (hk : Keeps base s) : Keeps base (State.putCount s) := by
  unfold State.putCount
  repeat' with_reducible first | intro _ | assumption | apply State.put_keeps

theorem State.refit_keeps {base s : State} (hk : Keeps base s) : Keeps base (State.refit s) := by
  unfold State.refit
  repeat' with_reducible first | intro _ | assumption | apply State.setHearth_keeps

theorem State.applyModel_keeps {base s : State} {m : Option Model} (hk : Keeps base s) : Keeps base (State.applyModel s m) := by
  unfold State.applyModel
  repeat' first
    | (with_reducible first | intro _ | assumption | apply State.putB_keeps | apply State.setHearth_keeps)

theorem State.refitTakes_keeps {base s : State} (hk : Keeps base s) : Keeps base (State.refitTakes s) := by
  unfold State.refitTakes
  repeat' first
    | (with_reducible first | intro _ | assumption | apply State.putB_keeps | apply State.setHearth_keeps | apply State.applyModel_keeps)
    | (dsimp only)
    | split

theorem State.freshBytes_keeps {base s : State} {n : Nat} (h : Keeps base s) : Keeps base (s.freshBytes n).2 := by
  induction n generalizing s with
  | zero => exact h
  | succ n ih => exact ih (State.fresh_keeps (width := 8) h)

theorem State.hrtWrite_keeps {base s : State} {page : Nat} {off : Nat} {n : Nat} (hk : Keeps base s) : Keeps base (State.hrtWrite s page off n) := by
  unfold State.hrtWrite
  repeat' first
    | (with_reducible first | intro _ | assumption | apply State.freshBytes_keeps | apply State.setDirty_keeps | apply State.sramWrite_keeps)

theorem State.hrtStored_keeps {base s : State} {p : Nat} (hk : Keeps base s) : Keeps base (State.hrtStored s p) := by
  unfold State.hrtStored
  repeat' first
    | (with_reducible first | intro _ | assumption | apply State.setHearth_keeps | apply Keeps.ite)
    | (dsimp only)
    | split

theorem State.hrtMarks_keeps {base s : State} (hk : Keeps base s) : Keeps base (State.hrtMarks s) := by
  unfold State.hrtMarks
  repeat' first
    | (with_reducible first | intro _ | assumption | apply State.pfMark_keeps | apply Keeps.ite)
    | (dsimp only)
    | split

theorem State.hrtLocCheck_keeps {base s : State} (hk : Keeps base s) : Keeps base (State.hrtLocCheck s) := by
  unfold State.hrtLocCheck
  repeat' first
    | (with_reducible first | intro _ | assumption | apply State.setHearth_keeps | apply State.hrtWrite_keeps | apply State.hrtMarks_keeps | apply Keeps.ite | apply Keeps.foldl | apply Keeps.foldlFst)
    | (dsimp only)
    | split

theorem State.startInterval_keeps {base s : State} {t : Nat} (hk : Keeps base s) : Keeps base (State.startInterval s t) := by
  unfold State.startInterval
  repeat' with_reducible first | intro _ | assumption | apply State.setHearth_keeps | apply Keeps.ite | apply Keeps.mk' | rfl

theorem State.closeInterval_keeps {base s : State} (hk : Keeps base s) : Keeps base (State.closeInterval s) := by
  unfold State.closeInterval
  repeat' first
    | (with_reducible first | intro _ | assumption | apply State.setHearth_keeps | apply State.startInterval_keeps | apply Keeps.ite)
    | (dsimp only)
    | split

theorem State.hearthTick_keeps {base s : State} (hk : Keeps base s) : Keeps base (State.hearthTick s) := by
  unfold State.hearthTick
  repeat' first
    | (with_reducible first | intro _ | assumption | apply State.setHearth_keeps | apply State.closeInterval_keeps | apply Keeps.ite | apply Keeps.mk' | rfl)
    | (dsimp only)
    | split

theorem State.hearthLatch_keeps {base s : State} (hk : Keeps base s) : Keeps base (State.hearthLatch s) := by
  unfold State.hearthLatch
  repeat' first
    | (with_reducible first | intro _ | assumption | apply State.putB_keeps | apply State.setHearth_keeps | apply State.startInterval_keeps | apply State.closeInterval_keeps | apply Keeps.ite | apply Keeps.mk' | rfl)
    | (dsimp only)
    | split

theorem State.hearthStepped_keeps {base s : State} (hk : Keeps base s) : Keeps base (State.hearthStepped s) := by
  unfold State.hearthStepped
  repeat' with_reducible first | intro _ | assumption | apply State.setHearth_keeps

theorem State.dropFuture_keeps {base s : State} (hk : Keeps base s) : Keeps base (State.dropFuture s) := by
  unfold State.dropFuture
  repeat' first
    | (with_reducible first | intro _ | assumption | apply State.setHearth_keeps | apply State.putCount_keeps | apply Keeps.ite)
    | (dsimp only)
    | split

theorem State.intervalEnd_keeps {base s : State} (hk : Keeps base s) : Keeps base (State.intervalEnd s) := by
  unfold State.intervalEnd
  repeat' first
    | (with_reducible first | intro _ | assumption | apply State.setHearth_keeps | apply State.hrtWrite_keeps | apply State.refit_keeps | apply State.putCount_keeps | apply State.startInterval_keeps | apply Keeps.ite)
    | (dsimp only)
    | split
    | (with_reducible first | apply Keeps.mk')

theorem State.hearthStatus_keeps {base s : State} (hk : Keeps base s) : Keeps base (State.hearthStatus s) := by
  unfold State.hearthStatus
  repeat' with_reducible first | intro _ | assumption | apply State.put_keeps | apply State.putB_keeps | apply State.putSat_keeps | apply Keeps.ite | apply Keeps.foldl

theorem State.tempBounds_keeps {base s : State} {was : Option Bool} {is : Option Bool} (hk : Keeps base s) : Keeps base (State.tempBounds s was is) := by
  unfold State.tempBounds
  repeat' first
    | (with_reducible first | intro _ | assumption | apply State.raise_keeps | apply Keeps.ite)
    | (dsimp only)
    | split

theorem State.tempTaken_keeps {base s : State} {v : Int} (hk : Keeps base s) : Keeps base (State.tempTaken s v) := by
  unfold State.tempTaken
  extract_lets t s1
  have h1 : Keeps base s1 := State.setHearth_keeps (State.putI_keeps hk)
  clear_value s1
  split
  · exact State.putB_keeps h1
  · extract_lets g hi lo was s2
    split
    · exact State.putB_keeps h1
    · exact State.putB_keeps (State.setHearth_keeps (State.tempBounds_keeps h1))

theorem State.tempReading_keeps {base s : State} {die : Int} {therm : Option Int} (hk : Keeps base s) : Keeps base (State.tempReading s die therm) := by
  unfold State.tempReading
  repeat' first
    | (with_reducible first | intro _ | assumption | apply State.heldStart_keeps | apply State.heldEnd_keeps | apply State.setHearth_keeps | apply State.tempTaken_keeps | apply Keeps.ite)
    | (dsimp only)
    | split

theorem State.advanceAnchors_keeps {base s : State} {dt : Int} (hk : Keeps base s) : Keeps base (State.advanceAnchors s dt) := by
  unfold State.advanceAnchors
  repeat' first
    | (with_reducible first | intro _ | assumption | apply Keeps.ite)
    | (dsimp only)
    | split
    | (with_reducible first | apply Keeps.mk')

theorem State.startEstimate_keeps {base s : State} {t0 : Nat} (hk : Keeps base s) : Keeps base (State.startEstimate s t0) := by
  unfold State.startEstimate
  repeat' first
    | (with_reducible first | intro _ | assumption | apply State.setHearth_keeps | apply Keeps.ite)

theorem State.syncQuality_keeps {base s : State} (hk : Keeps base s) : Keeps base (State.syncQuality s) := by
  unfold State.syncQuality
  repeat' first
    | (with_reducible first | intro _ | assumption | apply State.put_keeps | apply State.setHearth_keeps | apply State.fresh_keeps | apply State.startEstimate_keeps | apply State.putB_keeps | apply Keeps.ite)
    | (dsimp only)
    | split
    | (with_reducible first | apply Keeps.mk')
    | exact rfl

theorem State.hearthClear_keeps {base s : State} (hk : Keeps base s) : Keeps base (State.hearthClear s) := by
  unfold State.hearthClear
  extract_lets s1 s2 s3
  have h1 : Keeps base s1 := by
    refine Keeps.foldl hk fun x c hx => ?_
    dsimp only
    split
    · exact State.setChan_keeps hx
    · exact hx
  clear_value s1
  have h2 : Keeps base s2 := Keeps.mk' h1 rfl rfl rfl rfl rfl rfl rfl
  clear_value s2
  exact State.putB_keeps (State.putCount_keeps (State.applyModel_keeps (State.setHearth_keeps h2)))

theorem State.hearthStop_keeps {base s : State} (hk : Keeps base s) : Keeps base (State.hearthStop s) := by
  unfold State.hearthStop
  repeat' with_reducible first | intro _ | assumption | apply State.putB_keeps | apply State.setHearth_keeps

theorem State.hearthResume_keeps {base s : State} (hk : Keeps base s) : Keeps base (State.hearthResume s) := by
  unfold State.hearthResume
  repeat' with_reducible first | intro _ | assumption | apply State.setHearth_keeps

theorem State.hearthHalt_keeps {base s : State} (hk : Keeps base s) : Keeps base (State.hearthHalt s) := by
  unfold State.hearthHalt
  repeat' with_reducible first | intro _ | assumption | apply State.putB_keeps | apply State.setHearth_keeps

theorem State.hearthStore_keeps {base s : State} (hk : Keeps base s) : Keeps base (State.hearthStore s).1 := by
  unfold State.hearthStore
  repeat' first
    | (with_reducible first | intro _ | assumption | apply State.storeRequest_keeps)
    | (dsimp only)
    | split

theorem State.latchHearth_keeps {base s : State} (hk : Keeps base s) : Keeps base (State.latchHearth s) := by
  unfold State.latchHearth
  repeat' first
    | (with_reducible first | intro _ | assumption | apply State.setHearth_keeps | apply State.put64_keeps | apply State.putSat_keeps | apply State.putSatI_keeps | apply Keeps.ite | apply Keeps.foldl | apply Keeps.foldlFst)
    | (dsimp only)
    | split

theorem State.emberEnter_keeps {base s : State} (hk : Keeps base s) : Keeps base (State.emberEnter s) := by
  unfold State.emberEnter
  repeat' first
    | (with_reducible first | intro _ | assumption | apply State.startEstimate_keeps | apply State.setHearth_keeps | apply Keeps.ite)
    | (dsimp only)
    | split
    | (with_reducible first | apply Keeps.mk')
    | exact rfl

theorem State.emberSecondStep_keeps {base s : State} (hk : Keeps base s) : Keeps base (State.emberSecondStep s) := by
  unfold State.emberSecondStep
  repeat' first
    | (with_reducible first | intro _ | assumption | apply State.setHearth_keeps | apply Keeps.ite)
    | (dsimp only)
    | split
    | (with_reducible first | apply Keeps.mk')
    | exact rfl

theorem State.hearthLoad_keeps {base s : State} {cold : Bool} (hk : Keeps base s) : Keeps base (State.hearthLoad s cold) := by
  unfold State.hearthLoad
  repeat' first
    | (with_reducible first | intro _ | assumption | apply State.setHearth_keeps | apply State.applyModel_keeps | apply State.putCount_keeps | apply Keeps.ite | apply Keeps.foldl | apply Keeps.foldlFst)
    | (dsimp only)
    | split

theorem State.resumeMeans_keeps {base s : State} (hk : Keeps base s) : Keeps base (State.resumeMeans s) := by
  unfold State.resumeMeans
  repeat' with_reducible first | intro _ | assumption | apply State.setHearth_keeps | apply Keeps.ite | apply Keeps.mk' | rfl

theorem State.emberResume_keeps {base s : State} (hk : Keeps base s) : Keeps base (State.emberResume s) := by
  unfold State.emberResume
  repeat' with_reducible first | intro _ | assumption | apply State.setChan_keeps | apply State.setHearth_keeps | apply Keeps.ite | apply Keeps.foldl

end Sys2Proof.Machine
end

