-- ==== Sys2Proof/Laws/KeepsOutputs.lean ====
section
/-! SUPPORT. Every function of Looms, outputs, generators, Lens, Tally and the LTC keeps the variant, the queue and the canonical form. -/

namespace Sys2Proof.Machine

/-! ## Outputs -/

theorem State.setLoom_keeps {base s : State} {n : Nat} {f : LoomSt → LoomSt} (hk : Keeps base s) : Keeps base (State.setLoom s n f) := by
  unfold State.setLoom
  repeat' with_reducible first | intro _ | assumption | apply Keeps.mk' | rfl

theorem State.setOut_keeps {base s : State} {o : Nat} {f : OutSt → OutSt} (hk : Keeps base s) : Keeps base (State.setOut s o f) := by
  unfold State.setOut
  repeat' with_reducible first | intro _ | assumption | apply Keeps.mk' | rfl

theorem State.setBridge_keeps {base s : State} {g : Nat} {f : BridgeSt → BridgeSt} (hk : Keeps base s) : Keeps base (State.setBridge s g f) := by
  unfold State.setBridge
  repeat' with_reducible first | intro _ | assumption | apply Keeps.mk' | rfl

theorem State.setTcd_keeps {base s : State} {f : TcdSt → TcdSt} (hk : Keeps base s) : Keeps base (State.setTcd s f) := by
  unfold State.setTcd
  repeat' with_reducible first | intro _ | assumption | apply Keeps.mk' | rfl

theorem State.syncPend_keeps {base s : State} {o : Nat} (hk : Keeps base s) : Keeps base (State.syncPend s o) := by
  unfold State.syncPend
  repeat' with_reducible first | intro _ | assumption | apply State.putB_keeps

theorem State.outTake_keeps {base s : State} {o : Nat} (hk : Keeps base s) : Keeps base (State.outTake s o) := by
  unfold State.outTake
  repeat' with_reducible first | intro _ | assumption | apply State.putB_keeps | apply State.setOut_keeps

theorem State.fineEnd_keeps {base s : State} {o : Nat} (hk : Keeps base s) : Keeps base (State.fineEnd s o) := by
  unfold State.fineEnd
  repeat' with_reducible first | intro _ | assumption | apply State.setOut_keeps | apply State.putB_keeps

theorem State.pulseLow_keeps {base s : State} {o : Nat} (hk : Keeps base s) : Keeps base (State.pulseLow s o).2 := by
  unfold State.pulseLow
  repeat' first
    | (with_reducible first | intro _ | assumption | apply State.fresh_keeps | apply Keeps.ite | apply Keeps.iteFst | apply Keeps.foldlFst)
    | (dsimp only)
    | split

theorem State.outStop_keeps {base s : State} {o : Nat} (hk : Keeps base s) : Keeps base (State.outStop s o) := by
  unfold State.outStop
  repeat' first
    | (with_reducible first | intro _ | assumption | apply State.setOut_keeps | apply State.fineEnd_keeps | apply State.pulseLow_keeps | apply Keeps.ite | apply Keeps.iteFst | apply Keeps.foldlFst)
    | (dsimp only)
    | split

theorem State.outStart_keeps {base s : State} {o : Nat} (hk : Keeps base s) : Keeps base (State.outStart s o) := by
  unfold State.outStart
  repeat' with_reducible first | intro _ | assumption | apply State.outTake_keeps | apply State.put_keeps | apply State.setOut_keeps | apply Keeps.ite

theorem State.outEvent_keeps {base s : State} {o : Nat} {cond : Nat} {reason : Nat} (hk : Keeps base s) : Keeps base (State.outEvent s o cond reason) := by
  unfold State.outEvent
  repeat' with_reducible first | intro _ | assumption | apply State.raise_keeps

theorem State.outPolicy_keeps {base s : State} {o : Nat} (hk : Keeps base s) : Keeps base (State.outPolicy s o) := by
  unfold State.outPolicy
  repeat' with_reducible first | intro _ | assumption | apply State.putB_keeps | apply State.setBridge_keeps | apply State.outEvent_keeps | apply State.put_keeps | apply State.setOut_keeps | apply State.outStop_keeps | apply Keeps.ite

theorem State.loomPolicy_keeps {base s : State} {n : Nat} (hk : Keeps base s) : Keeps base (State.loomPolicy s n) := by
  unfold State.loomPolicy
  repeat' with_reducible first | intro _ | assumption | apply State.outPolicy_keeps | apply Keeps.foldl

theorem State.loomReturn_keeps {base s : State} {n : Nat} (hk : Keeps base s) : Keeps base (State.loomReturn s n) := by
  unfold State.loomReturn
  repeat' first
    | (with_reducible first | intro _ | assumption | apply State.outEvent_keeps | apply State.outStart_keeps | apply State.put_keeps | apply State.fresh_keeps | apply State.setOut_keeps | apply Keeps.ite | apply Keeps.foldl)

theorem State.outFine_keeps {base s : State} {o : Nat} {old : Nat} {t : Rat} (hk : Keeps base s) : Keeps base (State.outFine s o old t) := by
  unfold State.outFine
  repeat' first
    | (with_reducible first | intro _ | assumption | apply State.putB_keeps | apply State.setOut_keeps | apply Keeps.ite)
    | (dsimp only)
    | split

theorem State.outEnable_keeps {base s : State} {o : Nat} (hk : Keeps base s) : Keeps base (State.outEnable s o) := by
  unfold State.outEnable
  repeat' with_reducible first | intro _ | assumption | apply State.outTake_keeps | apply State.setOut_keeps | apply State.putB_keeps | apply State.outPolicy_keeps | apply State.outStart_keeps | apply Keeps.ite

theorem State.outDisable_keeps {base s : State} {o : Nat} (hk : Keeps base s) : Keeps base (State.outDisable s o) := by
  unfold State.outDisable
  repeat' with_reducible first | intro _ | assumption | apply State.outStop_keeps | apply State.putB_keeps | apply State.put_keeps | apply State.setOut_keeps | apply State.fineEnd_keeps

theorem State.outFollow_keeps {base s : State} {o : Nat} (hk : Keeps base s) : Keeps base (State.outFollow s o) := by
  unfold State.outFollow
  repeat' first
    | (with_reducible first | intro _ | assumption | apply State.putB_keeps | apply State.setOut_keeps | apply State.outEnable_keeps | apply State.outDisable_keeps | apply Keeps.ite)
    | (dsimp only)
    | split

theorem State.outputsFollow_keeps {base s : State} (hk : Keeps base s) : Keeps base (State.outputsFollow s) := by
  unfold State.outputsFollow
  repeat' with_reducible first | intro _ | assumption | apply State.outFollow_keeps | apply Keeps.ite | apply Keeps.foldl

theorem State.outCtl_keeps {base s : State} {o : Nat} {pl : List Byte} (hk : Keeps base s) : Keeps base (State.outCtl s o pl).1 := by
  unfold State.outCtl
  repeat' with_reducible first | intro _ | assumption | apply State.outDisable_keeps | apply State.putB_keeps | apply State.put_keeps | apply State.outFine_keeps | apply State.outFollow_keeps | apply State.syncPend_keeps | apply Keeps.ite | apply Keeps.iteFst

theorem State.limitCheck_keeps {base s : State} {o : Nat} (hk : Keeps base s) : Keeps base (State.limitCheck s o) := by
  unfold State.limitCheck
  repeat' with_reducible first | intro _ | assumption | apply State.put_keeps | apply State.outStop_keeps | apply Keeps.ite

theorem State.limitLoom_keeps {base s : State} {n : Nat} (hk : Keeps base s) : Keeps base (State.limitLoom s n) := by
  unfold State.limitLoom
  repeat' with_reducible first | intro _ | assumption | apply State.limitCheck_keeps | apply Keeps.foldl

theorem State.bridgeBoundary_keeps {base s : State} {g : Nat} (hk : Keeps base s) : Keeps base (State.bridgeBoundary s g) := by
  unfold State.bridgeBoundary
  repeat' with_reducible first | intro _ | assumption | apply State.setBridge_keeps | apply State.put_keeps | apply State.putB_keeps | apply Keeps.ite

theorem State.bridgeReadyStep_keeps {base s : State} {g : Nat} (hk : Keeps base s) : Keeps base (State.bridgeReadyStep s g) := by
  unfold State.bridgeReadyStep
  repeat' with_reducible first | intro _ | assumption | apply State.putB_keeps | apply Keeps.ite

theorem State.firstEdge_keeps {base s : State} {o : Nat} (hk : Keeps base s) : Keeps base (State.firstEdge s o) := by
  unfold State.firstEdge
  repeat' with_reducible first | intro _ | assumption | apply State.put_keeps | apply State.putB_keeps | apply State.setOut_keeps | apply Keeps.ite

theorem State.bypassFirst_keeps {base s : State} {o : Nat} {t : Rat} (hk : Keeps base s) : Keeps base (State.bypassFirst s o t) := by
  unfold State.bypassFirst
  repeat' first
    | (with_reducible first | intro _ | assumption | apply State.setOut_keeps | apply State.firstEdge_keeps)
    | (dsimp only)
    | split

theorem State.bypassEdge_keeps {base s : State} {o : Nat} {t : Rat} {lead : Bool} (hk : Keeps base s) : Keeps base (State.bypassEdge s o t lead) := by
  unfold State.bypassEdge
  repeat' first
    | (with_reducible first | intro _ | assumption | apply State.setOut_keeps | apply State.bypassFirst_keeps | apply Keeps.ite)
    | (dsimp only)
    | split

theorem State.sgResetOut_keeps {base s : State} {g : Nat} {o : Nat} {after : Nat} (hk : Keeps base s) : Keeps base (State.sgResetOut s g o after).1 := by
  unfold State.sgResetOut
  repeat' with_reducible first | intro _ | assumption | apply State.outTake_keeps | apply State.putB_keeps | apply State.put_keeps | apply State.setOut_keeps | apply Keeps.ite | apply Keeps.iteFst

theorem State.sgReset_keeps {base s : State} {g : Nat} {after : Nat} {pin : Bool} (hk : Keeps base s) : Keeps base (State.sgReset s g after pin) := by
  unfold State.sgReset
  repeat' first
    | (with_reducible first | intro _ | assumption | apply State.sgResetOut_keeps | apply State.put_keeps | apply State.raise_keeps | apply Keeps.ite | apply Keeps.foldl | apply Keeps.foldlFst)

theorem State.sgCommand_keeps {base s : State} {g : Nat} (hk : Keeps base s) : Keeps base (State.sgCommand s g) := by
  unfold State.sgCommand
  repeat' with_reducible first | intro _ | assumption | apply State.setTcd_keeps | apply State.sgReset_keeps | apply Keeps.ite

theorem State.sgResets_keeps {base s : State} (hk : Keeps base s) : Keeps base (State.sgResets s) := by
  unfold State.sgResets
  repeat' first
    | (with_reducible first | intro _ | assumption | apply State.setTcd_keeps | apply State.sgReset_keeps | apply Keeps.foldl)
    | (dsimp only)
    | split

theorem State.sgEnd_keeps {base s : State} {g : Nat} (hk : Keeps base s) : Keeps base (State.sgEnd s g) := by
  unfold State.sgEnd
  repeat' with_reducible first | intro _ | assumption | apply State.putB_keeps | apply Keeps.ite

theorem State.syncIn_keeps {base s : State} {after : Nat} (hk : Keeps base s) : Keeps base (State.syncIn s after) := by
  unfold State.syncIn
  repeat' first
    | (with_reducible first | intro _ | assumption | apply State.put_keeps | apply State.putB_keeps | apply State.nextSeq_keeps | apply State.firstEdge_keeps | apply State.sgReset_keeps | apply State.sgEnd_keeps | apply State.bump_keeps | apply Keeps.ite | apply Keeps.foldl | apply Keeps.iteFst | apply Keeps.foldlFst)
    | (dsimp only)
    | split

theorem State.syncGroup_keeps {base s : State} {groups : Nat} {act : Nat} (hk : Keeps base s) : Keeps base (State.syncGroup s groups act) := by
  unfold State.syncGroup
  repeat' first
    | (with_reducible first | intro _ | assumption | apply State.sgCommand_keeps | apply State.putB_keeps | apply Keeps.ite | apply Keeps.foldl | apply Keeps.foldlFst)
    | (dsimp only)
    | split

/-! ## Loom -/

theorem State.loomSetState_keeps {base s : State} {n : Nat} {st : Nat} {cause : Nat} (hk : Keeps base s) : Keeps base (State.loomSetState s n st cause) := by
  unfold State.loomSetState
  repeat' with_reducible first | intro _ | assumption | apply State.put_keeps | apply State.raise_keeps | apply Keeps.ite

theorem State.showFc_keeps {base s : State} {n : Nat} (hk : Keeps base s) : Keeps base (State.showFc s n) := by
  unfold State.showFc
  repeat' first
    | (with_reducible first | intro _ | assumption | apply State.put_keeps | apply Keeps.ite)
    | (dsimp only)
    | split

theorem State.searchAt_keeps {base s : State} {n : Nat} {start : Nat} {cause : Nat} {reset : Bool} (hk : Keeps base s) : Keeps base (State.searchAt s n start cause reset) := by
  unfold State.searchAt
  repeat' first
    | (with_reducible first | intro _ | assumption | apply State.setLoom_keeps | apply State.put_keeps | apply State.putB_keeps | apply State.loomPolicy_keeps | apply State.loomSetState_keeps)

theorem State.search_keeps {base s : State} {n : Nat} {cause : Nat} {reset : Bool} (hk : Keeps base s) : Keeps base (State.search s n cause reset) := by
  unfold State.search
  repeat' with_reducible first | intro _ | assumption | apply State.searchAt_keeps

theorem State.setPhase_keeps {base s : State} {n : Nat} {p : Phase} (hk : Keeps base s) : Keeps base (State.setPhase s n p) := by
  unfold State.setPhase
  repeat' with_reducible first | intro _ | assumption | apply State.setLoom_keeps

theorem State.setBand_keeps {base s : State} {n : Nat} {b : Nat} (hk : Keeps base s) : Keeps base (State.setBand s n b) := by
  unfold State.setBand
  repeat' with_reducible first | intro _ | assumption | apply State.put_keeps

theorem State.refineEnd_keeps {base s : State} {n : Nat} {start : Nat} {best : Nat × Nat} {r : Nat} (hk : Keeps base s) : Keeps base (State.refineEnd s n start best r) := by
  unfold State.refineEnd
  repeat' with_reducible first | intro _ | assumption | apply State.setBand_keeps | apply State.setPhase_keeps | apply Keeps.ite

theorem State.measure_keeps {base s : State} {n : Nat} {hz : Nat} (hk : Keeps base s) : Keeps base (State.measure s n hz) := by
  unfold State.measure
  repeat' first
    | (with_reducible first | intro _ | assumption | apply State.put_keeps | apply State.setLoom_keeps | apply State.setBand_keeps | apply State.setPhase_keeps | apply State.refineEnd_keeps | apply Keeps.ite)
    | (dsimp only)
    | split

theorem State.loomLock_keeps {base s : State} {n : Nat} (hk : Keeps base s) : Keeps base (State.loomLock s n) := by
  unfold State.loomLock
  repeat' first
    | (with_reducible first | intro _ | assumption | apply State.put_keeps | apply State.putB_keeps | apply State.setLoom_keeps | apply State.loomReturn_keeps | apply State.loomSetState_keeps | apply State.search_keeps)
    | (dsimp only)
    | split

theorem State.attemptFail_keeps {base s : State} {n : Nat} (hk : Keeps base s) : Keeps base (State.attemptFail s n) := by
  unfold State.attemptFail
  repeat' first
    | (with_reducible first | intro _ | assumption | apply State.setLoom_keeps | apply State.searchAt_keeps | apply State.loomSetState_keeps | apply State.bump_keeps | apply State.occur_keeps | apply Keeps.ite)
    | (dsimp only)
    | split

theorem State.loomLoss_keeps {base s : State} {n : Nat} (hk : Keeps base s) : Keeps base (State.loomLoss s n) := by
  unfold State.loomLoss
  repeat' first
    | (with_reducible first | intro _ | assumption | apply State.putB_keeps | apply State.occur_keeps | apply State.setLoom_keeps | apply State.loomPolicy_keeps | apply State.loomSetState_keeps | apply State.showFc_keeps | apply State.search_keeps | apply State.setPhase_keeps | apply State.bump_keeps | apply Keeps.ite)
    | (dsimp only)
    | split

theorem State.bandHop_keeps {base s : State} {n : Nat} {fine : Int} {after : Int} (hk : Keeps base s) : Keeps base (State.bandHop s n fine after) := by
  unfold State.bandHop
  repeat' with_reducible first | intro _ | assumption | apply State.setBand_keeps | apply State.putI_keeps | apply State.bump_keeps | apply Keeps.ite

theorem State.latchBand_keeps {base s : State} {n : Nat} (hk : Keeps base s) : Keeps base (State.latchBand s n) := by
  unfold State.latchBand
  repeat' with_reducible first | intro _ | assumption | apply State.putB_keeps | apply State.put_keeps | apply State.setLoom_keeps | apply Keeps.ite

theorem State.setFc_keeps {base s : State} {n : Nat} {fc : Nat} (hk : Keeps base s) : Keeps base (State.setFc s n fc) := by
  unfold State.setFc
  repeat' first
    | (with_reducible first | intro _ | assumption | apply State.setLoom_keeps | apply State.showFc_keeps | apply Keeps.ite)
    | (dsimp only)
    | split

theorem State.glideStep_keeps {base s : State} {n : Nat} (hk : Keeps base s) : Keeps base (State.glideStep s n) := by
  unfold State.glideStep
  repeat' first
    | (with_reducible first | intro _ | assumption | apply State.setFc_keeps | apply State.loomSetState_keeps | apply State.setLoom_keeps | apply Keeps.ite)
    | (dsimp only)
    | split

theorem State.loomEnable_keeps {base s : State} {n : Nat} (hk : Keeps base s) : Keeps base (State.loomEnable s n) := by
  unfold State.loomEnable
  repeat' with_reducible first | intro _ | assumption | apply State.search_keeps | apply State.setLoom_keeps | apply State.loomPolicy_keeps | apply State.put_keeps | apply State.putB_keeps | apply State.loomSetState_keeps | apply Keeps.ite

theorem State.loomChange_keeps {base s : State} {n : Nat} {relock : Bool} (hk : Keeps base s) : Keeps base (State.loomChange s n relock) := by
  unfold State.loomChange
  repeat' first
    | (with_reducible first | intro _ | assumption | apply State.setLoom_keeps | apply State.loomPolicy_keeps | apply State.limitLoom_keeps | apply State.loomSetState_keeps | apply State.showFc_keeps | apply State.search_keeps | apply State.glideStep_keeps | apply State.loomEnable_keeps | apply Keeps.ite)
    | (dsimp only)
    | split

theorem State.combJump_keeps {base s : State} {n : Nat} {j : Rat} (hk : Keeps base s) : Keeps base (State.combJump s n j) := by
  unfold State.combJump
  repeat' with_reducible first | intro _ | assumption | apply State.setLoom_keeps | apply State.putB_keeps | apply Keeps.ite | apply Keeps.foldl

theorem State.combJumps_keeps {base s : State} (hk : Keeps base s) : Keeps base (State.combJumps s) := by
  unfold State.combJumps
  repeat' with_reducible first | intro _ | assumption | apply State.combJump_keeps | apply Keeps.foldl | apply Keeps.foldlFst | apply Keeps.mk' | rfl

theorem State.slewEnd_keeps {base s : State} {n : Nat} (hk : Keeps base s) : Keeps base (State.slewEnd s n) := by
  unfold State.slewEnd
  repeat' with_reducible first | intro _ | assumption | apply State.putB_keeps | apply State.setLoom_keeps | apply Keeps.ite

theorem State.loomBoundary_keeps {base s : State} {n : Nat} (hk : Keeps base s) : Keeps base (State.loomBoundary s n) := by
  unfold State.loomBoundary
  repeat' with_reducible first | intro _ | assumption | apply State.search_keeps | apply State.latchBand_keeps | apply State.loomEnable_keeps | apply State.loomChange_keeps | apply Keeps.ite

theorem State.measureTick_keeps {base s : State} {n : Nat} (hk : Keeps base s) : Keeps base (State.measureTick s n) := by
  unfold State.measureTick
  repeat' first
    | (with_reducible first | intro _ | assumption | apply State.put_keeps | apply State.fresh_keeps | apply Keeps.ite | apply Keeps.iteFst | apply Keeps.foldlFst)
    | (dsimp only)
    | split

theorem State.loomDue_keeps {base s : State} (hk : Keeps base s) : Keeps base (State.loomDue s) := by
  unfold State.loomDue
  repeat' first
    | (with_reducible first | intro _ | assumption | apply State.fineEnd_keeps | apply State.bridgeReadyStep_keeps | apply State.firstEdge_keeps | apply State.sgEnd_keeps | apply State.loomLock_keeps | apply State.attemptFail_keeps | apply State.glideStep_keeps | apply State.slewEnd_keeps | apply State.measureTick_keeps | apply Keeps.ite | apply Keeps.foldl)
    | (dsimp only)
    | split

theorem State.groupResets_keeps {base s : State} (hk : Keeps base s) : Keeps base (State.groupResets s) := by
  unfold State.groupResets
  repeat' first
    | (with_reducible first | intro _ | assumption | apply State.sgResets_keeps | apply State.loomLock_keeps | apply Keeps.ite | apply Keeps.foldl)
    | (dsimp only)
    | split

theorem State.loomTune_keeps {base s : State} {n : Nat} {pl : List Byte} (hk : Keeps base s) : Keeps base (State.loomTune s n pl).1 := by
  unfold State.loomTune
  repeat' with_reducible first | intro _ | assumption | apply State.setLoom_keeps | apply State.put64_keeps | apply State.put_keeps | apply State.loomChange_keeps | apply Keeps.ite | apply Keeps.iteFst

theorem State.loomRelock_keeps {base s : State} {n : Nat} (hk : Keeps base s) : Keeps base (State.loomRelock s n).1 := by
  unfold State.loomRelock
  repeat' first
    | (with_reducible first | intro _ | assumption | apply State.search_keeps | apply State.loomEnable_keeps | apply Keeps.ite)
    | (dsimp only)
    | split

/-! ## Tcd -/

theorem State.ppsEdge_keeps {base s : State} (hk : Keeps base s) : Keeps base (State.ppsEdge s) := by
  unfold State.ppsEdge
  repeat' first
    | (with_reducible first | intro _ | assumption | apply State.setTcd_keeps | apply State.firstEdge_keeps | apply Keeps.ite | apply Keeps.foldl | apply Keeps.foldlFst)
    | (dsimp only)
    | split

theorem State.latchTq_keeps {base s : State} (hk : Keeps base s) : Keeps base (State.latchTq s) := by
  unfold State.latchTq
  repeat' first
    | (with_reducible first | intro _ | assumption | apply State.setTcd_keeps)
    | (dsimp only)
    | split

theorem State.frame_keeps {base s : State} (hk : Keeps base s) : Keeps base (State.frame s) := by
  unfold State.frame
  repeat' first
    | (with_reducible first | intro _ | assumption | apply State.setTcd_keeps | apply State.putB_keeps | apply State.put_keeps | apply State.firstEdge_keeps | apply Keeps.ite | apply Keeps.foldl)

theorem State.frameCut_keeps {base s : State} (hk : Keeps base s) : Keeps base (State.frameCut s) := by
  unfold State.frameCut
  repeat' with_reducible first | intro _ | assumption | apply State.setTcd_keeps

theorem State.tcdBoundary_keeps {base s : State} (hk : Keeps base s) : Keeps base (State.tcdBoundary s) := by
  unfold State.tcdBoundary
  repeat' with_reducible first | intro _ | assumption | apply State.setTcd_keeps | apply State.putB_keeps | apply Keeps.ite

theorem State.tcdCtl_keeps {base s : State} {pl : List Byte} (hk : Keeps base s) : Keeps base (State.tcdCtl s pl) := by
  unfold State.tcdCtl
  repeat' with_reducible first | intro _ | assumption | apply State.putWord_keeps | apply State.setTcd_keeps | apply Keeps.ite

/-! ## Lens -/

theorem State.setLens_keeps {base s : State} {f : LensSt → LensSt} (hk : Keeps base s) : Keeps base (State.setLens s f) := by
  unfold State.setLens
  repeat' with_reducible first | intro _ | assumption | apply Keeps.mk' | rfl

theorem State.setLensIn_keeps {base s : State} {i : Nat} {f : LensIn → LensIn} (hk : Keeps base s) : Keeps base (State.setLensIn s i f) := by
  unfold State.setLensIn
  repeat' with_reducible first | intro _ | assumption | apply State.setLens_keeps

theorem State.setUnit_keeps {base s : State} {u : Nat} {f : BurstSt → BurstSt} (hk : Keeps base s) : Keeps base (State.setUnit s u f) := by
  unfold State.setUnit
  repeat' with_reducible first | intro _ | assumption | apply State.setLens_keeps

theorem State.putNstops_keeps {base s : State} {u : Nat} (hk : Keeps base s) : Keeps base (State.putNstops s u) := by
  unfold State.putNstops
  repeat' with_reducible first | intro _ | assumption | apply State.put_keeps

theorem State.burstClose_keeps {base s : State} {u : Nat} {endc : Nat} (hk : Keeps base s) : Keeps base (State.burstClose s u endc) := by
  unfold State.burstClose
  repeat' with_reducible first | intro _ | assumption | apply State.setUnit_keeps | apply State.put_keeps

theorem State.burstOpen_keeps {base s : State} {u : Nat} {st : BurstStart} (hk : Keeps base s) : Keeps base (State.burstOpen s u st) := by
  unfold State.burstOpen
  repeat' first
    | (with_reducible first | intro _ | assumption | apply State.setUnit_keeps | apply State.bump_keeps | apply State.putNstops_keeps | apply State.put_keeps | apply State.burstClose_keeps | apply Keeps.ite)

theorem State.burstUse_keeps {base s : State} {u : Nat} (hk : Keeps base s) : Keeps base (State.burstUse s u) := by
  unfold State.burstUse
  repeat' first
    | (with_reducible first | intro _ | assumption | apply State.setUnit_keeps)
    | (dsimp only)
    | split

theorem State.burstArm_keeps {base s : State} {u : Nat} (hk : Keeps base s) : Keeps base (State.burstArm s u) := by
  unfold State.burstArm
  repeat' first
    | (with_reducible first | intro _ | assumption | apply State.put_keeps | apply State.putB_keeps | apply State.setUnit_keeps | apply State.burstUse_keeps)
    | (dsimp only)
    | split

theorem State.burstIdle_keeps {base s : State} {u : Nat} (hk : Keeps base s) : Keeps base (State.burstIdle s u) := by
  unfold State.burstIdle
  repeat' with_reducible first | intro _ | assumption | apply State.setUnit_keeps | apply State.putB_keeps | apply State.put_keeps

theorem State.armUnit_keeps {base s : State} {u : Nat} (hk : Keeps base s) : Keeps base (State.armUnit s u) := by
  unfold State.armUnit
  repeat' first
    | (with_reducible first | intro _ | assumption | apply State.putB_keeps | apply State.burstArm_keeps | apply Keeps.ite)
    | (dsimp only)
    | split

theorem State.burstDisarm_keeps {base s : State} {u : Nat} (hk : Keeps base s) : Keeps base (State.burstDisarm s u) := by
  unfold State.burstDisarm
  repeat' first
    | (with_reducible first | intro _ | assumption | apply State.putB_keeps | apply State.burstClose_keeps | apply State.burstIdle_keeps)
    | (dsimp only)
    | split

theorem State.burstEdge_keeps {base s : State} {u : Nat} {i : Nat} {rising : Bool} {pos : Nat} (hk : Keeps base s) : Keeps base (State.burstEdge s u i rising pos) := by
  unfold State.burstEdge
  repeat' first
    | (with_reducible first | intro _ | assumption | apply State.burstClose_keeps | apply State.bump_keeps | apply State.setUnit_keeps | apply State.burstOpen_keeps | apply State.putNstops_keeps | apply Keeps.ite)

theorem State.burstSoft_keeps {base s : State} {u : Nat} (hk : Keeps base s) : Keeps base (State.burstSoft s u).1 := by
  unfold State.burstSoft
  repeat' first
    | (with_reducible first | intro _ | assumption | apply State.burstArm_keeps | apply State.burstOpen_keeps | apply Keeps.ite | apply Keeps.iteFst)

theorem State.lensEdge_keeps {base s : State} {i : Nat} {rising : Bool} {pos : Nat} (hk : Keeps base s) : Keeps base (State.lensEdge s i rising pos) := by
  unfold State.lensEdge
  repeat' first
    | (with_reducible first | intro _ | assumption | apply State.putB_keeps | apply State.bump_keeps | apply State.setLensIn_keeps | apply State.nextSeq_keeps | apply State.setLens_keeps | apply State.burstEdge_keeps | apply Keeps.ite)
    | (dsimp only)
    | split
    | (with_reducible first | apply Keeps.mk')

theorem State.lensCross_keeps {base s : State} {i : Nat} {x : Crossing} {pos : Nat} (hk : Keeps base s) : Keeps base (State.lensCross s i x pos) := by
  unfold State.lensCross
  repeat' first
    | (with_reducible first | intro _ | assumption | apply State.lensEdge_keeps | apply Keeps.ite)
    | (dsimp only)
    | split

theorem State.syncFill_keeps {base s : State} (hk : Keeps base s) : Keeps base (State.syncFill s) := by
  unfold State.syncFill
  repeat' with_reducible first | intro _ | assumption | apply State.peak_keeps | apply State.put_keeps

theorem State.capAccept_keeps {base s : State} {ring : Nat} {tn : Nat} {recs : List Nat} (hk : Keeps base s) : Keeps base (State.capAccept s ring tn recs).1 := by
  unfold State.capAccept
  extract_lets x1 x2 x3 x4 x5 x6 x7 x8 x9 x10 x11 x12
  have hx7 : Keeps base x7 := by
    repeat' first
      | (with_reducible first | intro _ | assumption | apply State.bump_keeps | apply State.setRing_keeps)
  have hx8 : Keeps base x8 := by
    repeat' first
      | (with_reducible first | intro _ | assumption | apply State.bump_keeps | apply State.setRing_keeps | apply State.setLens_keeps)
  have hx10 : Keeps base x10 := by
    repeat' first
      | (with_reducible first | intro _ | assumption | apply State.bump_keeps)
  have hx11 : Keeps base x11 := by
    repeat' first
      | (with_reducible first | intro _ | assumption | apply State.bump_keeps | apply State.setRing_keeps | apply State.setLens_keeps | apply State.syncFill_keeps | apply State.raise_keeps | apply Keeps.ite)
  have hx12 : Keeps base x12 := by
    repeat' first
      | (with_reducible first | intro _ | assumption | apply State.bump_keeps | apply State.setRing_keeps | apply State.setLens_keeps | apply State.syncFill_keeps | apply State.raise_keeps)
  clear_value x1 x2 x3 x4 x5 x6 x7 x8 x9 x10 x11 x12
  repeat' first
    | (with_reducible first | intro _ | assumption | apply State.bump_keeps | apply State.setRing_keeps | apply State.setLens_keeps | apply State.syncFill_keeps | apply State.raise_keeps | apply Keeps.ite | apply Keeps.iteFst)
    | (dsimp only)
    | split

theorem State.groupEnter_keeps {base s : State} {u : Nat} {tn : Nat} (hk : Keeps base s) : Keeps base (State.groupEnter s u tn) := by
  unfold State.groupEnter
  repeat' first
    | (with_reducible first | intro _ | assumption | apply State.capAccept_keeps | apply State.bump_keeps | apply State.put_keeps | apply State.raise_keeps | apply Keeps.ite)
    | (dsimp only)
    | split

theorem State.windowsOver_keeps {base s : State} (hk : Keeps base s) : Keeps base (State.windowsOver s) := by
  unfold State.windowsOver
  repeat' first
    | (with_reducible first | intro _ | assumption | apply State.burstClose_keeps | apply Keeps.ite | apply Keeps.foldl)
    | (dsimp only)
    | split

theorem State.burstBoundary_keeps {base s : State} {u : Nat} {tn : Nat} (hk : Keeps base s) : Keeps base (State.burstBoundary s u tn) := by
  unfold State.burstBoundary
  repeat' with_reducible first | intro _ | assumption | apply State.groupEnter_keeps | apply State.burstArm_keeps | apply State.burstIdle_keeps | apply Keeps.ite

theorem State.lensStop_keeps {base s : State} {tn : Nat} (hk : Keeps base s) : Keeps base (State.lensStop s tn) := by
  unfold State.lensStop
  repeat' first
    | (with_reducible first | intro _ | assumption | apply State.burstClose_keeps | apply State.burstIdle_keeps | apply State.groupEnter_keeps | apply Keeps.ite | apply Keeps.foldl)
    | (dsimp only)
    | split

theorem State.lensMode_keeps {base s : State} {old : Nat} {tn : Nat} (hk : Keeps base s) : Keeps base (State.lensMode s old tn) := by
  unfold State.lensMode
  repeat' first
    | (with_reducible first | intro _ | assumption | apply State.setRing_keeps | apply State.setLens_keeps | apply State.burstIdle_keeps | apply State.syncFill_keeps | apply State.lensStop_keeps | apply Keeps.ite | apply Keeps.foldl | apply Keeps.iteFst | apply Keeps.foldlFst)
    | (dsimp only)
    | split

theorem State.lensFollow_keeps {base s : State} (hk : Keeps base s) : Keeps base (State.lensFollow s) := by
  unfold State.lensFollow
  repeat' first
    | (with_reducible first | intro _ | assumption | apply State.setLensIn_keeps | apply State.burstUse_keeps | apply State.burstArm_keeps | apply State.burstDisarm_keeps | apply Keeps.ite | apply Keeps.foldl)
    | (dsimp only)
    | split

theorem State.bufDiscard_keeps {base s : State} (hk : Keeps base s) : Keeps base (State.bufDiscard s) := by
  unfold State.bufDiscard
  repeat' with_reducible first | intro _ | assumption | apply State.setRing_keeps | apply State.bump_keeps | apply State.syncFill_keeps | apply State.setLens_keeps | apply Keeps.ite | apply Keeps.foldl

theorem State.lensAccept_keeps {base s : State} {tn : Nat} (hk : Keeps base s) : Keeps base (State.lensAccept s tn) := by
  unfold State.lensAccept
  repeat' first
    | (with_reducible first | intro _ | assumption | apply State.setLens_keeps | apply State.capAccept_keeps | apply Keeps.foldl)

theorem State.drainRing_keeps {base s : State} {ring : Nat} (hk : Keeps base s) : Keeps base (State.drainRing s ring) := by
  unfold State.drainRing
  repeat' first
    | (with_reducible first | intro _ | assumption | apply State.put_keeps | apply State.setRing_keeps | apply State.ringPut_keeps | apply State.setLens_keeps | apply State.bump_keeps | apply Keeps.ite | apply Keeps.iteFst | apply Keeps.foldlFst)
    | (dsimp only)
    | split

theorem State.capMark_keeps {base s : State} {ring : Nat} {value : Nat} (hk : Keeps base s) : Keeps base (State.capMark s ring value).1 := by
  unfold State.capMark
  repeat' with_reducible first | intro _ | assumption | apply State.setLens_keeps | apply Keeps.ite | apply Keeps.iteFst

/-! ## Tally -/

theorem State.setTally_keeps {base s : State} {f : TallySt → TallySt} (hk : Keeps base s) : Keeps base (State.setTally s f) := by
  unfold State.setTally
  repeat' with_reducible first | intro _ | assumption | apply Keeps.mk' | rfl

theorem State.setMeas_keeps {base s : State} {m : Nat} {f : Meas → Meas} (hk : Keeps base s) : Keeps base (State.setMeas s m f) := by
  unfold State.setMeas
  repeat' with_reducible first | intro _ | assumption | apply State.setTally_keeps

theorem State.setSen_keeps {base s : State} {f : SenSt → SenSt} (hk : Keeps base s) : Keeps base (State.setSen s f) := by
  unfold State.setSen
  repeat' with_reducible first | intro _ | assumption | apply State.setTally_keeps

theorem State.statRecords_keeps {base s : State} {ring : Nat} {src : Nat} {type : Nat} {flags : Nat} {sec : Nat} {ns : Nat} {spec : Nat} {vals : List Nat} (hk : Keeps base s) : Keeps base (State.statRecords s ring src type flags sec ns spec vals) := by
  unfold State.statRecords
  repeat' first
    | (with_reducible first | intro _ | assumption | apply State.raise_keeps | apply State.charge_keeps | apply State.ringPut_keeps | apply State.nextSeq_keeps | apply State.bump_keeps | apply Keeps.ite | apply Keeps.foldl | apply Keeps.iteFst | apply Keeps.foldlFst)
    | (dsimp only)
    | split

theorem State.tmRecords_keeps {base s : State} {m : Nat} {flags : Nat} {tn : Nat} {spec : Nat} {vals : List Nat} (hk : Keeps base s) : Keeps base (State.tmRecords s m flags tn spec vals) := by
  unfold State.tmRecords
  repeat' with_reducible first | intro _ | assumption | apply State.statRecords_keeps | apply State.put_keeps

theorem State.tmNext_keeps {base s : State} {m : Nat} {tn : Nat} (hk : Keeps base s) : Keeps base (State.tmNext s m tn) := by
  unfold State.tmNext
  repeat' with_reducible first | intro _ | assumption | apply State.setMeas_keeps | apply State.put_keeps | apply Keeps.ite

theorem State.tmStart_keeps {base s : State} {m : Nat} (hk : Keeps base s) : Keeps base (State.tmStart s m) := by
  unfold State.tmStart
  repeat' with_reducible first | intro _ | assumption | apply State.put_keeps | apply State.setMeas_keeps | apply State.tmRecords_keeps | apply State.tmNext_keeps | apply Keeps.ite

theorem State.tmDiscard_keeps {base s : State} {m : Nat} (hk : Keeps base s) : Keeps base (State.tmDiscard s m) := by
  unfold State.tmDiscard
  repeat' with_reducible first | intro _ | assumption | apply State.bump_keeps | apply State.setMeas_keeps | apply Keeps.ite

theorem State.tmClose_keeps {base s : State} {m : Nat} {tn : Nat} (hk : Keeps base s) : Keeps base (State.tmClose s m tn) := by
  unfold State.tmClose
  repeat' first
    | (with_reducible first | intro _ | assumption | apply State.bump_keeps | apply State.tmRecords_keeps)

theorem State.tmEdge_keeps {base s : State} {m : Nat} {e : Nat} (hk : Keeps base s) : Keeps base (State.tmEdge s m e) := by
  unfold State.tmEdge
  repeat' first
    | (with_reducible first | intro _ | assumption | apply State.tmNext_keeps | apply State.tmClose_keeps | apply State.bump_keeps | apply State.setMeas_keeps | apply Keeps.ite)
    | (dsimp only)
    | split

theorem State.tmSample_keeps {base s : State} {m : Nat} {tn : Nat} {u : Nat} {x : Int} {spec : Bool} (hk : Keeps base s) : Keeps base (State.tmSample s m tn u x spec) := by
  unfold State.tmSample
  repeat' with_reducible first | intro _ | assumption | apply State.setMeas_keeps | apply State.tmNext_keeps | apply State.tmClose_keeps | apply Keeps.ite

theorem State.tmStamp_keeps {base s : State} {m : Nat} {tn : Nat} {used : Nat} {u : Nat} (hk : Keeps base s) : Keeps base (State.tmStamp s m tn used u).1 := by
  unfold State.tmStamp
  repeat' with_reducible first | intro _ | assumption | apply State.setMeas_keeps | apply State.bump_keeps | apply State.tmSample_keeps | apply Keeps.ite | apply Keeps.iteFst

theorem State.tmAbsorb_keeps {base s : State} {m : Nat} {tn : Nat} (hk : Keeps base s) : Keeps base (State.tmAbsorb s m tn) := by
  unfold State.tmAbsorb
  repeat' first
    | (with_reducible first | intro _ | assumption | apply State.setMeas_keeps | apply State.tmStamp_keeps | apply State.tmEdge_keeps | apply State.tmSample_keeps | apply Keeps.ite | apply Keeps.foldl | apply Keeps.foldlFst)
    | (dsimp only)
    | split

theorem State.tmSampleNow_keeps {base s : State} {m : Nat} (hk : Keeps base s) : Keeps base (State.tmSampleNow s m) := by
  unfold State.tmSampleNow
  repeat' first
    | (with_reducible first | intro _ | assumption | apply State.setMeas_keeps | apply Keeps.ite)
    | (dsimp only)
    | split

theorem State.setLost_keeps {base s : State} {v : Bool} (hk : Keeps base s) : Keeps base (State.setLost s v) := by
  unfold State.setLost
  repeat' with_reducible first | intro _ | assumption | apply State.setSen_keeps | apply State.bump_keeps | apply State.raise_keeps | apply Keeps.ite

theorem State.senLost_keeps {base s : State} (hk : Keeps base s) : Keeps base (State.senLost s) := by
  unfold State.senLost
  repeat' with_reducible first | intro _ | assumption | apply State.setLost_keeps | apply Keeps.ite

theorem State.senOpen_keeps {base s : State} {e : Nat} (hk : Keeps base s) : Keeps base (State.senOpen s e) := by
  unfold State.senOpen
  repeat' with_reducible first | intro _ | assumption | apply State.setSen_keeps

theorem State.senLimits_keeps {base s : State} {f : Nat} (hk : Keeps base s) : Keeps base (State.senLimits s f) := by
  unfold State.senLimits
  repeat' with_reducible first | intro _ | assumption | apply State.raise_keeps | apply State.setSen_keeps | apply Keeps.ite

theorem State.senClose_keeps {base s : State} {e : Nat} (hk : Keeps base s) : Keeps base (State.senClose s e) := by
  unfold State.senClose
  repeat' first
    | (with_reducible first | intro _ | assumption | apply State.setLost_keeps | apply State.setSen_keeps | apply State.senLimits_keeps | apply State.statRecords_keeps | apply Keeps.ite)

theorem State.senUse_keeps {base s : State} {u : Nat} (hk : Keeps base s) : Keeps base (State.senUse s u) := by
  unfold State.senUse
  repeat' first
    | (with_reducible first | intro _ | assumption | apply State.setSen_keeps | apply State.bump_keeps | apply Keeps.ite)
    | (dsimp only)
    | split

theorem State.senAbsorb_keeps {base s : State} {tn : Nat} (hk : Keeps base s) : Keeps base (State.senAbsorb s tn) := by
  unfold State.senAbsorb
  repeat' first
    | (with_reducible first | intro _ | assumption | apply State.setSen_keeps | apply State.senOpen_keeps | apply State.senClose_keeps | apply State.senUse_keeps | apply Keeps.ite | apply Keeps.foldl)
    | (dsimp only)
    | split

theorem State.senRestart_keeps {base s : State} (hk : Keeps base s) : Keeps base (State.senRestart s) := by
  unfold State.senRestart
  repeat' first
    | (with_reducible first | intro _ | assumption | apply State.setSen_keeps)
    | (dsimp only)
    | split

theorem State.senIdle_keeps {base s : State} (hk : Keeps base s) : Keeps base (State.senIdle s) := by
  unfold State.senIdle
  repeat' first
    | (with_reducible first | intro _ | assumption | apply State.setSen_keeps | apply State.senRestart_keeps)
    | (dsimp only)
    | split

theorem State.senOff_keeps {base s : State} (hk : Keeps base s) : Keeps base (State.senOff s) := by
  unfold State.senOff
  repeat' first
    | (with_reducible first | intro _ | assumption | apply State.setLost_keeps | apply State.senIdle_keeps | apply Keeps.ite)
    | (dsimp only)
    | split

theorem State.tmOff_keeps {base s : State} {m : Nat} (hk : Keeps base s) : Keeps base (State.tmOff s m) := by
  unfold State.tmOff
  repeat' first
    | (with_reducible first | intro _ | assumption | apply State.put_keeps | apply State.tmDiscard_keeps)
    | (dsimp only)
    | split

theorem State.senPublish_keeps {base s : State} (hk : Keeps base s) : Keeps base (State.senPublish s) := by
  unfold State.senPublish
  repeat' first
    | (with_reducible first | intro _ | assumption | apply State.put_keeps | apply State.setSen_keeps)
    | (dsimp only)
    | split

theorem State.tmDrop_keeps {base s : State} {m : Nat} (hk : Keeps base s) : Keeps base (State.tmDrop s m) := by
  unfold State.tmDrop
  repeat' first
    | (with_reducible first | intro _ | assumption | apply State.put_keeps | apply State.setMeas_keeps | apply State.setSen_keeps | apply State.statRecords_keeps | apply State.tmRecords_keeps | apply State.tmNext_keeps | apply State.bump_keeps | apply Keeps.ite)
    | (dsimp only)
    | split

theorem State.tallyDue_keeps {base s : State} (hk : Keeps base s) : Keeps base (State.tallyDue s) := by
  unfold State.tallyDue
  repeat' with_reducible first | intro _ | assumption | apply State.senLost_keeps | apply State.senAbsorb_keeps | apply State.tmAbsorb_keeps | apply Keeps.ite | apply Keeps.foldl

theorem State.tmStepped_keeps {base s : State} {tn : Nat} {pre : Nat} {m : Nat} (hk : Keeps base s) : Keeps base (State.tmStepped s tn pre m) := by
  unfold State.tmStepped
  repeat' first
    | (with_reducible first | intro _ | assumption | apply State.put_keeps | apply State.setTally_keeps | apply State.setMeas_keeps | apply State.tmNext_keeps | apply State.tmDiscard_keeps | apply State.tmAbsorb_keeps | apply Keeps.ite)
    | (dsimp only)
    | split

theorem State.senStepped_keeps {base s : State} {tn : Nat} {pre : Nat} {amt : Nat} (hk : Keeps base s) : Keeps base (State.senStepped s tn pre amt) := by
  unfold State.senStepped
  repeat' first
    | (with_reducible first | intro _ | assumption | apply State.setTally_keeps | apply State.setSen_keeps | apply State.senAbsorb_keeps | apply Keeps.ite)
    | (dsimp only)
    | split

theorem State.tallyStepped_keeps {base s : State} {amt : Nat} (hk : Keeps base s) : Keeps base (State.tallyStepped s amt) := by
  unfold State.tallyStepped
  repeat' first
    | (with_reducible first | intro _ | assumption | apply State.setTally_keeps | apply State.tmStepped_keeps | apply State.senStepped_keeps | apply Keeps.foldl | apply Keeps.iteFst | apply Keeps.foldlFst)
    | (dsimp only)
    | split

theorem State.tallyBoundary_keeps {base s : State} (hk : Keeps base s) : Keeps base (State.tallyBoundary s) := by
  unfold State.tallyBoundary
  repeat' first
    | (with_reducible first | intro _ | assumption | apply State.put_keeps | apply State.setTally_keeps | apply State.setMeas_keeps | apply State.setSen_keeps | apply State.tmStart_keeps | apply State.tmDiscard_keeps | apply State.tmSampleNow_keeps | apply State.senIdle_keeps | apply State.senOff_keeps | apply Keeps.ite | apply Keeps.foldl)
    | (dsimp only)
    | split

theorem State.tmCtl_keeps {base s : State} {m : Nat} {pl : List Byte} (hk : Keeps base s) : Keeps base (State.tmCtl s m pl) := by
  unfold State.tmCtl
  repeat' with_reducible first | intro _ | assumption | apply State.tmDiscard_keeps | apply State.putWord_keeps | apply State.put_keeps | apply State.setMeas_keeps | apply State.tmStart_keeps | apply Keeps.ite

theorem State.tmFirst_keeps {base s : State} {m : Nat} (hk : Keeps base s) : Keeps base (State.tmFirst s m) := by
  unfold State.tmFirst
  repeat' first
    | (with_reducible first | intro _ | assumption | apply State.setMeas_keeps | apply State.tmSampleNow_keeps | apply Keeps.ite)
    | (dsimp only)
    | split

theorem State.rocvClear_keeps {base s : State} (hk : Keeps base s) : Keeps base (State.rocvClear s) := by
  unfold State.rocvClear
  repeat' first
    | (with_reducible first | intro _ | assumption | apply State.put_keeps | apply State.setSen_keeps | apply Keeps.iteFst | apply Keeps.foldlFst)
    | (dsimp only)
    | split

theorem State.senCtl_keeps {base s : State} {pl : List Byte} (hk : Keeps base s) : Keeps base (State.senCtl s pl) := by
  unfold State.senCtl
  repeat' first
    | (with_reducible first | intro _ | assumption | apply State.put_keeps | apply State.putWord_keeps | apply State.senRestart_keeps | apply State.senOff_keeps | apply State.rocvClear_keeps | apply Keeps.ite)
    | (dsimp only)
    | split

/-! ## Time -/

theorem State.setLtc_keeps {base s : State} {f : Ltc → Ltc} (hk : Keeps base s) (h1 : (f s.ltc).sec = s.ltc.sec)
    (h2 : (f s.ltc).ns = s.ltc.ns) (h3 : (f s.ltc).frac = s.ltc.frac) (h4 : (f s.ltc).stepped = s.ltc.stepped) : Keeps base (State.setLtc s f) := by
  unfold State.setLtc
  repeat' with_reducible first | intro _ | assumption | apply Keeps.mk' | rfl

theorem State.ltcCapture_keeps {base s : State} {pos : Nat} (hk : Keeps base s) : Keeps base (State.ltcCapture s pos) := by
  unfold State.ltcCapture
  repeat' with_reducible first | intro _ | assumption | apply State.put_keeps

theorem State.plkStepped_keeps {base s : State} (hk : Keeps base s) : Keeps base (State.plkStepped s) := by
  unfold State.plkStepped
  repeat' first
    | (with_reducible first | intro _ | assumption | apply Keeps.mk' | rfl | apply Keeps.mk' | rfl)
    | (dsimp only)
    | split

/-- The counter put to a value reads as it. -/
theorem ltcPut_units (u : Nat) :
    (u / secUnits * 1000000000 + u % secUnits / 2 ^ 32) * 2 ^ 32 + u % 2 ^ 32 = u := by
  have h : secUnits = 1000000000 * 2 ^ 32 := rfl
  generalize (2 ^ 32 : Nat) = b at *
  have h1 : u % b = u % secUnits % b := by rw [h, Nat.mod_mul_left_mod]
  have h2 := Nat.div_add_mod' (u % secUnits) b
  have h3 := Nat.div_add_mod' u secUnits
  rw [Nat.add_mul, Nat.mul_assoc, ← h, h1]
  generalize u / secUnits * secUnits = x at *
  generalize u % secUnits / b * b = y at *
  omega

/-- The steady time of a counter that has moved with its steps. -/
theorem Ltc.steady_shift {u st n : Nat} {l : Ltc} (hu : (l.sec * 1000000000 + l.ns) * 2 ^ 32 + l.frac = u + n)
    (hs : l.stepped = st + n) : l.steady = (u : Int) - st := by
  unfold Ltc.steady
  rw [hu, hs]
  omega

theorem State.ltcPut_ltc (s : State) (u : Nat) :
    (s.ltcPut u).ltc = { s.ltc with sec := u / secUnits, ns := u % secUnits / 2 ^ 32, frac := u % 2 ^ 32 } := (rfl)

/-- The steady time of a counter put forward by as much as its sum of steps. -/
theorem Ltc.steady_put {s : State} {x u n : Nat} {l m : Ltc} (e : (s.ltcPut x).ltc = l) (hm : m.sec = l.sec) (h2 : m.ns = l.ns) (h3 : m.frac = l.frac)
    (hs : m.stepped = s.ltc.stepped + n) (hx : x = u + n) : m.steady = (u : Int) - s.ltc.stepped := by
  refine Ltc.steady_shift (n := n) ?_ hs
  have r := ltcPut_units x
  rw [State.ltcPut_ltc] at e
  subst e
  simp only at hm h2 h3
  rw [hm, h2, h3, r, hx]


theorem State.setLtc_eq (s : State) (f : Ltc → Ltc) : s.setLtc f = { s with ltc := f s.ltc } := (rfl)

/-- A step moves the counter and the sum of the steps alike. -/
theorem State.stepShift_steps {base s : State} {n : Nat} {g : Ltc → Ltc} (hk : Keeps base s)
    (h1 : ∀ l, (g l).sec = l.sec) (h2 : ∀ l, (g l).ns = l.ns) (h3 : ∀ l, (g l).frac = l.frac)
    (h4 : ∀ l, (g l).stepped = l.stepped + n) : Steps base ((s.ltcPut (s.ltcRaw 0 + n)).setLtc g) := by
  have r : s.ltc.steady = (s.ltcRaw 0 : Nat) - (s.ltc.stepped : Int) := by
    simp only [State.ltcRaw, Nat.add_zero, Ltc.steady]
  generalize hx : s.ltcRaw 0 + n = x
  have q : (g (s.ltcPut x).ltc).steady = (s.ltcRaw 0 : Nat) - (s.ltc.stepped : Int) :=
    Ltc.steady_put (l := (s.ltcPut x).ltc) (n := n) (.refl _) (h1 _) (h2 _) (h3 _) ((h4 _).trans (by rw [State.ltcPut_ltc])) hx.symm
  rw [← r] at q
  rw [State.setLtc_eq, State.ltcPut, State.setLtc_eq]
  rw [State.ltcPut, State.setLtc_eq] at q
  dsimp only at q ⊢
  generalize g _ = l at *
  exact hk.steps.trans ⟨Holds.frame rfl rfl rfl rfl rfl, rfl, q, id⟩

theorem State.stepApply_steps {base s : State} {sec : Nat} {ns : Nat} (hk : Keeps base s) : Steps base (State.stepApply s sec ns) := by
  unfold State.stepApply
  extract_lets amt new newSec jump a t s1 s2 s3 s4 s5
  have h2 : Steps base s2 :=
    State.stepShift_steps hk (fun _ => rfl) (fun _ => rfl) (fun _ => rfl) (fun _ => rfl)
  have h3 : Steps base s3 := Steps.foldl h2 (fun x c hx => Steps.ite (hx.keeps State.setChan_keeps) hx)
  have h4 : Steps base s4 :=
    ((((h3.keeps State.plkStepped_keeps).keeps State.bump_keeps).keeps State.putB_keeps).keeps State.dropFuture_keeps)
  exact ((((h4.keeps State.tallyStepped_keeps).keeps State.frameCut_keeps).keeps State.hearthStepped_keeps).keeps State.raise_keeps)

theorem State.stepRefuse_keeps {base s : State} (hk : Keeps base s) : Keeps base (State.stepRefuse s) := by
  unfold State.stepRefuse
  repeat' with_reducible first | intro _ | assumption | apply State.raise_keeps | apply State.bump_keeps

theorem State.stepTake_steps {base s : State} {sec : Nat} {ns : Nat} (hk : Keeps base s) : Steps base (State.stepTake s sec ns).1 := by
  unfold State.stepTake
  exact Steps.iteFst (State.stepRefuse_keeps hk).steps (Steps.iteFst hk.steps (State.stepApply_steps hk))

theorem State.stepRequest_keeps {base s : State} (hk : Keeps base s) : Keeps base (State.stepRequest s) := by
  unfold State.stepRequest
  repeat' with_reducible first | intro _ | assumption | apply State.putB_keeps | apply State.setLtc_keeps | apply Keeps.ite | rfl

theorem State.registerStep_steps {base s : State} (hk : Keeps base s) : Steps base (State.registerStep s).1 := by
  unfold State.registerStep
  split
  · exact hk.steps
  · exact State.stepTake_steps (State.putB_keeps (State.setLtc_keeps hk rfl rfl rfl rfl))

theorem State.leapApply_keeps {base s : State} {deletion : Bool} (hk : Keeps base s) : Keeps base (State.leapApply s deletion) := by
  unfold State.leapApply
  repeat' with_reducible first | intro _ | assumption | apply State.putB_keeps | apply State.putI_keeps | apply State.raise_keeps | apply Keeps.ite

theorem State.leapStep_keeps {base s : State} (hk : Keeps base s) : Keeps base (State.leapStep s) := by
  unfold State.leapStep
  repeat' first
    | (with_reducible first | intro _ | assumption | apply State.setLtc_keeps | apply State.leapApply_keeps | apply State.putB_keeps | apply Keeps.ite | rfl)
    | (dsimp only)
    | split

theorem State.leapSecond_keeps {base s : State} (hk : Keeps base s) : Keeps base (State.leapSecond s) := by
  unfold State.leapSecond
  repeat' first
    | (with_reducible first | intro _ | assumption | apply State.leapStep_keeps | apply Keeps.ite)
    | (dsimp only)
    | split

theorem State.leapLanded_keeps {base s : State} (hk : Keeps base s) : Keeps base (State.leapLanded s) := by
  unfold State.leapLanded
  repeat' first
    | (with_reducible first | intro _ | assumption | apply State.putB_keeps | apply Keeps.ite)
    | (dsimp only)
    | split

theorem State.utcCarried_keeps {base s : State} {i : Nat} {u : UtcIn} (hk : Keeps base s) : Keeps base (State.utcCarried s i u) := by
  unfold State.utcCarried
  repeat' with_reducible first | intro _ | assumption | apply State.setLtc_keeps | rfl

theorem State.follow_keeps {base s : State} (hk : Keeps base s) : Keeps base (State.follow s) := by
  unfold State.follow
  repeat' first
    | (with_reducible first | intro _ | assumption | apply State.setTc_keeps | apply State.utcCarried_keeps | apply State.setLtc_keeps | apply State.put_keeps | apply State.putB_keeps | apply State.raise_keeps | apply Keeps.ite | rfl)
    | (dsimp only)
    | split

/-! ## Upstream -/

end Sys2Proof.Machine
end

