-- ==== Sys2Proof/Laws/KeepsHerald.lean ====
section
/-! SUPPORT. Every function of Herald and Polsis keeps the variant, the queue and the canonical form. -/

namespace Sys2Proof.Machine

/-! ## HeraldSess -/

theorem State.setHrd_keeps {base s : State} {f : HrdSt → HrdSt} (hk : Keeps base s) : Keeps base (State.setHrd s f) := by
  unfold State.setHrd
  repeat' with_reducible first | intro _ | assumption | apply Keeps.mk' | rfl

theorem State.setPi_keeps {base s : State} {k : Nat} {f : PiSt → PiSt} (hk : Keeps base s) : Keeps base (State.setPi s k f) := by
  unfold State.setPi
  repeat' with_reducible first | intro _ | assumption | apply State.setHrd_keeps

theorem State.setPiPort_keeps {base s : State} {k : Nat} {p : Nat} {f : PiPort → PiPort} (hk : Keeps base s) : Keeps base (State.setPiPort s k p f) := by
  unfold State.setPiPort
  repeat' with_reducible first | intro _ | assumption | apply State.setPi_keeps

theorem State.setEsmc_keeps {base s : State} {p : Nat} {f : EsmcSt → EsmcSt} (hk : Keeps base s) : Keeps base (State.setEsmc s p f) := by
  unfold State.setEsmc
  repeat' with_reducible first | intro _ | assumption | apply State.setHrd_keeps

theorem State.cacheTouch_keeps {base s : State} {slot : Nat} (hk : Keeps base s) : Keeps base (State.cacheTouch s slot) := by
  unfold State.cacheTouch
  repeat' with_reducible first | intro _ | assumption | apply State.put_keeps | apply State.setHrd_keeps

theorem State.sessStore_keeps {base s : State} {slot : Nat} {x : Sess} {valid : Bool} (hk : Keeps base s) : Keeps base (State.sessStore s slot x valid) := by
  unfold State.sessStore
  repeat' first
    | (with_reducible first | intro _ | assumption | apply State.hostWrite_keeps | apply State.charge_keeps)
    | (dsimp only)
    | split

theorem State.syncSess_keeps {base s : State} (hk : Keeps base s) : Keeps base (State.syncSess s) := by
  unfold State.syncSess
  repeat' with_reducible first | intro _ | assumption | apply State.put_keeps | apply State.putSat_keeps | apply Keeps.foldl

theorem State.setSess_keeps {base s : State} {slot : Nat} {f : Sess → Sess} (hk : Keeps base s) : Keeps base (State.setSess s slot f) := by
  unfold State.setSess
  repeat' first
    | (with_reducible first | intro _ | assumption | apply State.setHrd_keeps | apply State.cacheTouch_keeps | apply State.sessStore_keeps | apply State.syncSess_keeps | apply Keeps.ite | apply Keeps.iteFst | apply Keeps.foldlFst)
    | (dsimp only)
    | split

theorem State.sessPlace_keeps {base s t : State} {x : Sess} {n : Nat} (h : Keeps base s) (e : s.sessPlace x = some (n, t)) :
    Keeps base t := by
  unfold State.sessPlace at e
  split at e
  · cases e
  · cases e; exact State.syncSess_keeps (State.cacheTouch_keeps (State.sessStore_keeps (State.setHrd_keeps h)))

theorem State.enqueue_keeps {base s : State} {m : Msg} (hk : Keeps base s) : Keeps base (State.enqueue s m) := by
  unfold State.enqueue
  repeat' with_reducible first | intro _ | assumption | apply State.setHrd_keeps

theorem State.signal_keeps {base s : State} {slot : Nat} {x : Sess} {sig : Nat} {tlv : SigIn} (hk : Keeps base s) : Keeps base (State.signal s slot x sig tlv) := by
  unfold State.signal
  repeat' with_reducible first | intro _ | assumption | apply State.enqueue_keeps

theorem State.cancelGrant_keeps {base s : State} {slot : Nat} {t : Nat} (hk : Keeps base s) : Keeps base (State.cancelGrant s slot t) := by
  unfold State.cancelGrant
  repeat' first
    | (with_reducible first | intro _ | assumption | apply State.setSess_keeps | apply State.signal_keeps)
    | (dsimp only)
    | split

theorem State.deny_keeps {base s : State} {k : Nat} {p : Nat} {slot : Nat} {t : SigIn} (hk : Keeps base s) : Keeps base (State.deny s k p slot t) := by
  unfold State.deny
  repeat' with_reducible first | intro _ | assumption | apply State.enqueue_keeps | apply State.bump_keeps

theorem State.answerRequest_keeps {base s : State} {slot : Nat} {x : Sess} {t : SigIn} (hk : Keeps base s) : Keeps base (State.answerRequest s slot x t) := by
  unfold State.answerRequest
  repeat' first
    | (with_reducible first | intro _ | assumption | apply State.deny_keeps | apply State.setSess_keeps | apply State.signal_keeps | apply Keeps.ite)

theorem State.askFor_keeps {base s : State} {slot : Nat} {t : Nat} (hk : Keeps base s) : Keeps base (State.askFor s slot t) := by
  unfold State.askFor
  repeat' first
    | (with_reducible first | intro _ | assumption | apply State.signal_keeps | apply State.setSess_keeps)
    | (dsimp only)
    | split

theorem State.askFailed_keeps {base s : State} {slot : Nat} {t : Nat} (hk : Keeps base s) : Keeps base (State.askFailed s slot t) := by
  unfold State.askFailed
  repeat' with_reducible first | intro _ | assumption | apply State.setSess_keeps

theorem State.grantRenewal_keeps {base s : State} {slot : Nat} {t : Nat} (hk : Keeps base s) : Keeps base (State.grantRenewal s slot t) := by
  unfold State.grantRenewal
  repeat' with_reducible first | intro _ | assumption | apply State.askFor_keeps | apply Keeps.ite

theorem State.grantExpiry_keeps {base s : State} {slot : Nat} {t : Nat} (hk : Keeps base s) : Keeps base (State.grantExpiry s slot t) := by
  unfold State.grantExpiry
  repeat' with_reducible first | intro _ | assumption | apply State.setSess_keeps | apply Keeps.ite

theorem State.requestRetry_keeps {base s : State} {slot : Nat} {t : Nat} (hk : Keeps base s) : Keeps base (State.requestRetry s slot t) := by
  unfold State.requestRetry
  repeat' first
    | (with_reducible first | intro _ | assumption | apply State.askFailed_keeps | apply State.askFor_keeps)
    | (dsimp only)
    | split

theorem State.sessDue_keeps {base s : State} (hk : Keeps base s) : Keeps base (State.sessDue s) := by
  unfold State.sessDue
  repeat' first
    | (with_reducible first | intro _ | assumption | apply State.grantRenewal_keeps | apply State.grantExpiry_keeps | apply State.requestRetry_keeps | apply Keeps.ite | apply Keeps.foldl | apply Keeps.iteFst | apply Keeps.foldlFst)
    | (dsimp only)
    | split

/-! ## HeraldPort -/

theorem State.setPs_keeps {base s : State} {k : Nat} {p : Nat} {new : Nat} {parentChanged : Bool} (hk : Keeps base s) : Keeps base (State.setPs s k p new parentChanged) := by
  unfold State.setPs
  repeat' with_reducible first | intro _ | assumption | apply State.cancelGrant_keeps | apply State.addRes_keeps | apply State.put_keeps | apply State.setPiPort_keeps | apply State.putB_keeps | apply State.raise_keeps | apply Keeps.ite | apply Keeps.foldl

theorem State.setLink_keeps {base s : State} {p : Nat} {up : Bool} {align : Bool} (hk : Keeps base s) : Keeps base (State.setLink s p up align) := by
  unfold State.setLink
  repeat' first
    | (with_reducible first | intro _ | assumption | apply State.putB_keeps | apply State.put_keeps | apply State.raise_keeps | apply State.setPs_keeps | apply Keeps.ite | apply Keeps.foldl)

theorem State.portStops_keeps {base s : State} {p : Nat} (hk : Keeps base s) : Keeps base (State.portStops s p) := by
  unfold State.portStops
  repeat' first
    | (with_reducible first | intro _ | assumption | apply State.putB_keeps | apply State.setLink_keeps | apply Keeps.ite)
    | (dsimp only)
    | split

theorem State.toHost_keeps {base s : State} {p : Nat} {raw : List Byte} (hk : Keeps base s) : Keeps base (State.toHost s p raw) := by
  unfold State.toHost
  repeat' first
    | (with_reducible first | intro _ | assumption | apply State.hostWrite_keeps | apply State.charge_keeps | apply State.finish_keeps | apply State.setHrd_keeps | apply State.bump_keeps | apply Keeps.ite)
    | (dsimp only)
    | split

theorem State.addressFilter_keeps {base s : State} {f : FrameIn} (hk : Keeps base s) : Keeps base (State.addressFilter s f) := by
  unfold State.addressFilter
  repeat' with_reducible first | intro _ | assumption | apply State.toHost_keeps | apply State.bump_keeps | apply Keeps.ite

theorem State.ptpElsewhere_keeps {base s : State} {p : Nat} {raw : List Byte} (hk : Keeps base s) : Keeps base (State.ptpElsewhere s p raw) := by
  unfold State.ptpElsewhere
  repeat' with_reducible first | intro _ | assumption | apply State.toHost_keeps | apply State.bump_keeps | apply Keeps.ite

theorem State.nonPtpFrame_keeps {base s : State} {f : FrameIn} (hk : Keeps base s) : Keeps base (State.nonPtpFrame s f) := by
  unfold State.nonPtpFrame
  repeat' with_reducible first | intro _ | assumption | apply State.addressFilter_keeps | apply Keeps.ite

theorem State.frameSent_keeps {base s : State} {ring : Nat} (hk : Keeps base s) : Keeps base (State.frameSent s ring) := by
  unfold State.frameSent
  repeat' first
    | (with_reducible first | intro _ | assumption | apply State.setHrd_keeps | apply State.finish_keeps | apply Keeps.ite)
    | (dsimp only)
    | split

theorem State.setRank_keeps {base s : State} {p : Nat} {rank : Nat} {timeout : Bool} (hk : Keeps base s) : Keeps base (State.setRank s p rank timeout) := by
  unfold State.setRank
  repeat' with_reducible first | intro _ | assumption | apply State.put_keeps | apply State.raise_keeps | apply Keeps.ite

theorem State.esmcPdu_keeps {base s : State} {m : EsmcIn} (hk : Keeps base s) : Keeps base (State.esmcPdu s m) := by
  unfold State.esmcPdu
  repeat' with_reducible first | intro _ | assumption | apply State.addressFilter_keeps | apply State.bump_keeps | apply State.put_keeps | apply State.putB_keeps | apply State.setEsmc_keeps | apply State.setRank_keeps | apply Keeps.ite

theorem State.esmcTimeout_keeps {base s : State} {p : Nat} (hk : Keeps base s) : Keeps base (State.esmcTimeout s p) := by
  unfold State.esmcTimeout
  repeat' with_reducible first | intro _ | assumption | apply State.setRank_keeps | apply State.putB_keeps | apply Keeps.ite

theorem State.esmcSend_keeps {base s : State} {p : Nat} (hk : Keeps base s) : Keeps base (State.esmcSend s p) := by
  unfold State.esmcSend
  repeat' with_reducible first | intro _ | assumption | apply State.setEsmc_keeps | apply State.put_keeps

theorem State.esmcEvent_keeps {base s : State} {p : Nat} (hk : Keeps base s) : Keeps base (State.esmcEvent s p) := by
  unfold State.esmcEvent
  repeat' first
    | (with_reducible first | intro _ | assumption | apply State.esmcSend_keeps | apply Keeps.ite)
    | (dsimp only)
    | split

theorem State.esmcInfo_keeps {base s : State} {p : Nat} (hk : Keeps base s) : Keeps base (State.esmcInfo s p) := by
  unfold State.esmcInfo
  repeat' with_reducible first | intro _ | assumption | apply State.setEsmc_keeps | apply State.esmcSend_keeps | apply Keeps.ite

theorem State.esmcBoundary_keeps {base s : State} {p : Nat} (hk : Keeps base s) : Keeps base (State.esmcBoundary s p) := by
  unfold State.esmcBoundary
  repeat' with_reducible first | intro _ | assumption | apply State.setEsmc_keeps | apply State.putB_keeps | apply State.esmcSend_keeps | apply Keeps.ite

theorem State.formDataSet_keeps {base s : State} {k : Nat} (hk : Keeps base s) : Keeps base (State.formDataSet s k) := by
  unfold State.formDataSet
  repeat' first
    | (with_reducible first | intro _ | assumption | apply State.setPi_keeps | apply Keeps.iteFst | apply Keeps.foldlFst)
    | (dsimp only)
    | split

/-! ## HeraldBmca -/

theorem State.forgetParent_keeps {base s : State} {k : Nat} (hk : Keeps base s) : Keeps base (State.forgetParent s k) := by
  unfold State.forgetParent
  repeat' first
    | (with_reducible first | intro _ | assumption | apply State.cancelGrant_keeps | apply State.setPi_keeps | apply State.putB_keeps | apply State.put_keeps | apply State.addRes_keeps)
    | (dsimp only)
    | split

theorem State.showParent_keeps {base s : State} {k : Nat} (hk : Keeps base s) : Keeps base (State.showParent s k) := by
  unfold State.showParent
  repeat' first
    | (with_reducible first | intro _ | assumption | apply State.put_keeps | apply State.putB_keeps)
    | (dsimp only)
    | split

theorem State.takeParent_keeps {base s : State} {k : Nat} {port : Nat} {f : Foreign} (hk : Keeps base s) : Keeps base (State.takeParent s k port f) := by
  unfold State.takeParent
  repeat' first
    | (with_reducible first | intro _ | assumption | apply State.setPi_keeps | apply State.showParent_keeps)

theorem State.loseParent_keeps {base s : State} {k : Nat} (hk : Keeps base s) : Keeps base (State.loseParent s k) := by
  unfold State.loseParent
  repeat' first
    | (with_reducible first | intro _ | assumption | apply State.showParent_keeps | apply State.forgetParent_keeps | apply State.setPs_keeps | apply Keeps.ite)
    | (dsimp only)
    | split

theorem State.sessForget_keeps {base s : State} (hk : Keeps base s) : Keeps base (State.sessForget s) := by
  unfold State.sessForget
  repeat' first
    | (with_reducible first | intro _ | assumption | apply State.put_keeps | apply State.setHrd_keeps | apply State.setPiPort_keeps | apply State.syncSess_keeps | apply State.loseParent_keeps | apply Keeps.ite | apply Keeps.foldl | apply Keeps.iteFst | apply Keeps.foldlFst)
    | (dsimp only)
    | split

theorem State.applyDecision_keeps {base s : State} {k : Nat} {d : Decision} (hk : Keeps base s) : Keeps base (State.applyDecision s k d) := by
  unfold State.applyDecision
  repeat' first
    | (with_reducible first | intro _ | assumption | apply State.showParent_keeps | apply State.setPi_keeps | apply State.takeParent_keeps | apply State.forgetParent_keeps | apply State.setPs_keeps | apply State.setPiPort_keeps | apply Keeps.ite | apply Keeps.foldl | apply Keeps.foldlFst)
    | (dsimp only)
    | split

theorem State.announceTimeout_keeps {base s : State} {k : Nat} (hk : Keeps base s) : Keeps base (State.announceTimeout s k) := by
  unfold State.announceTimeout
  repeat' with_reducible first | intro _ | assumption | apply State.setPiPort_keeps | apply State.setPi_keeps | apply Keeps.ite | apply Keeps.foldl

theorem State.piRestart_keeps {base s : State} {k : Nat} (hk : Keeps base s) : Keeps base (State.piRestart s k) := by
  unfold State.piRestart
  repeat' first
    | (with_reducible first | intro _ | assumption | apply State.putB_keeps | apply State.setPi_keeps | apply State.setPs_keeps | apply State.forgetParent_keeps | apply State.showParent_keeps | apply Keeps.ite | apply Keeps.foldl)
    | (dsimp only)
    | split

theorem State.piStop_keeps {base s : State} {k : Nat} (hk : Keeps base s) : Keeps base (State.piStop s k) := by
  unfold State.piStop
  repeat' with_reducible first | intro _ | assumption | apply State.showParent_keeps | apply State.forgetParent_keeps | apply State.setPs_keeps | apply State.setPi_keeps | apply State.putB_keeps | apply Keeps.ite | apply Keeps.foldl

theorem State.piStates_keeps {base s : State} {held : Bool} {k : Nat} (hk : Keeps base s) : Keeps base (State.piStates s held k) := by
  unfold State.piStates
  repeat' first
    | (with_reducible first | intro _ | assumption | apply State.setPi_keeps | apply State.setPs_keeps | apply State.forgetParent_keeps | apply State.showParent_keeps | apply State.applyDecision_keeps | apply State.piStop_keeps | apply State.follows_keeps | apply Keeps.ite | apply Keeps.foldl)
    | (dsimp only)
    | split

theorem State.piBoundary_keeps {base s : State} {k : Nat} (hk : Keeps base s) : Keeps base (State.piBoundary s k) := by
  unfold State.piBoundary
  repeat' first
    | (with_reducible first | intro _ | assumption | apply State.setPi_keeps | apply State.setPiPort_keeps | apply State.setPs_keeps | apply State.formDataSet_keeps | apply State.loseParent_keeps | apply State.piRestart_keeps | apply State.piStop_keeps | apply Keeps.ite | apply Keeps.foldl | apply Keeps.mk' | rfl | apply Keeps.mk' | rfl)
    | (dsimp only)
    | split

theorem State.acceptAnnounce_keeps {base s : State} {k : Nat} {p : Nat} {clk : Nat} {pnum : Nat} {slot : Option Nat} {a : Ann} {l : Int} (hk : Keeps base s) : Keeps base (State.acceptAnnounce s k p clk pnum slot a l) := by
  unfold State.acceptAnnounce
  repeat' with_reducible first | intro _ | assumption | apply State.setPiPort_keeps | apply State.setPi_keeps | apply Keeps.ite

/-! ## HeraldTime -/

theorem State.learn_keeps {base s : State} {slot : Nat} {m : PtpIn} (hk : Keeps base s) : Keeps base (State.learn s slot m) := by
  unfold State.learn
  repeat' with_reducible first | intro _ | assumption | apply State.setSess_keeps

theorem State.ptpUnmatched_keeps {base s : State} {m : PtpIn} (hk : Keeps base s) : Keeps base (State.ptpUnmatched s m) := by
  unfold State.ptpUnmatched
  repeat' first
    | (with_reducible first | intro _ | assumption | apply State.ptpElsewhere_keeps | apply State.bump_keeps | apply Keeps.ite)
    | (dsimp only)
    | split

theorem State.received_keeps {base s : State} {m : PtpIn} {peer : Bool} {cnt : Fld}
    {run : State → Nat → Option Nat → State} (h : Keeps base s)
    (hr : ∀ x k n, Keeps base x → Keeps base (run x k n)) : Keeps base (s.received m peer cnt run) := by
  unfold State.received
  repeat' first
    | with_reducible assumption
    | with_reducible apply State.ptpUnmatched_keeps
    | with_reducible apply State.bump_keeps
    | with_reducible apply State.learn_keeps
    | with_reducible apply State.cacheTouch_keeps
    | with_reducible apply Keeps.ite
    | apply hr
    | split

theorem State.showOffset_keeps {base s : State} {k : Nat} (hk : Keeps base s) : Keeps base (State.showOffset s k) := by
  unfold State.showOffset
  repeat' first
    | (with_reducible first | intro _ | assumption | apply State.putSatI_keeps)
    | (dsimp only)
    | split

theorem State.setMpd_keeps {base s : State} {k : Nat} {d : Int} (hk : Keeps base s) : Keeps base (State.setMpd s k d) := by
  unfold State.setMpd
  repeat' with_reducible first | intro _ | assumption | apply State.putSatI_keeps | apply State.setPi_keeps

theorem State.syncExchange_keeps {base s : State} {k : Nat} {port : Nat} {t1 : Int} {t2 : Int} {corr : Int} (hk : Keeps base s) : Keeps base (State.syncExchange s k port t1 t2 corr) := by
  unfold State.syncExchange
  repeat' first
    | (with_reducible first | intro _ | assumption | apply State.bump_keeps | apply State.setPi_keeps | apply State.showOffset_keeps | apply Keeps.ite)
    | (dsimp only)
    | split

theorem State.delayExchange_keeps {base s : State} {k : Nat} {port : Nat} {x : Int} (hk : Keeps base s) : Keeps base (State.delayExchange s k port x) := by
  unfold State.delayExchange
  repeat' first
    | (with_reducible first | intro _ | assumption | apply State.setMpd_keeps | apply State.setPi_keeps | apply State.bump_keeps | apply Keeps.ite)
    | (dsimp only)
    | split

theorem State.setSyncIvl_keeps {base s : State} {k : Nat} {l : Int} (hk : Keeps base s) : Keeps base (State.setSyncIvl s k l) := by
  unfold State.setSyncIvl
  repeat' with_reducible first | intro _ | assumption | apply State.setPi_keeps | apply Keeps.mk' | rfl

theorem State.syncFrom_keeps {base s : State} {k : Nat} {m : PtpIn} {slot : Option Nat} (hk : Keeps base s) : Keeps base (State.syncFrom s k m slot) := by
  unfold State.syncFrom
  repeat' first
    | (with_reducible first | intro _ | assumption | apply State.setSyncIvl_keeps | apply State.setPi_keeps | apply State.syncExchange_keeps | apply Keeps.ite)
    | (dsimp only)
    | split

theorem State.sync_keeps {base s : State} {m : PtpIn} (hk : Keeps base s) : Keeps base (State.sync s m) := by
  unfold State.sync
  repeat' with_reducible first | intro _ | assumption | apply State.received_keeps | apply State.syncFrom_keeps

theorem State.followUpFrom_keeps {base s : State} {k : Nat} {m : PtpIn} {slot : Option Nat} (hk : Keeps base s) : Keeps base (State.followUpFrom s k m slot) := by
  unfold State.followUpFrom
  repeat' first
    | (with_reducible first | intro _ | assumption | apply State.setPi_keeps | apply State.syncExchange_keeps | apply Keeps.ite)
    | (dsimp only)
    | split

theorem State.followUp_keeps {base s : State} {m : PtpIn} (hk : Keeps base s) : Keeps base (State.followUp s m) := by
  unfold State.followUp
  repeat' with_reducible first | intro _ | assumption | apply State.received_keeps | apply State.followUpFrom_keeps

theorem State.delayReqFrom_keeps {base s : State} {k : Nat} {m : PtpIn} {slot : Option Nat} (hk : Keeps base s) : Keeps base (State.delayReqFrom s k m slot) := by
  unfold State.delayReqFrom
  repeat' first
    | (with_reducible first | intro _ | assumption | apply State.enqueue_keeps | apply Keeps.ite)

theorem State.delayReq_keeps {base s : State} {m : PtpIn} (hk : Keeps base s) : Keeps base (State.delayReq s m) := by
  unfold State.delayReq
  repeat' with_reducible first | intro _ | assumption | apply State.received_keeps | apply State.delayReqFrom_keeps

theorem State.delayRespFrom_keeps {base s : State} {k : Nat} {m : PtpIn} {slot : Option Nat} (hk : Keeps base s) : Keeps base (State.delayRespFrom s k m slot) := by
  unfold State.delayRespFrom
  repeat' first
    | (with_reducible first | intro _ | assumption | apply State.setPi_keeps | apply State.bump_keeps | apply State.delayExchange_keeps | apply Keeps.ite)
    | (dsimp only)
    | split

theorem State.delayResp_keeps {base s : State} {m : PtpIn} (hk : Keeps base s) : Keeps base (State.delayResp s m) := by
  unfold State.delayResp
  repeat' with_reducible first | intro _ | assumption | apply State.received_keeps | apply State.delayRespFrom_keeps

theorem State.pdelayReqFrom_keeps {base s : State} {k : Nat} {m : PtpIn} (hk : Keeps base s) : Keeps base (State.pdelayReqFrom s k m) := by
  unfold State.pdelayReqFrom
  repeat' with_reducible first | intro _ | assumption | apply State.enqueue_keeps | apply Keeps.ite

theorem State.pdelayReq_keeps {base s : State} {m : PtpIn} (hk : Keeps base s) : Keeps base (State.pdelayReq s m) := by
  unfold State.pdelayReq
  repeat' with_reducible first | intro _ | assumption | apply State.received_keeps | apply State.pdelayReqFrom_keeps

theorem State.peerExchange_keeps {base s : State} {k : Nat} {port : Nat} {d : DelayReq} {t4 : Int} {turn : Int} {corr : Int} (hk : Keeps base s) : Keeps base (State.peerExchange s k port d t4 turn corr) := by
  unfold State.peerExchange
  repeat' with_reducible first | intro _ | assumption | apply State.setPi_keeps | apply State.bump_keeps | apply State.delayExchange_keeps | apply Keeps.ite

theorem State.pdelayRespFrom_keeps {base s : State} {k : Nat} {m : PtpIn} (hk : Keeps base s) : Keeps base (State.pdelayRespFrom s k m) := by
  unfold State.pdelayRespFrom
  repeat' first
    | (with_reducible first | intro _ | assumption | apply State.setPi_keeps | apply State.peerExchange_keeps | apply Keeps.ite)
    | (dsimp only)
    | split

theorem State.pdelayResp_keeps {base s : State} {m : PtpIn} (hk : Keeps base s) : Keeps base (State.pdelayResp s m) := by
  unfold State.pdelayResp
  repeat' with_reducible first | intro _ | assumption | apply State.received_keeps | apply State.pdelayRespFrom_keeps

theorem State.pdelayFupFrom_keeps {base s : State} {k : Nat} {m : PtpIn} (hk : Keeps base s) : Keeps base (State.pdelayFupFrom s k m) := by
  unfold State.pdelayFupFrom
  repeat' first
    | (with_reducible first | intro _ | assumption | apply State.peerExchange_keeps | apply Keeps.ite)
    | (dsimp only)
    | split

theorem State.pdelayFup_keeps {base s : State} {m : PtpIn} (hk : Keeps base s) : Keeps base (State.pdelayFup s m) := by
  unfold State.pdelayFup
  repeat' with_reducible first | intro _ | assumption | apply State.received_keeps | apply State.pdelayFupFrom_keeps

theorem State.announceFrom_keeps {base s : State} {k : Nat} {m : PtpIn} {a : Ann} {slot : Option Nat} (hk : Keeps base s) : Keeps base (State.announceFrom s k m a slot) := by
  unfold State.announceFrom
  repeat' first
    | (with_reducible first | intro _ | assumption | apply State.acceptAnnounce_keeps | apply State.utcCarried_keeps | apply Keeps.ite)

theorem State.announce_keeps {base s : State} {m : PtpIn} {a : Ann} (hk : Keeps base s) : Keeps base (State.announce s m a) := by
  unfold State.announce
  repeat' with_reducible first | intro _ | assumption | apply State.received_keeps | apply State.announceFrom_keeps

theorem State.requestUnicast_keeps {base s : State} {m : PtpIn} {t : SigIn} (hk : Keeps base s) : Keeps base (State.requestUnicast s m t) := by
  unfold State.requestUnicast
  repeat' first
    | (with_reducible first | intro _ | assumption | apply State.ptpUnmatched_keeps | apply State.bump_keeps | apply State.learn_keeps | apply State.cacheTouch_keeps | apply State.deny_keeps | apply State.answerRequest_keeps | apply State.sessAdd_keeps | apply Keeps.ite)
    | exact State.sessPlace_keeps (State.bump_keeps hk) (by assumption)
    | (dsimp only)
    | split

theorem State.grantFrom_keeps {base s : State} {n : Nat} {t : SigIn} (hk : Keeps base s) : Keeps base (State.grantFrom s n t) := by
  unfold State.grantFrom
  repeat' first
    | (with_reducible first | intro _ | assumption | apply State.askFailed_keeps | apply State.setSess_keeps | apply State.setSyncIvl_keeps | apply Keeps.ite)
    | (dsimp only)
    | split

theorem State.grantUnicast_keeps {base s : State} {m : PtpIn} {t : SigIn} (hk : Keeps base s) : Keeps base (State.grantUnicast s m t) := by
  unfold State.grantUnicast
  repeat' first
    | (with_reducible first | intro _ | assumption | apply State.received_keeps | apply State.grantFrom_keeps)
    | (dsimp only)
    | split

theorem State.cancelFrom_keeps {base s : State} {n : Nat} {t : SigIn} (hk : Keeps base s) : Keeps base (State.cancelFrom s n t) := by
  unfold State.cancelFrom
  repeat' first
    | (with_reducible first | intro _ | assumption | apply State.signal_keeps | apply State.setHrd_keeps | apply Keeps.ite)
    | (dsimp only)
    | split

theorem State.cancelUnicast_keeps {base s : State} {m : PtpIn} {t : SigIn} (hk : Keeps base s) : Keeps base (State.cancelUnicast s m t) := by
  unfold State.cancelUnicast
  repeat' first
    | (with_reducible first | intro _ | assumption | apply State.received_keeps | apply State.cancelFrom_keeps)
    | (dsimp only)
    | split

theorem State.ackCancel_keeps {base s : State} {m : PtpIn} (hk : Keeps base s) : Keeps base (State.ackCancel s m) := by
  unfold State.ackCancel
  repeat' with_reducible first | intro _ | assumption | apply State.received_keeps

theorem State.management_keeps {base s : State} {m : PtpIn} (hk : Keeps base s) : Keeps base (State.management s m) := by
  unfold State.management
  repeat' first
    | (with_reducible first | intro _ | assumption | apply State.ptpUnmatched_keeps | apply Keeps.ite)
    | (dsimp only)
    | split

theorem State.probeReads_keeps {base s : State} {key : Nat × Nat × Nat} (hk : Keeps base s) : Keeps base (State.probeReads s key) := by
  unfold State.probeReads
  repeat' first
    | (with_reducible first | intro _ | assumption | apply State.charge_keeps | apply Keeps.ite | apply Keeps.iteFst | apply Keeps.foldlFst)
    | (dsimp only)
    | split

theorem State.entryFetch_keeps {base s : State} {port : Nat} {slot : Option Nat} {key : Nat × Nat × Nat} {late : Bool} (hk : Keeps base s) : Keeps base (State.entryFetch s port slot key late) := by
  unfold State.entryFetch
  repeat' first
    | (with_reducible first | intro _ | assumption | apply State.charge_keeps | apply State.setHrd_keeps | apply State.cacheTouch_keeps | apply State.probeReads_keeps | apply Keeps.ite | apply Keeps.iteFst | apply Keeps.foldlFst)
    | (dsimp only)
    | split

theorem State.showC_keeps {base s : State} {k : Nat} {c : Int} (hk : Keeps base s) : Keeps base (State.showC s k c) := by
  unfold State.showC
  repeat' with_reducible first | intro _ | assumption | apply State.put64_keeps

theorem State.showA_keeps {base s : State} {k : Nat} (hk : Keeps base s) : Keeps base (State.showA s k) := by
  unfold State.showA
  repeat' with_reducible first | intro _ | assumption | apply State.put64_keeps

theorem State.judgeExchange_keeps {base s : State} {k : Nat} {e : Int × Int} (hk : Keeps base s) : Keeps base (State.judgeExchange s k e) := by
  unfold State.judgeExchange
  repeat' with_reducible first | intro _ | assumption | apply State.setPi_keeps | apply State.putB_keeps | apply State.showC_keeps | apply State.raiseAt_keeps | apply State.bump_keeps | apply State.setRef_keeps | apply Keeps.ite

theorem State.heraldSample_keeps {base s : State} {k : Nat} (hk : Keeps base s) : Keeps base (State.heraldSample s k) := by
  unfold State.heraldSample
  repeat' with_reducible first | intro _ | assumption | apply State.judgeExchange_keeps | apply State.setPi_keeps | apply State.addRes_keeps | apply Keeps.ite | apply Keeps.foldl

theorem State.heraldSamples_keeps {base s : State} (hk : Keeps base s) : Keeps base (State.heraldSamples s) := by
  unfold State.heraldSamples
  repeat' with_reducible first | intro _ | assumption | apply State.heraldSample_keeps | apply State.addRes_keeps | apply Keeps.ite | apply Keeps.foldl

theorem State.syncTimeout_keeps {base s : State} {k : Nat} (hk : Keeps base s) : Keeps base (State.syncTimeout s k) := by
  unfold State.syncTimeout
  repeat' with_reducible first | intro _ | assumption | apply State.setPi_keeps | apply State.addRes_keeps | apply Keeps.ite

theorem State.pathEvent_keeps {base s : State} {k : Nat} {kind : Nat} (hk : Keeps base s) : Keeps base (State.pathEvent s k kind) := by
  unfold State.pathEvent
  repeat' first
    | (with_reducible first | intro _ | assumption | apply State.raiseAt_keeps)
    | (dsimp only)
    | split

theorem State.pathSuspect_keeps {base s : State} {k : Nat} (hk : Keeps base s) : Keeps base (State.pathSuspect s k) := by
  unfold State.pathSuspect
  repeat' first
    | (with_reducible first | intro _ | assumption | apply State.setMpd_keeps | apply State.setPi_keeps | apply State.bump_keeps | apply State.putB_keeps | apply State.showOffset_keeps)
    | (dsimp only)
    | split
    | (with_reducible first | apply Keeps.mk')

theorem State.pathSuspects'_keeps {base s : State} (hk : Keeps base s) : Keeps base (State.pathSuspects' s) := by
  unfold State.pathSuspects'
  repeat' with_reducible first | intro _ | assumption | apply State.pathSuspect_keeps | apply Keeps.foldl

theorem State.showQ_keeps {base s : State} {k : Nat} (hk : Keeps base s) : Keeps base (State.showQ s k) := by
  unfold State.showQ
  repeat' with_reducible first | intro _ | assumption | apply State.putSatI_keeps

theorem State.quarStart_keeps {base s : State} {k : Nat} (hk : Keeps base s) : Keeps base (State.quarStart s k) := by
  unfold State.quarStart
  repeat' first
    | (with_reducible first | intro _ | assumption | apply State.setPi_keeps | apply State.put_keeps | apply State.putB_keeps | apply State.showQ_keeps)

theorem State.asymResult_keeps {base s : State} {k : Nat} {code : Nat} (hk : Keeps base s) : Keeps base (State.asymResult s k code) := by
  unfold State.asymResult
  repeat' first
    | (with_reducible first | intro _ | assumption | apply State.pathEvent_keeps | apply State.quarStart_keeps | apply State.showOffset_keeps | apply State.putB_keeps)
    | (dsimp only)
    | split

theorem State.asymResults_keeps {base s : State} (hk : Keeps base s) : Keeps base (State.asymResults s) := by
  unfold State.asymResults
  repeat' with_reducible first | intro _ | assumption | apply State.asymResult_keeps | apply Keeps.foldl | apply Keeps.foldlFst | apply Keeps.mk' | rfl

theorem State.quarEnd_keeps {base s : State} {k : Nat} (hk : Keeps base s) : Keeps base (State.quarEnd s k) := by
  unfold State.quarEnd
  repeat' with_reducible first | intro _ | assumption | apply State.setPi_keeps | apply State.put_keeps | apply State.putB_keeps | apply State.showQ_keeps | apply State.addRes_keeps | apply Keeps.ite

theorem State.asymChanged_keeps {base s : State} {k : Nat} {p : Option Nat} {delta : Int} (hk : Keeps base s) : Keeps base (State.asymChanged s k p delta) := by
  unfold State.asymChanged
  repeat' first
    | (with_reducible first | intro _ | assumption | apply State.showQ_keeps | apply State.setPi_keeps | apply State.showOffset_keeps | apply Keeps.ite)

theorem State.asymSet_keeps {base s : State} {k : Nat} {p : Nat} {op : Nat} {amount : Int} (hk : Keeps base s) : Keeps base (State.asymSet s k p op amount) := by
  unfold State.asymSet
  repeat' with_reducible first | intro _ | assumption | apply State.asymChanged_keeps | apply State.putI_keeps | apply Keeps.ite

theorem State.ptpInst_keeps {base s : State} {k : Nat} {pl : List Byte} (hk : Keeps base s) : Keeps base (State.ptpInst s k pl).1 := by
  unfold State.ptpInst
  repeat' with_reducible first | intro _ | assumption | apply State.putWord_keeps | apply State.piRestart_keeps | apply Keeps.ite | apply Keeps.iteFst | apply Keeps.foldl

theorem State.sessAdd_keeps {base s : State} {pl : List Byte} (h : Keeps base s) : Keeps base (s.sessAdd pl).1 := by
  unfold State.sessAdd
  repeat' first
    | with_reducible assumption
    | exact State.sessPlace_keeps h (by assumption)
    | with_reducible apply State.bump_keeps
    | with_reducible apply State.put_keeps
    | with_reducible apply State.putB_keeps
    | with_reducible apply Keeps.iteFst
    | (dsimp only)
    | split

theorem State.sessDel_keeps {base s : State} {slot : Nat} (hk : Keeps base s) : Keeps base (State.sessDel s slot).1 := by
  unfold State.sessDel
  repeat' first
    | (with_reducible first | intro _ | assumption | apply State.setHrd_keeps | apply State.setPiPort_keeps | apply State.sessStore_keeps | apply State.syncSess_keeps | apply State.signal_keeps | apply State.loseParent_keeps | apply Keeps.ite | apply Keeps.foldl)
    | (dsimp only)
    | split

theorem State.acceptEnd_keeps {base s : State} {k : Nat} (hk : Keeps base s) : Keeps base (State.acceptEnd s k) := by
  unfold State.acceptEnd
  repeat' with_reducible first | intro _ | assumption | apply State.setPi_keeps | apply State.putB_keeps

theorem State.acceptApply_keeps {base s : State} {k : Nat} {act : Nat} (hk : Keeps base s) : Keeps base (State.acceptApply s k act).1 := by
  unfold State.acceptApply
  repeat' first
    | (with_reducible first | intro _ | assumption | apply State.showA_keeps | apply State.acceptEnd_keeps | apply State.setPi_keeps | apply State.chanPhase_keeps | apply Keeps.ite | apply Keeps.iteFst)
    | (dsimp only)
    | split

/-! ## HeraldTx -/

theorem State.msgDone_keeps {base s : State} {m : Msg} (hk : Keeps base s) : Keeps base (State.msgDone s m) := by
  unfold State.msgDone
  repeat' with_reducible first | intro _ | assumption | apply State.setHrd_keeps

theorem State.msgSent_keeps {base s : State} {m : Msg} {pos : Nat} (hk : Keeps base s) : Keeps base (State.msgSent s m pos) := by
  unfold State.msgSent
  repeat' first
    | (with_reducible first | intro _ | assumption | apply State.setHrd_keeps | apply State.setPi_keeps | apply State.bump_keeps | apply Keeps.ite)
    | (dsimp only)
    | split

theorem State.msgSend_keeps {base s : State} {m : Msg} {pos : Nat} (hk : Keeps base s) : Keeps base (State.msgSend s m pos) := by
  unfold State.msgSend
  repeat' first
    | (with_reducible first | intro _ | assumption | apply State.setHrd_keeps | apply State.cacheTouch_keeps | apply State.msgDone_keeps | apply State.msgSent_keeps | apply State.sent_keeps | apply State.bump_keeps | apply Keeps.ite | apply Keeps.iteFst | apply Keeps.foldlFst)
    | (dsimp only)
    | split

theorem State.messageDue_keeps {base s : State} {m : Msg} {pos : Nat} (hk : Keeps base s) : Keeps base (State.messageDue s m pos) := by
  unfold State.messageDue
  repeat' with_reducible first | intro _ | assumption | apply State.msgSend_keeps | apply Keeps.ite

theorem State.messageSkip_keeps {base s : State} {m : Msg} (hk : Keeps base s) : Keeps base (State.messageSkip s m) := by
  unfold State.messageSkip
  repeat' with_reducible first | intro _ | assumption | apply State.msgDone_keeps | apply State.bump_keeps | apply Keeps.ite

theorem State.heraldDue_keeps {base s : State} (hk : Keeps base s) : Keeps base (State.heraldDue s) := by
  unfold State.heraldDue
  repeat' first
    | (with_reducible first | intro _ | assumption | apply State.fresh_keeps | apply State.sessDue_keeps | apply State.esmcTimeout_keeps | apply State.esmcEvent_keeps | apply State.esmcInfo_keeps | apply State.announceTimeout_keeps | apply State.syncTimeout_keeps | apply State.quarEnd_keeps | apply State.msgSend_keeps | apply State.messageSkip_keeps | apply Keeps.foldl | apply Keeps.iteFst | apply Keeps.foldlFst)
    | (dsimp only)
    | split

theorem State.heraldOverrun_keeps {base s : State} {rx : List Nat} (hk : Keeps base s) : Keeps base (State.heraldOverrun s rx) := by
  unfold State.heraldOverrun
  repeat' first
    | (with_reducible first | intro _ | assumption | apply State.setEsmc_keeps | apply State.msgDone_keeps | apply State.bump_keeps | apply Keeps.ite | apply Keeps.foldl)
    | (dsimp only)
    | split

theorem State.heraldQuality_keeps {base s : State} (hk : Keeps base s) : Keeps base (State.heraldQuality s) := by
  unfold State.heraldQuality
  repeat' first
    | (with_reducible first | intro _ | assumption | apply State.setQuality_keeps | apply Keeps.ite | apply Keeps.foldl)

theorem State.heraldStates_keeps {base s : State} {held : Bool} (hk : Keeps base s) : Keeps base (State.heraldStates s held) := by
  unfold State.heraldStates
  repeat' first
    | (with_reducible first | intro _ | assumption | apply State.portStops_keeps | apply State.piStates_keeps | apply Keeps.foldl)
    | (dsimp only)
    | split

theorem State.heraldBoundary_keeps {base s : State} (hk : Keeps base s) : Keeps base (State.heraldBoundary s) := by
  unfold State.heraldBoundary
  repeat' first
    | (with_reducible first | intro _ | assumption | apply State.put_keeps | apply State.putB_keeps | apply State.setHrd_keeps | apply State.setSess_keeps | apply State.esmcBoundary_keeps | apply State.piBoundary_keeps | apply State.quarEnd_keeps | apply State.sent_keeps | apply Keeps.ite | apply Keeps.foldl | apply Keeps.iteFst | apply Keeps.foldlFst)
    | (dsimp only)
    | split

theorem State.heraldRestart_keeps {base s : State} (hk : Keeps base s) : Keeps base (State.heraldRestart s) := by
  unfold State.heraldRestart
  repeat' with_reducible first | intro _ | assumption | apply State.piRestart_keeps | apply Keeps.ite | apply Keeps.foldl

/-! ## Polsis -/

theorem State.setPlk_keeps {base s : State} {p : Nat} {f : PlkPort → PlkPort} (hk : Keeps base s) : Keeps base (State.setPlk s p f) := by
  unfold State.setPlk
  repeat' with_reducible first | intro _ | assumption | apply Keeps.mk' | rfl

theorem State.showDelay_keeps {base s : State} {p : Nat} (hk : Keeps base s) : Keeps base (State.showDelay s p) := by
  unfold State.showDelay
  repeat' with_reducible first | intro _ | assumption | apply State.putSatI_keeps

theorem State.plkDown_keeps {base s : State} {p : Nat} {cause : Nat} (hk : Keeps base s) : Keeps base (State.plkDown s p cause) := by
  unfold State.plkDown
  repeat' first
    | (with_reducible first | intro _ | assumption | apply State.putB_keeps | apply State.raise_keeps | apply State.setPlk_keeps | apply State.showDelay_keeps | apply Keeps.ite)
    | (dsimp only)
    | split

theorem State.plkCalStart_keeps {base s : State} {p : Nat} (hk : Keeps base s) : Keeps base (State.plkCalStart s p) := by
  unfold State.plkCalStart
  repeat' with_reducible first | intro _ | assumption | apply State.putB_keeps | apply State.setPlk_keeps | apply State.showDelay_keeps | apply Keeps.ite

theorem State.plkHold_keeps {base s : State} {p : Nat} (hk : Keeps base s) : Keeps base (State.plkHold s p) := by
  unfold State.plkHold
  repeat' first
    | (with_reducible first | intro _ | assumption | apply State.setPlk_keeps | apply Keeps.ite)
    | (dsimp only)
    | split

theorem State.plkLinkUp_keeps {base s : State} {p : Nat} (hk : Keeps base s) : Keeps base (State.plkLinkUp s p) := by
  unfold State.plkLinkUp
  repeat' first
    | (with_reducible first | intro _ | assumption | apply State.putB_keeps | apply State.setPlk_keeps | apply State.raise_keeps | apply State.plkCalStart_keeps | apply Keeps.ite)

theorem State.plkLinkDown_keeps {base s : State} {p : Nat} (hk : Keeps base s) : Keeps base (State.plkLinkDown s p) := by
  unfold State.plkLinkDown
  repeat' with_reducible first | intro _ | assumption | apply State.plkDown_keeps | apply Keeps.ite

theorem State.laneSwap_keeps {base s : State} {p : Nat} (hk : Keeps base s) : Keeps base (State.laneSwap s p) := by
  unfold State.laneSwap
  repeat' first
    | (with_reducible first | intro _ | assumption | apply State.putB_keeps | apply State.setPlk_keeps | apply State.showDelay_keeps | apply State.bump_keeps | apply Keeps.ite)
    | (dsimp only)
    | split

theorem State.plkWindowOver_keeps {base s : State} {p : Nat} (hk : Keeps base s) : Keeps base (State.plkWindowOver s p) := by
  unfold State.plkWindowOver
  repeat' with_reducible first | intro _ | assumption | apply State.setPlk_keeps

theorem State.asymmetryUpdate_keeps {base s : State} {p : Nat} (hk : Keeps base s) : Keeps base (State.asymmetryUpdate s p) := by
  unfold State.asymmetryUpdate
  repeat' first
    | (with_reducible first | intro _ | assumption | apply State.plkWindowOver_keeps | apply State.addRes_keeps | apply State.bump_keeps | apply State.setPlk_keeps | apply State.showDelay_keeps | apply Keeps.ite)
    | (dsimp only)
    | split

theorem State.calibrationEnd_keeps {base s : State} {p : Nat} (hk : Keeps base s) : Keeps base (State.calibrationEnd s p) := by
  unfold State.calibrationEnd
  repeat' first
    | (with_reducible first | intro _ | assumption | apply State.plkCalStart_keeps | apply State.plkWindowOver_keeps | apply State.setPlk_keeps | apply State.showDelay_keeps | apply State.putB_keeps | apply Keeps.ite)
    | (dsimp only)
    | split

theorem State.tunnelIn_keeps {base s : State} {p : Nat} {bytes : List Byte} {pos : Nat} (hk : Keeps base s) : Keeps base (State.tunnelIn s p bytes pos) := by
  unfold State.tunnelIn
  repeat' first
    | (with_reducible first | intro _ | assumption | apply State.bump_keeps | apply State.nextSeq_keeps | apply State.setPlk_keeps | apply State.put_keeps | apply Keeps.ite)

theorem State.tunnelPop_keeps {base s : State} {p : Nat} (hk : Keeps base s) : Keeps base (State.tunnelPop s p).2 := by
  unfold State.tunnelPop
  repeat' first
    | (with_reducible first | intro _ | assumption | apply State.setPlk_keeps | apply State.put_keeps | apply Keeps.ite)
    | (dsimp only)
    | split

theorem State.tunnelWrite_keeps {base s : State} {p : Nat} {w : Nat} (hk : Keeps base s) : Keeps base (State.tunnelWrite s p w).1 := by
  unfold State.tunnelWrite
  repeat' with_reducible first | intro _ | assumption | apply State.setPlk_keeps | apply Keeps.ite | apply Keeps.iteFst

theorem State.tunnelSend_keeps {base s : State} {p : Nat} (hk : Keeps base s) : Keeps base (State.tunnelSend s p) := by
  unfold State.tunnelSend
  repeat' first
    | (with_reducible first | intro _ | assumption | apply State.putB_keeps | apply State.freshBytes_keeps | apply State.setPlk_keeps | apply State.written_keeps | apply Keeps.ite | apply Keeps.iteFst | apply Keeps.foldlFst)
    | (dsimp only)
    | split

theorem State.plkExchange_keeps {base s : State} {p : Nat} {m : LinkIn} {t : Int} (hk : Keeps base s) : Keeps base (State.plkExchange s p m t) := by
  unfold State.plkExchange
  repeat' first
    | (with_reducible first | intro _ | assumption | apply State.setPlk_keeps | apply State.showDelay_keeps | apply Keeps.ite)
    | (dsimp only)
    | split

theorem State.linkFrame_keeps {base s : State} {m : LinkIn} (hk : Keeps base s) : Keeps base (State.linkFrame s m) := by
  unfold State.linkFrame
  repeat' with_reducible first | intro _ | assumption | apply State.setPlk_keeps | apply State.bump_keeps | apply State.put_keeps | apply State.putB_keeps | apply State.plkDown_keeps | apply State.plkExchange_keeps | apply State.tunnelIn_keeps | apply Keeps.ite

theorem State.syncOrigs_keeps {base s : State} (hk : Keeps base s) : Keeps base (State.syncOrigs s) := by
  unfold State.syncOrigs
  repeat' with_reducible first | intro _ | assumption | apply State.put_keeps

theorem State.plkForward_keeps {base s : State} {m : TimeIn} {acc : Nat} (hk : Keeps base s) : Keeps base (State.plkForward s m acc) := by
  unfold State.plkForward
  repeat' first
    | (with_reducible first | intro _ | assumption | apply State.bump_keeps | apply State.setPlk_keeps | apply State.put_keeps | apply State.syncOrigs_keeps | apply Keeps.ite | apply Keeps.foldl | apply Keeps.foldlFst)
    | (dsimp only)
    | split
    | (with_reducible first | apply Keeps.mk')

theorem State.plkSample_keeps {base s : State} {m : TimeIn} {acc : Nat} (hk : Keeps base s) : Keeps base (State.plkSample s m acc) := by
  unfold State.plkSample
  repeat' with_reducible first | intro _ | assumption | apply State.setPlk_keeps | apply State.put64_keeps | apply State.put_keeps | apply State.utcCarried_keeps | apply Keeps.ite

theorem State.plkLock_keeps {base s : State} {p : Nat} {origin : Nat} (hk : Keeps base s) : Keeps base (State.plkLock s p origin) := by
  unfold State.plkLock
  repeat' with_reducible first | intro _ | assumption | apply State.put_keeps | apply State.putB_keeps | apply State.setPlk_keeps | apply State.addRes_keeps | apply Keeps.ite

theorem State.timeFrame_keeps {base s : State} {m : TimeIn} (hk : Keeps base s) : Keeps base (State.timeFrame s m) := by
  unfold State.timeFrame
  repeat' with_reducible first | intro _ | assumption | apply State.bump_keeps | apply State.plkLock_keeps | apply State.setPlk_keeps | apply State.plkSample_keeps | apply State.plkForward_keeps | apply Keeps.ite

theorem State.frameLoss_keeps {base s : State} {p : Nat} (hk : Keeps base s) : Keeps base (State.frameLoss s p) := by
  unfold State.frameLoss
  repeat' with_reducible first | intro _ | assumption | apply State.setPlk_keeps | apply State.addRes_keeps | apply Keeps.ite

theorem State.originRelease_keeps {base s : State} {p : Nat} (hk : Keeps base s) : Keeps base (State.originRelease s p) := by
  unfold State.originRelease
  repeat' with_reducible first | intro _ | assumption | apply State.putB_keeps | apply Keeps.ite

theorem State.originFree_keeps {base s : State} {o : Nat} (hk : Keeps base s) : Keeps base (State.originFree s o) := by
  unfold State.originFree
  repeat' with_reducible first | intro _ | assumption | apply State.syncOrigs_keeps | apply Keeps.ite | apply Keeps.mk' | rfl

theorem State.plkDue_keeps {base s : State} (hk : Keeps base s) : Keeps base (State.plkDue s) := by
  unfold State.plkDue
  repeat' with_reducible first | intro _ | assumption | apply State.originRelease_keeps | apply State.frameLoss_keeps | apply State.calibrationEnd_keeps | apply State.asymmetryUpdate_keeps | apply State.plkLinkDown_keeps | apply State.originFree_keeps | apply Keeps.foldl

theorem State.plkSamples_keeps {base s : State} (hk : Keeps base s) : Keeps base (State.plkSamples s) := by
  unfold State.plkSamples
  repeat' first
    | (with_reducible first | intro _ | assumption | apply State.setRef_keeps | apply State.addRes_keeps | apply Keeps.ite | apply Keeps.foldl | apply Keeps.foldlFst)
    | (dsimp only)
    | split

theorem State.plkQuality_keeps {base s : State} (hk : Keeps base s) : Keeps base (State.plkQuality s) := by
  unfold State.plkQuality
  repeat' first
    | (with_reducible first | intro _ | assumption | apply State.setQuality_keeps | apply Keeps.foldl)

theorem State.plkPortBoundary_keeps {base s : State} {p : Nat} (hk : Keeps base s) : Keeps base (State.plkPortBoundary s p) := by
  unfold State.plkPortBoundary
  repeat' first
    | (with_reducible first | intro _ | assumption | apply State.putB_keeps | apply State.setPlk_keeps | apply State.plkDown_keeps | apply State.plkHold_keeps | apply State.laneSwap_keeps | apply State.plkLock_keeps | apply Keeps.ite | apply Keeps.iteFst | apply Keeps.foldlFst)
    | (dsimp only)
    | split

theorem State.linkSend_keeps {base s : State} {p : Nat} {stamp : Nat} {mir : Option MirIn} (hk : Keeps base s) : Keeps base (State.linkSend s p stamp mir) := by
  unfold State.linkSend
  repeat' first
    | (with_reducible first | intro _ | assumption | apply State.putB_keeps | apply State.setPlk_keeps | apply Keeps.ite)
    | (dsimp only)
    | split

theorem State.timeOriginate_keeps {base s : State} {dep : List Nat} (hk : Keeps base s) : Keeps base (State.timeOriginate s dep) := by
  unfold State.timeOriginate
  repeat' first
    | (with_reducible first | intro _ | assumption | apply State.setPlk_keeps | apply Keeps.ite | apply Keeps.foldl)

theorem State.plkCtl_keeps {base s : State} {p : Nat} {pl : List Byte} (hk : Keeps base s) : Keeps base (State.plkCtl s p pl).1 := by
  unfold State.plkCtl
  repeat' first
    | (with_reducible first | intro _ | assumption | apply State.put_keeps | apply State.setPlk_keeps | apply State.showDelay_keeps | apply State.plkDown_keeps | apply State.plkCalStart_keeps | apply Keeps.ite)
    | (dsimp only)
    | split

end Sys2Proof.Machine
end

