-- ==== Sys2Proof/Laws/KeepsMachine.lean ====
section
/-! SUPPORT. Every function of modes, Mirror, power, accesses, faults, commands, the boundary and the rows keeps the variant, the queue and the canonical form. -/

namespace Sys2Proof.Machine

/-! ## Modes -/

theorem State.setPwr_keeps {base s : State} {f : PwrSt → PwrSt} (h : Keeps base s)
    (hc : ∀ p, (f p).coreFail = p.coreFail) : Keeps base (State.setPwr s f) :=
  Keeps.frame h rfl rfl rfl rfl rfl rfl ⟨rfl, rfl, rfl, rfl, rfl, fun p => (hc s.pwr).trans p⟩

/-- The supplies come back. -/
theorem State.setPwr_back {base s : State} {f : PwrSt → PwrSt} (h : Keeps base s) (hc : ∀ p, (f p).coreFail = none) :
    Keeps base (State.setPwr s f) := Keeps.frame h rfl rfl rfl rfl rfl rfl ⟨rfl, rfl, rfl, rfl, rfl, fun _ => hc s.pwr⟩

theorem State.setMir_keeps {base s : State} {f : MirSt → MirSt} (hk : Keeps base s) : Keeps base (State.setMir s f) := by
  unfold State.setMir
  repeat' with_reducible first | intro _ | assumption | apply Keeps.mk' | rfl

theorem State.milUndo_keeps {base s : State} (hk : Keeps base s) : Keeps base (State.milUndo s) := by
  unfold State.milUndo
  repeat' with_reducible first | intro _ | assumption | apply Keeps.mk' | rfl

theorem State.spiLose_keeps {base s : State} (hk : Keeps base s) : Keeps base (State.spiLose s) := by
  unfold State.spiLose
  repeat' with_reducible first | intro _ | assumption | apply State.putB_keeps | apply State.put_keeps | apply Keeps.mk' | rfl

theorem State.enterMode_keeps {base s : State} {m : Nat} (hk : Keeps base s) : Keeps base (State.enterMode s m) := by
  unfold State.enterMode
  repeat' with_reducible first | intro _ | assumption | apply State.hearthHalt_keeps | apply State.millerStop_keeps | apply State.setMode_keeps | apply State.tamperReport_keeps | apply State.emberResume_keeps | apply State.millerStart_keeps | apply State.resumeMeans_keeps | apply State.lensMode_keeps | apply State.spiLose_keeps | apply State.raise_keeps | apply Keeps.ite

/-! ## Mirror -/

theorem State.syncPrio_keeps {base s : State} (hk : Keeps base s) : Keeps base (State.syncPrio s) := by
  unfold State.syncPrio
  repeat' first
    | (with_reducible first | intro _ | assumption | apply State.putB_keeps | apply Keeps.ite)

theorem State.syncDrv_keeps {base s : State} (hk : Keeps base s) : Keeps base (State.syncDrv s) := by
  unfold State.syncDrv
  repeat' with_reducible first | intro _ | assumption | apply State.putB_keeps | apply Keeps.ite

theorem State.shadowStart_keeps {base s : State} (hk : Keeps base s) : Keeps base (State.shadowStart s) := by
  unfold State.shadowStart
  repeat' with_reducible first | intro _ | assumption | apply State.setChan_keeps | apply State.dropSpec_keeps | apply State.putB_keeps | apply State.setMir_keeps | apply Keeps.ite | apply Keeps.foldl

theorem State.enterStandby_keeps {base s : State} (hk : Keeps base s) : Keeps base (State.enterStandby s) := by
  unfold State.enterStandby
  repeat' with_reducible first | intro _ | assumption | apply State.shadowStart_keeps | apply State.enterMode_keeps | apply Keeps.ite

theorem State.dropKey_keeps {base s : State} {code : Nat} (hk : Keeps base s) : Keeps base (State.dropKey s code) := by
  unfold State.dropKey
  repeat' with_reducible first | intro _ | assumption | apply State.raise_keeps | apply State.put_keeps | apply State.putB_keeps | apply State.heldEnd_keeps | apply State.setMir_keeps | apply Keeps.ite

theorem State.releaseKey_keeps {base s : State} {code : Nat} (hk : Keeps base s) : Keeps base (State.releaseKey s code) := by
  unfold State.releaseKey
  repeat' with_reducible first | intro _ | assumption | apply State.syncDrv_keeps | apply State.enterStandby_keeps | apply State.dropKey_keeps | apply Keeps.ite

theorem State.seeLine_keeps {base s : State} {high : Bool} (hk : Keeps base s) : Keeps base (State.seeLine s high) := by
  unfold State.seeLine
  repeat' with_reducible first | intro _ | assumption | apply State.setMir_keeps

theorem State.keySense_keeps {base s : State} {high : Bool} (hk : Keeps base s) : Keeps base (State.keySense s high) := by
  unfold State.keySense
  repeat' with_reducible first | intro _ | assumption | apply State.syncDrv_keeps | apply State.seeLine_keeps | apply Keeps.ite

theorem State.keySample_keeps {base s : State} {high : Bool} (hk : Keeps base s) : Keeps base (State.keySample s high) := by
  unfold State.keySample
  repeat' with_reducible first | intro _ | assumption | apply State.setMir_keeps | apply State.seeLine_keeps | apply State.put_keeps | apply State.putB_keeps | apply State.heldStart_keeps | apply State.raise_keeps | apply State.heldEnd_keeps | apply State.syncDrv_keeps | apply Keeps.ite

theorem State.holdoffExpiry_keeps {base s : State} (hk : Keeps base s) : Keeps base (State.holdoffExpiry s) := by
  unfold State.holdoffExpiry
  repeat' with_reducible first | intro _ | assumption | apply State.setMir_keeps | apply Keeps.ite

theorem State.keyOverride_keeps {base s : State} {v : Bool} (hk : Keeps base s) : Keeps base (State.keyOverride s v).1 := by
  unfold State.keyOverride
  repeat' first
    | (with_reducible first | intro _ | assumption | apply State.setMir_keeps | apply State.putB_keeps | apply Keeps.ite | apply Keeps.iteFst)

theorem State.overrideEnd_keeps {base s : State} (hk : Keeps base s) : Keeps base (State.overrideEnd s) := by
  unfold State.overrideEnd
  repeat' with_reducible first | intro _ | assumption | apply State.syncDrv_keeps | apply State.putB_keeps | apply State.setMir_keeps | apply Keeps.ite

theorem State.mirLatch_keeps {base s : State} (hk : Keeps base s) : Keeps base (State.mirLatch s) := by
  unfold State.mirLatch
  repeat' with_reducible first | intro _ | assumption | apply State.setMir_keeps | apply Keeps.ite

theorem State.keyClash_keeps {base s : State} {key : Bool} (hk : Keeps base s) : Keeps base (State.keyClash s key) := by
  unfold State.keyClash
  repeat' with_reducible first | intro _ | assumption | apply State.setMir_keeps | apply State.putB_keeps | apply State.occur_keeps | apply Keeps.ite

theorem State.collect_keeps {base s : State} {ep : Nat} {fn : Nat} {vals : List Rat} (hk : Keeps base s) : Keeps base (State.collect s ep fn vals) := by
  unfold State.collect
  repeat' first
    | (with_reducible first | intro _ | assumption | apply State.bump_keeps | apply State.setMir_keeps | apply State.put_keeps | apply Keeps.ite)
    | (dsimp only)
    | split

theorem State.mirFrame_keeps {base s : State} {m : LinkIn} (hk : Keeps base s) : Keeps base (State.mirFrame s m) := by
  unfold State.mirFrame
  repeat' first
    | (with_reducible first | intro _ | assumption | apply State.setMir_keeps | apply State.put_keeps | apply State.putB_keeps | apply State.keyClash_keeps | apply State.syncPrio_keeps | apply State.collect_keeps | apply Keeps.ite | apply Keeps.foldl | apply Keeps.foldlFst)
    | (dsimp only)
    | split

theorem State.firstCommit_steps {base s : State} (hk : Keeps base s) : Steps base (State.firstCommit s) := by
  unfold State.firstCommit
  split
  · extract_lets thr s1 ns
    have h1 : Keeps base s1 := State.setMir_keeps hk
    split
    · split
      · exact (State.setMir_keeps h1).steps
      · exact (State.stepTake_steps h1).keeps State.setMir_keeps
    · split
      · exact (State.setChan_keeps h1).steps
      · exact h1.steps
  · exact hk.steps

theorem State.shadowErrors_keeps {base s : State} {h : MirIn} (hk : Keeps base s) : Keeps base (State.shadowErrors s h) := by
  unfold State.shadowErrors
  repeat' first
    | (with_reducible first | intro _ | assumption | apply State.setMir_keeps)

theorem State.showCommit_keeps {base s : State} (hk : Keeps base s) : Keeps base (State.showCommit s) := by
  unfold State.showCommit
  repeat' first
    | (with_reducible first | intro _ | assumption | apply State.putB_keeps | apply State.put_keeps | apply Keeps.ite | apply Keeps.foldl | apply Keeps.foldlFst)
    | (dsimp only)
    | split

theorem State.shadowTick_keeps {base s : State} {c : Nat} (hk : Keeps base s) : Keeps base (State.shadowTick s c) := by
  unfold State.shadowTick
  repeat' with_reducible first | intro _ | assumption | apply State.millerTick_keeps | apply State.specWord_keeps | apply State.setChan_keeps | apply Keeps.ite

theorem State.syncSlock_keeps {base s : State} (hk : Keeps base s) : Keeps base (State.syncSlock s) := by
  unfold State.syncSlock
  repeat' with_reducible first | intro _ | assumption | apply State.putB_keeps

theorem State.syncInc_keeps {base s : State} (hk : Keeps base s) : Keeps base (State.syncInc s) := by
  unfold State.syncInc
  repeat' first
    | (with_reducible first | intro _ | assumption | apply Keeps.ite)
    | (dsimp only)
    | split
    | (with_reducible first | apply Keeps.mk')

theorem State.millerWork_keeps {base s : State} (hk : Keeps base s) : Keeps base (State.millerWork s) := by
  unfold State.millerWork
  repeat' with_reducible first | intro _ | assumption | apply State.syncInc_keeps | apply State.syncSlock_keeps | apply State.shadowTick_keeps | apply State.millerTickAll_keeps | apply Keeps.ite | apply Keeps.foldl | apply Keeps.foldlFst | apply Keeps.mk' | rfl

theorem State.again_keeps {r s : State} {f : State → State} (h : Keeps r s) (hf : ∀ x, Keeps r x → Keeps r (f x)) :
    Keeps r (s.again f) := State.millerWork_keeps (hf _ (State.milUndo_keeps h))

theorem State.again_steps {r s : State} {f : State → State} (h : Keeps r s) (hf : ∀ x, Keeps r x → Steps r (f x)) :
    Steps r (s.again f) := (hf _ (State.milUndo_keeps h)).keeps State.millerWork_keeps

theorem State.commitTake_steps {base s : State} (hk : Keeps base s) : Steps base (State.commitTake s) := by
  unfold State.commitTake
  split
  · exact hk.steps
  · rename_i h _ _
    extract_lets s1 newer
    have h1 : Keeps base s1 := State.setMir_keeps hk
    split
    · exact h1.steps
    · split
      · exact (State.bump_keeps (State.raise_keeps h1)).steps
      · have h3 := State.putSat_keeps (b := mirR) (f := MIR_LAG_LAG) (v := ((s1.tn + 2 ^ 32 - h.epoch) % 2 ^ 32))
          (State.put_keeps (b := mirR) (f := MIR_EPOCH_EPOCH) (v := h.epoch)
            (State.setMir_keeps (f := fun m => { m with com := some h, epoch := some h.epoch, got := true }) h1))
        exact ((Steps.ite (State.firstCommit_steps h3) h3.steps).keeps State.shadowErrors_keeps).keeps State.showCommit_keeps

theorem State.snapshotCommit_steps {base s : State} (hk : Keeps base s) : Steps base (State.snapshotCommit s) := by
  unfold State.snapshotCommit
  exact Steps.ite (State.again_steps hk (fun _ h => State.commitTake_steps h)) hk.steps

theorem State.hearthCommit_keeps {base s : State} (hk : Keeps base s) : Keeps base (State.hearthCommit s) := by
  unfold State.hearthCommit
  repeat' first
    | (with_reducible first | intro _ | assumption | apply State.setMir_keeps | apply State.put_keeps | apply State.putB_keeps | apply Keeps.ite)
    | (dsimp only)
    | split

theorem State.mirrorLinkLost_keeps {base s : State} (hk : Keeps base s) : Keeps base (State.mirrorLinkLost s) := by
  unfold State.mirrorLinkLost
  repeat' with_reducible first | intro _ | assumption | apply State.raise_keeps | apply State.putB_keeps | apply State.syncPrio_keeps | apply State.put_keeps | apply State.setMir_keeps | apply Keeps.ite

theorem State.mirrorLinkUp_keeps {base s : State} (hk : Keeps base s) : Keeps base (State.mirrorLinkUp s) := by
  unfold State.mirrorLinkUp
  repeat' first
    | (with_reducible first | intro _ | assumption | apply State.putB_keeps | apply State.setMir_keeps | apply State.syncPrio_keeps | apply Keeps.ite)
    | (dsimp only)
    | split

theorem State.takeChan_keeps {base s : State} {c : Nat} (hk : Keeps base s) : Keeps base (State.takeChan s c) := by
  unfold State.takeChan
  repeat' first
    | (with_reducible first | intro _ | assumption | apply State.put_keeps | apply State.putB_keeps | apply State.setChan_keeps | apply State.setPrism_keeps | apply State.showSel_keeps | apply State.applyChange_keeps | apply Keeps.ite)
    | (dsimp only)
    | split

theorem State.takeVerdicts_keeps {base s : State} (hk : Keeps base s) : Keeps base (State.takeVerdicts s) := by
  unfold State.takeVerdicts
  repeat' first
    | (with_reducible first | intro _ | assumption | apply State.put_keeps | apply State.putB_keeps | apply State.setRef_keeps | apply State.raise_keeps | apply Keeps.ite | apply Keeps.foldl)
    | (dsimp only)
    | split

theorem State.takeOver_keeps {base s : State} (hk : Keeps base s) : Keeps base (State.takeOver s) := by
  unfold State.takeOver
  repeat' first
    | (with_reducible first | intro _ | assumption | apply State.takeChan_keeps | apply State.takeVerdicts_keeps | apply State.applyModel_keeps | apply State.setMir_keeps | apply State.raise_keeps | apply State.putB_keeps | apply State.enterMode_keeps | apply State.put64_keeps | apply State.bump_keeps | apply State.syncDrv_keeps | apply Keeps.foldl | apply Keeps.foldlFst)
    | (dsimp only)
    | split
    | (with_reducible first | apply Keeps.mk')

theorem State.takeover_keeps {base s : State} (hk : Keeps base s) : Keeps base (State.takeover s) := by
  unfold State.takeover
  repeat' with_reducible first | intro _ | assumption | apply State.again_keeps | apply State.takeOver_keeps | apply Keeps.ite

theorem State.mirDue_keeps {base s : State} (hk : Keeps base s) : Keeps base (State.mirDue s) := by
  unfold State.mirDue
  extract_lets s1
  have h1 : Keeps base s1 := State.keySample_keeps (State.hearthCommit_keeps (State.mirrorLinkLost_keeps hk))
  exact Keeps.ite (State.bump_keeps h1) h1

theorem State.mirBoundary_steps {base s : State} (hk : Keeps base s) : Steps base (State.mirBoundary s) := by
  unfold State.mirBoundary
  extract_lets s1 s2 th phs s3 s4 s5
  have h1 : Keeps base s1 := State.holdoffExpiry_keeps (State.overrideEnd_keeps hk)
  have h2 : Keeps base s2 := by
    unfold s2
    split
    · exact State.setMir_keeps (State.releaseKey_keeps h1)
    · exact h1
  have h4 : Keeps base s4 := State.syncPrio_keeps (State.mirrorLinkUp_keeps (State.setMir_keeps h2))
  have h5 : Steps base s5 := Steps.ite (State.commitTake_steps h4) h4.steps
  exact Steps.ite hk.steps (Steps.ite (h5.keeps State.takeOver_keeps) h5)

theorem State.keyCtl_keeps {base s : State} {act : Nat} (hk : Keeps base s) : Keeps base (State.keyCtl s act).1 := by
  unfold State.keyCtl
  repeat' first
    | (with_reducible first | intro _ | assumption | apply State.takeOver_keeps | apply State.releaseKey_keeps | apply State.putB_keeps | apply State.keyOverride_keeps | apply Keeps.ite | apply Keeps.iteFst)
    | (dsimp only)
    | split

/-! ## Power -/

theorem State.coreReset_keeps {base s : State} (h : Keeps base s) : Keeps base s.coreReset :=
  State.putB_keeps (State.putB_keeps (State.put_keeps (State.put_keeps (State.put_keeps (Keeps.foldl (State.putB_keeps (State.putB_keeps
    ⟨Holds.anew (k := true) h.toHolds rfl rfl rfl rfl rfl rfl, h.clock.trans ⟨rfl, rfl, rfl, rfl, rfl, id⟩⟩))
    fun _ _ hx => State.putB_keeps hx)))))

theorem State.powerOff_holds {s : State} : Holds s s.powerOff := by
  unfold State.powerOff
  refine Holds.trans (t := _) ?_ (State.putB_keeps (State.put_keeps (State.put_keeps (Keeps.refl _)))).toHolds
  exact Holds.anew (k := false) (.refl s) rfl rfl rfl rfl rfl rfl

theorem State.resetPart_keeps {base s : State} (hk : Keeps base s) : Keeps base (State.resetPart s) := by
  unfold State.resetPart
  repeat' with_reducible first | intro _ | assumption | apply State.emberEnter_keeps | apply State.coreReset_keeps | apply State.put_keeps | apply State.bump_keeps | apply Keeps.ite

theorem State.rstPin_keeps {base s : State} {low : Bool} (hk : Keeps base s) : Keeps base (State.rstPin s low) := by
  unfold State.rstPin
  repeat' with_reducible first | intro _ | assumption | apply State.setPwr_keeps | apply State.resetPart_keeps | apply Keeps.ite | rfl

theorem State.railOut_keeps {base s : State} {r : Nat} (hk : Keeps base s) : Keeps base (State.railOut s r) := by
  unfold State.railOut
  repeat' with_reducible first | intro _ | assumption | apply State.putB_keeps | apply State.heldStart_keeps | apply Keeps.ite

theorem State.railBack_keeps {base s : State} {r : Nat} (hk : Keeps base s) : Keeps base (State.railBack s r) := by
  unfold State.railBack
  repeat' with_reducible first | intro _ | assumption | apply State.putB_keeps | apply State.heldEnd_keeps | apply Keeps.ite

theorem State.railsIn_keeps {base s : State} {ok : Nat} (hk : Keeps base s) : Keeps base (State.railsIn s ok) := by
  unfold State.railsIn
  repeat' first
    | (with_reducible first | intro _ | assumption | apply State.put_keeps | refine State.setPwr_back ?_ (fun _ => rfl) | apply State.setPwr_keeps | apply State.coreReset_keeps | apply State.putSat_keeps | apply State.putB_keeps | rfl)
    | (dsimp only)
    | split

theorem State.porRelease_keeps {base s : State} {boot : Nat} {prio : Bool} (hk : Keeps base s) : Keeps base (State.porRelease s boot prio) := by
  unfold State.porRelease
  repeat' with_reducible first | intro _ | assumption | apply State.syncPrio_keeps | apply State.enterMode_keeps | apply State.setPwr_keeps | apply State.put_keeps | apply Keeps.ite | rfl

theorem State.powerWarn_keeps {base s : State} {pin : Bool} {ns : Nat} (hk : Keeps base s) : Keeps base (State.powerWarn s pin ns) := by
  unfold State.powerWarn
  repeat' first
    | (with_reducible first | intro _ | assumption | apply State.put_keeps | apply State.putB_keeps | apply State.heldEnd_keeps | apply State.pfStore_keeps | apply State.setPwr_keeps | apply State.bump_keeps | apply Keeps.ite)
    | (dsimp only)
    | split

theorem State.powerClear_keeps {base s : State} (hk : Keeps base s) : Keeps base (State.powerClear s) := by
  unfold State.powerClear
  repeat' first
    | (with_reducible first | intro _ | assumption | apply State.putB_keeps | apply State.heldStart_keeps | apply State.setPwr_keeps | apply Keeps.ite | apply Keeps.foldl)
    | (dsimp only)
    | split

/-- The command that takes the core supplies away: all else of `Keeps`. -/
theorem State.coreFailure_holds {s : State} {vbak : Bool} : Holds s (s.coreFailure vbak) ∧
    (s.coreFailure vbak).prism.tick = s.prism.tick ∧ (s.coreFailure vbak).ltc.steady = s.ltc.steady := by
  unfold State.coreFailure
  split
  · exact ⟨.refl s, rfl, rfl⟩
  · have h : Keeps s (s.discardStaged fun _ => true) := State.discardStaged_keeps (.refl s)
    generalize s.discardStaged (fun _ => true) = u at h ⊢
    have k := (Holds.frame (s := u) rfl rfl rfl rfl rfl : Holds u (u.setPwr fun p => { p with coreFail := some u.prism.tick }))
    exact ⟨(h.toHolds.trans k).trans (State.setHearth_keeps (.refl _)).toHolds, h.steps.tick, h.steps.steady⟩

theorem State.emberEntry_keeps {base s : State} (hk : Keeps base s) : Keeps base (State.emberEntry s) := by
  unfold State.emberEntry
  repeat' first
    | (with_reducible first | intro _ | assumption | apply State.put_keeps | apply State.setHearth_keeps | apply State.emberEnter_keeps | apply State.setTcd_keeps | refine State.setPwr_back ?_ (fun _ => rfl) | apply State.setPwr_keeps | apply Keeps.ite | apply Keeps.foldl | apply Keeps.mk' | rfl)
    | (dsimp only)
    | split

theorem State.vbakLoss_holds {s : State} : Holds s s.vbakLoss := by
  unfold State.vbakLoss
  split
  · exact State.powerOff_holds
  · exact .refl s

theorem State.romComplete_keeps {base s : State} {osc : Bool} (hk : Keeps base s) : Keeps base (State.romComplete s osc) := by
  unfold State.romComplete
  repeat' with_reducible first | intro _ | assumption | apply State.enterMode_keeps | apply Keeps.ite

theorem State.recovery_keeps {base s : State} (hk : Keeps base s) : Keeps base (State.recovery s) := by
  unfold State.recovery
  repeat' with_reducible first | intro _ | assumption | apply State.put_keeps | apply State.setPwr_keeps | apply State.granRecover_keeps | apply Keeps.ite | rfl

theorem State.fwStart_keeps {base s : State} {src : Nat} {ver : Nat} {crc : Nat} (hk : Keeps base s) : Keeps base (State.fwStart s src ver crc) := by
  unfold State.fwStart
  repeat' with_reducible first | intro _ | assumption | apply State.put_keeps | apply State.wearInc_keeps | apply State.enterMode_keeps | apply State.setPwr_keeps | apply Keeps.ite | rfl

theorem State.tryImage_keeps {base s : State} {src : Nat} {r : Nat ⊕ Nat × Nat} (hk : Keeps base s) : Keeps base (State.tryImage s src r) := by
  unfold State.tryImage
  repeat' first
    | (with_reducible first | intro _ | assumption | apply State.put_keeps | apply State.fwStart_keeps | apply Keeps.ite)
    | (dsimp only)
    | split

theorem State.firmwareLoad_keeps {base s : State} {flash : Option (List Byte)} (hk : Keeps base s) : Keeps base (State.firmwareLoad s flash) := by
  unfold State.firmwareLoad
  repeat' first
    | (with_reducible first | intro _ | assumption | apply State.setPwr_keeps | apply State.tryImage_keeps | apply Keeps.ite | rfl)
    | (dsimp only)
    | split

theorem State.hostLoad_keeps {base s : State} (hk : Keeps base s) : Keeps base (State.hostLoad s) := by
  unfold State.hostLoad
  repeat' with_reducible first | intro _ | assumption | apply State.tryImage_keeps | apply State.setPwr_keeps | apply Keeps.ite | rfl

theorem State.calComplete_keeps {base s : State} {crc : Nat} (hk : Keeps base s) : Keeps base (State.calComplete s crc) := by
  unfold State.calComplete
  repeat' first
    | (with_reducible first | intro _ | assumption | apply State.put_keeps | apply State.putB_keeps | apply State.occur_keeps | apply State.setPwr_keeps | apply State.enterMode_keeps | apply Keeps.ite | apply Keeps.foldl | apply Keeps.mk' | rfl | apply Keeps.mk' | rfl)
    | (dsimp only)
    | split

theorem State.imageApplied_keeps {base s : State} (hk : Keeps base s) : Keeps base (State.imageApplied s) := by
  unfold State.imageApplied
  repeat' with_reducible first | intro _ | assumption | apply State.setPwr_keeps | rfl

theorem State.leaveRun_keeps {base s : State} (hk : Keeps base s) : Keeps base (State.leaveRun s) := by
  unfold State.leaveRun
  repeat' first
    | (with_reducible first | intro _ | assumption | apply State.put_keeps | apply State.putB_keeps | apply State.millerStop_keeps | apply State.hearthHalt_keeps | apply State.lensStop_keeps | apply State.setPwr_keeps)
    | (dsimp only)
    | split

theorem State.m6Completes_keeps {base s : State} (hk : Keeps base s) : Keeps base (State.m6Completes s) := by
  unfold State.m6Completes
  repeat' with_reducible first | intro _ | assumption | apply State.enterMode_keeps | apply State.put_keeps | apply State.putB_keeps | apply Keeps.ite

theorem State.autoTake_keeps {base s : State} (hk : Keeps base s) : Keeps base (State.autoTake s) := by
  unfold State.autoTake
  repeat' first
    | (with_reducible first | intro _ | assumption | apply State.setPwr_keeps | apply State.enterMode_keeps | apply State.syncDrv_keeps | apply State.enterStandby_keeps | apply Keeps.ite)
    | (dsimp only)
    | split

theorem State.autoMode_keeps {base s : State} (hk : Keeps base s) : Keeps base (State.autoMode s) := by
  unfold State.autoMode
  repeat' first
    | (with_reducible first | intro _ | assumption | apply State.again_keeps | apply State.autoTake_keeps | apply Keeps.ite)
    | (dsimp only)
    | split

theorem State.modeSet_keeps {base s : State} {m : Nat} (hk : Keeps base s) : Keeps base (State.modeSet s m).1 := by
  unfold State.modeSet
  repeat' with_reducible first | intro _ | assumption | apply State.takeOver_keeps | apply State.syncDrv_keeps | apply State.enterMode_keeps | apply State.releaseKey_keeps | apply State.leaveRun_keeps | apply State.dropKey_keeps | apply State.enterStandby_keeps | apply Keeps.ite | apply Keeps.iteFst

theorem State.safeEntry_keeps {base s : State} (hk : Keeps base s) : Keeps base (State.safeEntry s) := by
  unfold State.safeEntry
  repeat' with_reducible first | intro _ | assumption | apply State.setWd_keeps | apply State.discardStaged_keeps | apply State.raise_keeps | apply State.dropKey_keeps | apply State.put_keeps | apply State.putB_keeps | apply State.setHost_keeps | apply State.enterMode_keeps | apply State.setPwr_keeps | apply State.syncDrv_keeps | apply Keeps.ite | rfl

theorem State.safeExit_keeps {base s : State} (hk : Keeps base s) : Keeps base (State.safeExit s) := by
  unfold State.safeExit
  repeat' with_reducible first | intro _ | assumption | apply State.setPwr_keeps | apply State.setHost_keeps | apply State.enterMode_keeps | apply State.syncDrv_keeps | apply State.put_keeps | apply State.putB_keeps | apply Keeps.ite | rfl

theorem State.keeperCopies_keeps {base s : State} (hk : Keeps base s) : Keeps base (State.keeperCopies s) := by
  unfold State.keeperCopies
  repeat' with_reducible first | intro _ | assumption | apply State.setHearth_keeps | apply State.setTcd_keeps | apply Keeps.ite

theorem State.powerBoundary_keeps {base s : State} (hk : Keeps base s) : Keeps base (State.powerBoundary s) := by
  unfold State.powerBoundary
  repeat' with_reducible first | intro _ | assumption | apply State.raise_keeps | apply State.setPwr_keeps | apply State.releaseKey_keeps | apply State.putB_keeps | apply Keeps.ite | rfl

theorem State.flrAsk_keeps {base s : State} {f : Nat} (hk : Keeps base s) : Keeps base (State.flrAsk s f) := by
  unfold State.flrAsk
  repeat' with_reducible first | intro _ | assumption | apply State.setHost_keeps | apply Keeps.ite

theorem State.ringStop_keeps {base s : State} {b : Nat} (hk : Keeps base s) : Keeps base (State.ringStop s b) := by
  unfold State.ringStop
  repeat' first
    | (with_reducible first | intro _ | assumption | apply State.put_keeps | apply State.setRing_keeps)
    | (dsimp only)
    | split

theorem State.clearFunc_keeps {base s : State} {f : Nat} (hk : Keeps base s) : Keeps base (State.clearFunc s f) := by
  unfold State.clearFunc
  repeat' first
    | (with_reducible first | intro _ | assumption | apply State.setReg_keeps | apply State.discard_keeps | apply State.discardStaged_keeps | apply State.setHrd_keeps | apply State.ringStop_keeps | apply Keeps.ite | apply Keeps.foldl)
    | (dsimp only)
    | split

theorem State.flrBoundary_keeps {base s : State} (hk : Keeps base s) : Keeps base (State.flrBoundary s) := by
  unfold State.flrBoundary
  repeat' with_reducible first | intro _ | assumption | apply State.clearFunc_keeps | apply State.setHost_keeps | apply State.granLockAll_keeps | apply Keeps.ite | apply Keeps.foldl

theorem State.perst_keeps {base s : State} (hk : Keeps base s) : Keeps base (State.perst s) := by
  unfold State.perst
  repeat' with_reducible first | intro _ | assumption | apply State.flrAsk_keeps | apply State.setHost_keeps

theorem State.vfChange_keeps {base s : State} {n : Nat} (hk : Keeps base s) : Keeps base (State.vfChange s n) := by
  unfold State.vfChange
  repeat' with_reducible first | intro _ | assumption | apply State.clearFunc_keeps | apply State.setHost_keeps | apply Keeps.ite | apply Keeps.foldl

/-! ## Bus -/

theorem State.flagRecord_keeps {base s : State} {who : Who} {off : Nat} {cause : Nat} (hk : Keeps base s) : Keeps base (State.flagRecord s who off cause) := by
  unfold State.flagRecord
  repeat' with_reducible first | intro _ | assumption | apply State.put_keeps | apply State.putB_keeps | apply State.bump_keeps | apply Keeps.ite

theorem State.flag_keeps {base s : State} {who : Who} {off : Nat} {cause : Nat} (hk : Keeps base s) : Keeps base (State.flag s who off cause) := by
  unfold State.flag
  repeat' with_reducible first | intro _ | assumption | apply State.flagRecord_keeps | apply State.putB_keeps | apply State.occur_keeps | apply Keeps.ite

theorem State.spiSync_keeps {base s : State} (hk : Keeps base s) : Keeps base (State.spiSync s) := by
  unfold State.spiSync
  repeat' with_reducible first | intro _ | assumption | apply State.putB_keeps | apply State.put_keeps

theorem State.spiQueue_keeps {base s : State} {v : Nat} (hk : Keeps base s) : Keeps base (State.spiQueue s v) := by
  unfold State.spiQueue
  repeat' with_reducible first | intro _ | assumption | apply State.spiSync_keeps | apply Keeps.mk' | rfl

theorem State.spiSelect_keeps {base s : State} (hk : Keeps base s) : Keeps base (State.spiSelect s) := by
  unfold State.spiSelect
  repeat' with_reducible first | intro _ | assumption | apply State.putB_keeps | apply Keeps.mk' | rfl

theorem State.spiShift_keeps {base s : State} {v : Nat} (hk : Keeps base s) : Keeps base (State.spiShift s v) := by
  unfold State.spiShift
  repeat' first
    | (with_reducible first | intro _ | assumption | apply State.bump_keeps | apply State.spiSync_keeps | apply Keeps.ite)
    | (dsimp only)
    | split
    | (with_reducible first | apply Keeps.mk')

theorem State.grnWritten_keeps {base s : State} {i : Nat} {new : Nat} {mask : Nat} {data : Nat} (hk : Keeps base s) : Keeps base (State.grnWritten s i new mask data) := by
  unfold State.grnWritten
  repeat' first
    | (with_reducible first | intro _ | assumption | apply State.putB_keeps | apply State.granUnlock_keeps | apply State.granLock_keeps | apply State.granSetPw_keeps | apply State.wearInc_keeps | apply State.wearLatch_keeps | apply Keeps.ite)
    | (dsimp only)
    | split

theorem State.wchWritten_keeps {base s : State} {who : Who} {i : Nat} {old : Nat} {new : Nat} {mask : Nat} (hk : Keeps base s) : Keeps base (State.wchWritten s who i old new mask) := by
  unfold State.wchWritten
  repeat' with_reducible first | intro _ | assumption | apply State.latchCleared_keeps | apply State.firstCleared_keeps | apply State.setWd_keeps | apply State.heldEnd_keeps | apply State.putB_keeps | apply Keeps.ite | apply Keeps.foldl

theorem State.pwrWritten_keeps {base s : State} {i : Nat} {new : Nat} (hk : Keeps base s) : Keeps base (State.pwrWritten s i new) := by
  unfold State.pwrWritten
  repeat' with_reducible first | intro _ | assumption | apply State.putB_keeps | apply State.setPwr_keeps | apply State.hostLoad_keeps | apply State.resetPart_keeps | apply Keeps.ite | rfl

theorem State.outWritten_keeps {base s : State} {o : Nat} {r : Nat} {old : Nat} {new : Nat} {pos : Nat} (hk : Keeps base s) : Keeps base (State.outWritten s o r old new pos) := by
  unfold State.outWritten
  repeat' first
    | (with_reducible first | intro _ | assumption | apply State.putB_keeps | apply State.syncPend_keeps | apply State.outFine_keeps | apply Keeps.ite)
    | (dsimp only)
    | split

theorem State.ringWritten_keeps {base s : State} {b : Nat} {old : Nat} {new : Nat} (hk : Keeps base s) : Keeps base (State.ringWritten s b old new) := by
  unfold State.ringWritten
  repeat' with_reducible first | intro _ | assumption | apply State.ringEnabled_keeps | apply State.ringDisabled_keeps | apply Keeps.ite

theorem State.written_keeps {base s : State} {who : Who} {k : Nat} {b : Nat} {mask : Nat} {data : Nat} {old : Nat} {new : Nat} {pos : Nat} (hk : Keeps base s) : Keeps base (State.written s who k b mask data old new pos) := by
  unfold State.written
  repeat' first
    | (with_reducible first | intro _ | assumption | apply State.put_keeps | apply State.putB_keeps | apply State.setChan_keeps | apply State.setPrism_keeps | apply State.setEns_keeps | apply State.ensEnabled_keeps | apply State.setHearth_keeps | apply State.putCount_keeps | apply State.setLoom_keeps | apply State.senOff_keeps | apply State.tmOff_keeps | apply State.ltcCapture_keeps | apply State.stepRequest_keeps | apply State.sessForget_keeps | apply State.asymChanged_keeps | apply State.tunnelWrite_keeps | apply State.tunnelSend_keeps | apply State.dropKey_keeps | apply State.keyOverride_keeps | apply State.spiSync_keeps | apply State.spiSelect_keeps | apply State.grnWritten_keeps | apply State.wchWritten_keeps | apply State.pwrWritten_keeps | apply State.outWritten_keeps | apply State.ringWritten_keeps | apply Keeps.ite | apply Keeps.iteFst | apply Keeps.foldlFst)
    | (dsimp only)
    | split

theorem State.present_keeps {base s : State} {who : Who} {off : Nat} {mask : Nat} {data : Nat} {pos : Nat} {lane0 : Bool} (hk : Keeps base s) : Keeps base (State.present s who off mask data pos lane0).1 := by
  unfold State.present
  repeat' first
    | (with_reducible first | intro _ | assumption | apply State.flag_keeps | apply State.setReg_keeps | apply State.spiQueue_keeps | apply State.written_keeps | apply Keeps.ite | apply Keeps.iteFst)
    | (dsimp only)
    | split

theorem State.writeHalf_keeps {base s : State} {who : Who} {off : Nat} {be : Nat} {v : Nat} {pos : Nat} (hk : Keeps base s) : Keeps base (State.writeHalf s who off be v pos) := by
  unfold State.writeHalf
  repeat' first
    | (with_reducible first | intro _ | assumption | apply State.setHost_keeps | apply State.msixSend_keeps | apply State.present_keeps | apply Keeps.ite)
    | (dsimp only)
    | split

theorem State.crossed_keeps {base s : State} {a : Access} (hk : Keeps base s) : Keeps base (State.crossed s a) := by
  unfold State.crossed
  repeat' with_reducible first | intro _ | assumption | apply State.flag_keeps | apply Keeps.mk' | rfl

theorem State.laneWrite_keeps {base s : State} {a : Access} (hk : Keeps base s) : Keeps base (State.laneWrite s a) := by
  unfold State.laneWrite
  repeat' with_reducible first | intro _ | assumption | apply State.writeHalf_keeps | apply Keeps.mk' | rfl

theorem State.regWrite_keeps {base s : State} {a : Access} (hk : Keeps base s) : Keeps base (State.regWrite s a) := by
  unfold State.regWrite
  repeat' with_reducible first | intro _ | assumption | apply State.crossed_keeps | apply State.laneWrite_keeps | apply Keeps.ite

theorem State.popWord_keeps {base s : State} {who : Who} {k : Nat} (hk : Keeps base s) : Keeps base (State.popWord s who k).2 := by
  unfold State.popWord
  repeat' first
    | (with_reducible first | intro _ | assumption | apply State.tunnelPop_keeps | apply Keeps.ite)
    | (dsimp only)
    | split
    | (with_reducible first | apply Keeps.mk')

theorem State.readHalf_keeps {base s : State} {who : Who} {off : Nat} (hk : Keeps base s) : Keeps base (State.readHalf s who off).2 := by
  unfold State.readHalf
  repeat' first
    | (with_reducible first | intro _ | assumption | apply State.popWord_keeps | apply Keeps.ite | apply Keeps.foldl | apply Keeps.foldlFst)
    | (dsimp only)
    | split

theorem State.busRead_keeps {base s : State} {a : Access} (hk : Keeps base s) : Keeps base (State.busRead s a) := by
  unfold State.busRead
  repeat' first
    | (with_reducible first | intro _ | assumption | apply State.crossed_keeps | apply State.readHalf_keeps | apply Keeps.ite)
    | (dsimp only)
    | split
    | (with_reducible first | apply Keeps.mk')

/-! ## Faults -/

theorem State.faultOccurrence_keeps {base s : State} {srcs : List Nat} {ended : List Nat} {bad : List Nat} (hk : Keeps base s) : Keeps base (State.faultOccurrence s srcs ended bad) := by
  unfold State.faultOccurrence
  repeat' with_reducible first | intro _ | assumption | apply State.heldEnd_keeps | apply State.putB_keeps | apply State.setWd_keeps | apply State.occurMany_keeps | apply Keeps.ite | apply Keeps.foldl

theorem State.watchdog_keeps {base s : State} (hk : Keeps base s) : Keeps base (State.watchdog s) := by
  unfold State.watchdog
  repeat' first
    | (with_reducible first | intro _ | assumption | apply State.setWd_keeps | apply State.heldBoundary_keeps | apply Keeps.ite)
    | (dsimp only)
    | split

theorem State.reeveRestart_keeps {base s : State} {src : Nat} {done : Nat} (hk : Keeps base s) : Keeps base (State.reeveRestart s src done) := by
  unfold State.reeveRestart
  repeat' with_reducible first | intro _ | assumption | apply State.discardStaged_keeps | apply State.setWd_keeps | apply State.put_keeps | apply State.bump_keeps

theorem State.isolate_keeps {base s : State} {x : Isol} (hk : Keeps base s) : Keeps base (State.isolate s x) := by
  unfold State.isolate
  repeat' first
    | (with_reducible first | intro _ | assumption | apply State.reeveRestart_keeps | apply State.chanState_keeps | apply State.heraldRestart_keeps | apply State.tmCtl_keeps | apply State.putB_keeps | apply Keeps.ite | apply Keeps.foldl)

theorem State.isolations_keeps {base s : State} (hk : Keeps base s) : Keeps base (State.isolations s) := by
  unfold State.isolations
  repeat' with_reducible first | intro _ | assumption | apply State.setWd_keeps | apply State.isolate_keeps | apply Keeps.ite | apply Keeps.foldl

theorem State.reeveResume_keeps {base s : State} (hk : Keeps base s) : Keeps base (State.reeveResume s) := by
  unfold State.reeveResume
  repeat' first
    | (with_reducible first | intro _ | assumption | apply State.put_keeps | apply State.setWd_keeps | apply Keeps.ite)
    | (dsimp only)
    | split

theorem State.reactionEnd_keeps {base s : State} (hk : Keeps base s) : Keeps base (State.reactionEnd s) := by
  unfold State.reactionEnd
  repeat' with_reducible first | intro _ | assumption | apply State.endReaction_keeps | apply Keeps.ite

theorem State.suppressionEnd_keeps {base s : State} {n : Nat} (hk : Keeps base s) : Keeps base (State.suppressionEnd s n) := by
  unfold State.suppressionEnd
  repeat' with_reducible first | intro _ | assumption | apply State.setWd_keeps

theorem State.overruns_keeps {base s : State} {mil : List Nat} {hrd : Option (List Nat)} {tly : List Nat} {rve : Option Nat} (hk : Keeps base s) : Keeps base (State.overruns s mil hrd tly rve) := by
  unfold State.overruns
  repeat' first
    | (with_reducible first | intro _ | assumption | apply State.setChan_keeps | apply State.setWd_keeps | apply State.occur_keeps | apply State.setHost_keeps | apply State.tmDrop_keeps | apply State.heraldOverrun_keeps | apply State.bump_keeps | apply Keeps.ite | apply Keeps.foldl)
    | (dsimp only)
    | split

theorem State.peaks_keeps {base s : State} {mil : Nat} {tly : Nat} {rve : Nat} {hrd : Nat} (hk : Keeps base s) : Keeps base (State.peaks s mil tly rve hrd) := by
  unfold State.peaks
  repeat' with_reducible first | intro _ | assumption | apply State.peak_keeps | apply Keeps.ite

theorem State.beat_keeps {base s : State} {signal : Bool} (hk : Keeps base s) : Keeps base (State.beat s signal) := by
  unfold State.beat
  repeat' with_reducible first | intro _ | assumption | apply State.setWd_keeps | apply State.put_keeps | apply Keeps.ite

theorem State.junction_keeps {base s : State} {tj : Int} (hk : Keeps base s) : Keeps base (State.junction s tj) := by
  unfold State.junction
  repeat' with_reducible first | intro _ | assumption | apply State.putI_keeps | apply State.heldStart_keeps | apply State.heldEnd_keeps | apply Keeps.ite

theorem State.supplies_keeps {base s : State} {vddo : List Nat} (hk : Keeps base s) : Keeps base (State.supplies s vddo) := by
  unfold State.supplies
  repeat' with_reducible first | intro _ | assumption | apply State.put_keeps | apply State.heldStart_keeps | apply State.heldEnd_keeps | apply Keeps.ite | apply Keeps.foldl

theorem State.sent_keeps {base s : State} {lane : Bool} {f : Nat} {k : Nat} {r : Nat} (hk : Keeps base s) : Keeps base (State.sent s lane f k r) := by
  unfold State.sent
  repeat' first
    | (with_reducible first | intro _ | assumption | apply State.setHost_keeps | apply State.drainRing_keeps | apply Keeps.ite)
    | (dsimp only)
    | split

/-! ## Upstream -/

theorem State.arbitrate_keeps {base s : State} {l : List Backlog} (hk : Keeps base s) : Keeps base (State.arbitrate s l) := by
  unfold State.arbitrate
  extract_lets a s1
  have h1 : Keeps base s1 := State.setHost_keeps hk
  split
  · exact State.sent_keeps h1
  · exact h1

theorem State.carry_keeps {base s : State} {n link : Nat} (hk : Keeps base s) : Keeps base (s.carry n link) := by
  induction n generalizing s link with
  | zero => exact hk
  | succ n ih =>
    unfold State.carry
    exact Keeps.ite hk (ih (State.arbitrate_keeps hk))

theorem State.carryTick_keeps {base s : State} {link : Nat} (hk : Keeps base s) : Keeps base (s.carryTick link) :=
  State.carry_keeps hk

theorem State.drainSteps_keeps {base s : State} {fuel n : Nat} (hk : Keeps base s) : Keeps base (s.drainSteps fuel n) := by
  induction fuel generalizing s n with
  | zero => exact hk
  | succ fuel ih =>
    unfold State.drainSteps
    exact Keeps.ite hk (ih (State.arbitrate_keeps hk))

theorem State.drain_keeps {base s : State} {n : Nat} (hk : Keeps base s) : Keeps base (s.drain n) := State.drainSteps_keeps hk

theorem State.readTurn_keeps {base s t : State} {l : List Backlog} {f k r n : Nat} (hk : Keeps base s)
    (h : s.readTurn l f k r n = some t) : Keeps base t := by
  induction n generalizing s with
  | zero => cases h
  | succ n ih =>
    unfold State.readTurn at h
    dsimp only at h
    split at h
    · cases h
    · split at h
      · exact ih (State.arbitrate_keeps hk) h
      · split at h
        · cases h
          exact State.setHost_keeps hk
        · cases h

theorem State.arbBoundary_keeps {base s : State} (hk : Keeps base s) : Keeps base (State.arbBoundary s) := by
  unfold State.arbBoundary
  repeat' with_reducible first | intro _ | assumption | apply State.setHost_keeps

theorem State.registerImage_keeps {base s : State} (hk : Keeps base s) : Keeps base (State.registerImage s) := by
  unfold State.registerImage
  repeat' with_reducible first | intro _ | assumption | apply State.raise_keeps | apply State.writeHalf_keeps | apply State.hearthLoad_keeps | apply State.imageApplied_keeps | apply Keeps.ite | apply Keeps.foldl

/-! ## Command -/

theorem State.refForce_keeps {base s : State} {c : Nat} {pl : List Byte} (hk : Keeps base s) : Keeps base (State.refForce s c pl) := by
  unfold State.refForce
  repeat' first
    | (with_reducible first | intro _ | assumption | apply State.put_keeps | apply State.putB_keeps | apply State.reselect_keeps | apply Keeps.ite)
    | (dsimp only)
    | split

theorem State.prioTable_keeps {base s : State} {c : Nat} {pl : List Byte} (hk : Keeps base s) : Keeps base (State.prioTable s c pl) := by
  unfold State.prioTable
  repeat' with_reducible first | intro _ | assumption | apply State.putWord_keeps | apply Keeps.foldl

theorem State.wchClear_keeps {base s : State} {pl : List Byte} (hk : Keeps base s) : Keeps base (State.wchClear s pl) := by
  unfold State.wchClear
  repeat' with_reducible first | intro _ | assumption | apply State.putB_keeps | apply State.latchCleared_keeps | apply State.setWd_keeps | apply State.firstCleared_keeps | apply Keeps.ite | apply Keeps.foldl

theorem State.verdict_keeps {base : State} {r : State × Bool} (h : Keeps base r.1) : Keeps base (State.verdict r).1 := h

theorem State.applyCmd_keeps {base s : State} {d : Desc} (hk : Keeps base s) : Keeps base (State.applyCmd s d).1 := by
  unfold State.applyCmd
  repeat' first
    | (with_reducible first | intro _ | assumption | apply State.refOverride_keeps | apply State.ensembleSet_keeps | apply State.tamperClear_keeps | apply State.chanState_keeps | apply State.chanPhase_keeps | apply State.chanLoop_keeps | apply State.storeRequest_keeps | apply State.pfMark_keeps | apply State.refit_keeps | apply State.hearthClear_keeps | apply State.hearthStop_keeps | apply State.hearthResume_keeps | apply State.hearthStore_keeps | apply State.outCtl_keeps | apply State.syncGroup_keeps | apply State.loomTune_keeps | apply State.loomRelock_keeps | apply State.tcdCtl_keeps | apply State.armUnit_keeps | apply State.burstDisarm_keeps | apply State.burstSoft_keeps | apply State.capMark_keeps | apply State.tmCtl_keeps | apply State.senCtl_keeps | apply State.asymResults_keeps | apply State.asymSet_keeps | apply State.ptpInst_keeps | apply State.sessAdd_keeps | apply State.sessDel_keeps | apply State.acceptApply_keeps | apply State.plkCtl_keeps | apply State.keyCtl_keeps | apply State.modeSet_keeps | apply State.present_keeps | apply State.refForce_keeps | apply State.prioTable_keeps | apply State.wchClear_keeps | apply State.verdict_keeps | apply Keeps.ite | apply Keeps.iteFst | apply Keeps.foldlFst)
    | (dsimp only)
    | split

theorem State.stepEnd_keeps {base s : State} {d : Desc} {e : State.StepEnd} (hk : Keeps base s) : Keeps base (State.stepEnd s d e) := by
  unfold State.stepEnd
  repeat' with_reducible first | intro _ | assumption | apply State.showA_keeps | apply State.acceptEnd_keeps | apply State.setPi_keeps | apply Keeps.ite

/-- A command of a set moves the clock by a step alone. -/
theorem State.SetRun.one_steps {base : State} {e : State.SetRun} {x : Staged} (h : Steps base e.s) : Steps base (e.one x).s := by
  unfold State.SetRun.one
  split
  · exact h.keeps State.applyCmd_keeps
  · split
    · dsimp only
      exact h.keeps fun k => by refine State.setLtc_keeps k ?_ ?_ ?_ ?_ <;> rfl
    · exact (h.trans (State.stepTake_steps (.refl _))).keeps State.stepEnd_keeps

theorem State.SetRun.all_steps {base : State} {e : State.SetRun} {l : List Staged} (h : Steps base e.s) :
    Steps base (e.all l).s := by
  induction l generalizing e with
  | nil => exact h
  | cons x l ih =>
    unfold State.SetRun.all
    split
    · exact h
    · exact ih (State.SetRun.one_steps h)

theorem State.SetRun.done_steps {base : State} {e : State.SetRun} (h : Steps base e.s) : Steps base e.done := by
  unfold State.SetRun.done
  exact Steps.ite h (h.keeps fun k => Keeps.foldl k fun _ _ hx => State.finish_keeps hx)

theorem State.syncStage_keeps {base s : State} (hk : Keeps base s) : Keeps base (State.syncStage s) := by
  unfold State.syncStage
  repeat' with_reducible first | intro _ | assumption | apply State.peak_keeps | apply State.put_keeps

theorem State.stage_keeps {base s : State} {d : Desc} {ready : Nat} (hk : Keeps base s) : Keeps base (State.stage s d ready) := by
  unfold State.stage
  repeat' with_reducible first | intro _ | assumption | apply State.syncStage_keeps | apply State.setHost_keeps

theorem State.SetRun.due_steps {base : State} {e : State.SetRun} (h : Steps base e.s) : Steps base e.due.s := by
  unfold State.SetRun.due
  exact State.SetRun.all_steps
    (h.keeps fun k => State.syncStage_keeps (State.setHost_keeps (State.setLtc_keeps k rfl rfl rfl rfl)))

theorem State.applySet_steps {base s : State} (hk : Keeps base s) : Steps base (State.applySet s) := by
  unfold State.applySet
  have h := State.registerStep_steps hk
  dsimp only
  refine Steps.ite (h.keeps State.setHost_keeps) (State.SetRun.done_steps ?_)
  split
  · exact State.SetRun.due_steps h
  · exact State.SetRun.due_steps (State.SetRun.due_steps h)

theorem State.reserve_keeps {base s : State} {d : Desc} (hk : Keeps base s) : Keeps base (State.reserve s d) := by
  unfold State.reserve
  repeat' first
    | (with_reducible first | intro _ | assumption | apply State.setRing_keeps | apply State.charge_keeps | apply Keeps.ite | apply Keeps.iteFst | apply Keeps.foldlFst)
    | (dsimp only)
    | split

theorem State.takeIn_keeps {base s : State} {d : Desc} {ready : Nat} (hk : Keeps base s) : Keeps base (State.takeIn s d ready) := by
  unfold State.takeIn
  repeat' first
    | (with_reducible first | intro _ | assumption | apply State.stage_keeps | apply State.setHrd_keeps)
    | (dsimp only)
    | split

theorem State.fetchTurn_keeps {base s t : State} {f cls ring : Nat} (hk : Keeps base s) (h : s.fetchTurn f cls ring = some t) :
    Keeps base t := State.readTurn_keeps hk h

theorem State.consume_keeps {base s : State} {b : Nat} (hk : Keeps base s) : Keeps base (State.consume s b) := by
  unfold State.consume
  repeat' with_reducible first | intro _ | assumption | apply State.setHost_keeps | apply State.setRing_keeps | apply State.put_keeps

theorem State.fetched_keeps {base s : State} {f : Nat} {cls : Nat} {ring : Nat} {bytes : Option (List Byte)} {ind : Option (List Byte)} (hk : Keeps base s) : Keeps base (State.fetched s f cls ring bytes ind) := by
  unfold State.fetched
  repeat' first
    | (with_reducible first | intro _ | assumption | apply State.occur_keeps | apply State.setRing_keeps | apply State.finish_keeps | apply State.reserve_keeps | apply State.takeIn_keeps | apply State.consume_keeps | apply Keeps.ite)
    | (dsimp only)
    | split

theorem State.fetch_keeps {base s : State} {f : Nat} {cls : Nat} {ring : Nat} {bytes : Option (List Byte)} {ind : Option (List Byte)} (hk : Keeps base s) : Keeps base (State.fetch s f cls ring bytes ind) := by
  unfold State.fetch
  split
  · exact hk
  · split
    · exact State.fetched_keeps hk
    · split
      · exact hk
      · rename_i h
        exact State.fetched_keeps (State.fetchTurn_keeps hk h)

theorem State.milFollows_keeps {base s : State} (hk : Keeps base s) : Keeps base (State.milFollows s) := by
  unfold State.milFollows
  repeat' first
    | (with_reducible first | intro _ | assumption | apply State.regain_keeps | apply State.latchChan_keeps | apply State.milEnable_keeps | apply Keeps.foldl)
    | (dsimp only)
    | split

theorem State.afterCmd_keeps {base s : State} {d : Desc} (hk : Keeps base s) : Keeps base (State.afterCmd s d) := by
  unfold State.afterCmd
  repeat' first
    | (with_reducible first | intro _ | assumption | apply State.regain_keeps | apply State.latchLim_keeps | apply State.milFollows_keeps | apply State.combJumps_keeps | apply State.groupResets_keeps | apply State.tmFirst_keeps | apply State.leapLanded_keeps)
    | (dsimp only)
    | split

theorem State.runCmd_steps {base s : State} {d : Desc} (hk : Keeps base s) : Steps base (State.runCmd s d) := by
  unfold State.runCmd
  extract_lets e1 e2 e3
  have h1 : Steps base e1.s := State.SetRun.one_steps (e := State.SetRun.mk s s.ltc.landed []) hk.steps
  have h2 : Steps base e2.s := by
    unfold e2
    split
    · exact h1
    · exact State.SetRun.due_steps h1
  have h3 : Steps base e3.s := by
    unfold e3
    split
    · exact h2.keeps fun k => Keeps.foldl k fun _ _ hx => State.tmFirst_keeps hx
    · exact h2
  exact State.SetRun.done_steps (h3.keeps State.afterCmd_keeps)

theorem State.command_steps {base s : State} {cls : Nat} {opc : Nat} {d : Desc} (hk : Keeps base s) :
    Steps base (State.command s cls opc d) := by
  unfold State.command
  extract_lets d1 s1
  refine Steps.ite hk.steps ?_
  have h1 : Keeps base s1 := State.reserve_keeps (State.charge_keeps hk)
  split
  · exact (Keeps.ite (State.occur_keeps (State.finish_keeps h1)) (State.finish_keeps h1)).steps
  · refine Steps.ite (State.takeIn_keeps h1).steps (Steps.ite (State.stage_keeps h1).steps ?_)
    exact Steps.ite (State.runCmd_steps h1) (State.again_steps h1 (fun _ h => State.runCmd_steps h))

theorem State.bypassEdges_keeps {base s : State} {x : TickIn} (hk : Keeps base s) : Keeps base (State.bypassEdges s x) := by
  unfold State.bypassEdges
  repeat' first
    | (with_reducible first | intro _ | assumption | apply State.bypassEdge_keeps | apply Keeps.ite | apply Keeps.foldl | apply Keeps.iteFst | apply Keeps.foldlFst)
    | (dsimp only)
    | split

/-! ## Boundary -/

theorem State.tickOwes_keeps {base s : State} {x : TickIn} (hk : Keeps base s) : Keeps base (State.tickOwes s x) := by
  unfold State.tickOwes
  repeat' first
    | (with_reducible first | intro _ | assumption | apply State.putI_keeps | apply State.setWd_keeps | apply State.ensDue_keeps | apply State.tcDeadline_keeps | apply State.millerDue_keeps | apply State.intervalEnd_keeps | apply State.emberSecondStep_keeps | apply State.loomDue_keeps | apply State.ppsEdge_keeps | apply State.frame_keeps | apply State.windowsOver_keeps | apply State.tallyDue_keeps | apply State.utcCarried_keeps | apply State.heraldDue_keeps | apply State.plkDue_keeps | apply State.mirDue_keeps | apply State.overruns_keeps | apply State.peaks_keeps | apply State.beat_keeps | apply State.junction_keeps | apply State.supplies_keeps | apply State.carryTick_keeps | apply State.registerImage_keeps | apply State.bypassEdges_keeps | apply Keeps.ite | apply Keeps.foldl | apply Keeps.iteFst | apply Keeps.foldlFst)
    | (dsimp only)
    | split

theorem State.tickFlush_keeps {base s : State} (hk : Keeps base s) : Keeps base (State.tickFlush s) := by
  unfold State.tickFlush
  repeat' with_reducible first | intro _ | assumption | apply State.closeRings_keeps | apply State.msixAll_keeps | apply State.writeBacks_keeps | apply State.flushEvents_keeps | apply State.thresholds_keeps

theorem State.onTimeEdges_keeps {base s : State} (hk : Keeps base s) : Keeps base (State.onTimeEdges s) := by
  unfold State.onTimeEdges
  repeat' first
    | (with_reducible first | intro _ | assumption | apply State.setTc_keeps | apply State.tcEdge_keeps | apply Keeps.ite | apply Keeps.foldl)
    | (dsimp only)
    | split

theorem State.publish_keeps {base s : State} {x : TickIn} {held : Bool} (hk : Keeps base s) : Keeps base (State.publish s x held) := by
  unfold State.publish
  repeat' first
    | (with_reducible first | intro _ | assumption | apply State.runMonitors_keeps | apply State.judge_keeps | apply State.setQuality_keeps | apply State.ensQuality_keeps | apply State.ensAll_keeps | apply State.heraldSamples_keeps | apply State.pathSuspects'_keeps | apply State.asymResults_keeps | apply State.heraldQuality_keeps | apply State.heraldStates_keeps | apply State.plkSamples_keeps | apply State.plkQuality_keeps | apply State.onTimeEdges_keeps | apply Keeps.ite | apply Keeps.foldl)
    | (dsimp only)
    | split

theorem State.takeRefit_keeps {base s : State} (hk : Keeps base s) : Keeps base (State.takeRefit s) := by
  unfold State.takeRefit
  repeat' with_reducible first | intro _ | assumption | apply State.setMir_keeps | apply State.refitTakes_keeps | apply Keeps.ite

theorem State.latchCommitted_keeps {base s : State} (hk : Keeps base s) : Keeps base (State.latchCommitted s) := by
  unfold State.latchCommitted
  repeat' first
    | (with_reducible first | intro _ | assumption | apply State.select_keeps | apply State.preLockAll_keeps | apply State.latchPreLock_keeps | apply State.publishErr_keeps | apply State.millerApplyAll_keeps | apply State.removals_keeps | apply State.selSave_keeps | apply State.hearthTick_keeps | apply State.hearthLatch_keeps | apply State.dropFuture_keeps | apply State.mirLatch_keeps | apply State.takeRefit_keeps | apply Keeps.ite | apply Keeps.foldl)
    | (dsimp only)
    | split

theorem State.beforeSet_steps {base s : State} (hk : Keeps base s) : Steps base (State.beforeSet s) := by
  unfold State.beforeSet
  extract_lets tn s1 s2 s3 s4 s5
  have h2 : Steps base s2 := State.mirBoundary_steps (State.burstBoundary_keeps (State.burstBoundary_keeps hk))
  have h3 : Steps base s3 := ((h2.keeps State.powerBoundary_keeps).keeps State.safeEntry_keeps).keeps State.safeExit_keeps
  have h4 : Steps base s4 := Steps.ite h3 (h3.keeps State.m6Completes_keeps)
  have h5 : Steps base s5 := Steps.ite (h4.keeps State.autoTake_keeps) h4
  exact (h5.keeps State.flrBoundary_keeps).keeps State.tcdBoundary_keeps

theorem State.follows_keeps {base s : State} (hk : Keeps base s) : Keeps base (State.follows s) := by
  unfold State.follows
  repeat' first
    | (with_reducible first | intro _ | assumption | apply State.latchEns_keeps | apply State.milFollows_keeps | apply State.latchMil_keeps | apply State.hrtLocCheck_keeps | apply State.latchHearth_keeps | apply State.outputsFollow_keeps | apply State.limitCheck_keeps | apply State.bridgeBoundary_keeps | apply State.combJumps_keeps | apply State.loomBoundary_keeps | apply State.groupResets_keeps | apply State.lensFollow_keeps | apply Keeps.ite | apply Keeps.foldl)
    | (dsimp only)
    | split

theorem State.reactBoundary_keeps {base s : State} (hk : Keeps base s) : Keeps base (State.reactBoundary s) := by
  unfold State.reactBoundary
  repeat' first
    | (with_reducible first | intro _ | assumption | apply State.isolations_keeps | apply State.reactionEnd_keeps)
    | (dsimp only)
    | split

theorem State.watchBoundary_keeps {base s : State} (hk : Keeps base s) : Keeps base (State.watchBoundary s) := by
  unfold State.watchBoundary
  repeat' first
    | (with_reducible first | intro _ | assumption | apply State.syncDq_keeps | apply State.heldBoundary_keeps | apply State.watchdog_keeps | apply Keeps.foldl)
    | (dsimp only)
    | split

theorem State.newTick_keeps {base s : State} {x : TickIn} (hk : Keeps base s) : Keeps base (State.newTick s x) := by
  unfold State.newTick
  repeat' first
    | (with_reducible first | intro _ | assumption | apply State.latchRefs_keeps | apply State.milStatus_keeps | apply State.hearthStatus_keeps | apply State.syncQuality_keeps | apply State.latchTq_keeps | apply State.bufDiscard_keeps | apply State.lensAccept_keeps | apply State.senPublish_keeps | apply State.tallyBoundary_keeps | apply State.heraldBoundary_keeps | apply State.plkPortBoundary_keeps | apply State.linkSend_keeps | apply State.timeOriginate_keeps | apply State.syncDrv_keeps | apply State.showCommit_keeps | apply State.millerWork_keeps | apply Keeps.ite | apply Keeps.foldl)
    | (dsimp only)
    | split

theorem State.judgeEarly_keeps {base s : State} {r : RefIn} (hk : Keeps base s) : Keeps base (State.judgeEarly s r) := by
  unfold State.judgeEarly
  extract_lets i now tick span t1 t2 t3
  have h2 : Keeps t1 t2 := Keeps.ite (State.addRes_keeps (.refl _)) (.refl _)
  have h3 : Keeps t1 t3 := State.judge_keeps (State.runMonitors_keeps h2)
  refine hk.trans ⟨⟨h3.variant, h3.pending, fun w => h3.wf w⟩, rfl, h3.clock.sec, h3.clock.ns, h3.clock.frac, h3.clock.stepped, h3.clock.supply⟩

theorem State.monitorDue_keeps {base s : State} {r : RefIn} (hk : Keeps base s) : Keeps base (State.monitorDue s r) := by
  unfold State.monitorDue
  repeat' with_reducible first | intro _ | assumption | apply State.judgeEarly_keeps | apply Keeps.ite

theorem State.soakEnd_keeps {base s : State} {r : RefIn} (hk : Keeps base s) : Keeps base (State.soakEnd s r) := by
  unfold State.soakEnd
  repeat' with_reducible first | intro _ | assumption | apply State.judgeEarly_keeps | apply Keeps.ite

theorem State.missingEdge_keeps {base s : State} {i : Nat} {pos : Nat} (hk : Keeps base s) : Keeps base (State.missingEdge s i pos) := by
  unfold State.missingEdge
  repeat' first
    | (with_reducible first | intro _ | assumption | apply State.missEdge_keeps | apply Keeps.ite)
    | (dsimp only)
    | split

theorem State.offAtBoundary_or (s : State) :
    s.offAtBoundary = s ∨ (s.offAtBoundary = s.powerOff ∧ s.offAtBoundary.mode = 0 ∧ s.offAtBoundary.ltc = {} ∧
      s.pwr.coreFail ≠ none) := by
  unfold State.offAtBoundary
  split
  · rename_i h
    refine .inr ⟨rfl, ?_, rfl, fun p => by rw [p, Option.any_none, Bool.and_false] at h; exact Bool.false_ne_true h⟩
    show (State.powerOff s).get pwrR PWR_STATUS_MODE = 0
    unfold State.powerOff
    simp (disch := decide) only [State.putB_eq, State.get_put_ne, State.get_put_same]
    rfl
  · exact .inl rfl

theorem State.storeEnd_keeps {base s : State} {ok : Bool} (hk : Keeps base s) : Keeps base (State.storeEnd s ok) := by
  unfold State.storeEnd
  repeat' first
    | (with_reducible first | intro _ | assumption | apply State.pageStoreComplete_keeps | apply State.hrtStored_keeps | apply Keeps.ite)
    | (dsimp only)
    | split

theorem State.granBlank_keeps {base s : State} {n : Nat} (hk : Keeps base s) : Keeps base (State.granBlank s n) := by
  unfold State.granBlank
  repeat' with_reducible first | intro _ | assumption | apply Keeps.mk' | rfl

end Sys2Proof.Machine
end

