-- ==== Sys2Proof/Laws/Clock.lean ====
section
/-! SUPPORT. What a tick boundary does to the clock. -/

namespace Sys2Proof.Machine

theorem State.ltcPut_steady (s : State) (r : Nat) : (s.ltcPut (s.ltcRaw 0 + r)).ltc.steady = s.ltc.steady + r := by
  have h : s.ltc.steady = (s.ltcRaw 0 : Nat) - (s.ltc.stepped : Int) := by
    simp only [State.ltcRaw, Nat.add_zero, Ltc.steady]
  have e := State.ltcPut_ltc s (s.ltcRaw 0 + r)
  rw [h]
  generalize s.ltcRaw 0 = a at e ⊢
  refine (Ltc.steady_put (x := a + r) (n := 0) (u := a + r) rfl rfl rfl rfl (by rw [e]; rfl) (Nat.add_zero _).symm).trans ?_
  generalize s.ltc.stepped = b
  omega

theorem State.tickRest_same {s t : State} (h : SameClock s t) : t.tickRest = s.tickRest := by
  unfold State.tickRest
  rw [h.ns, h.frac]

theorem State.ltcPut_holds (s : State) (u : Nat) : Holds s (s.ltcPut u) := by
  exact Holds.frame rfl rfl rfl rfl rfl

theorem State.setPrism_holds (s : State) (f : PrismSt → PrismSt) : Holds s (s.setPrism f) :=
  Holds.frame (State.setPrism_variant ..) (State.setPrism_pending ..) (State.setPrism_regs ..) (State.setPrism_hostMem ..)
    (State.setPrism_gran ..)

/-- The counter at the next boundary: one boundary more, and the rest of the tick. -/
theorem State.tickAdvance_clock (s : State) :
    Holds s s.tickAdvance ∧ s.tickAdvance.prism.tick = s.prism.tick + 1 ∧
      s.tickAdvance.ltc.steady = s.ltc.steady + (s.tickRest : Nat) ∧
      (s.pwr.coreFail = none → s.tickAdvance.pwr.coreFail = none) := by
  unfold State.tickAdvance
  extract_lets ended span secs s1 s2 s3 s4
  have h1 : Keeps s s1 := State.advanceAnchors_keeps (State.advancePhases_keeps (.refl s))
  have q2 : s2.ltc.steady = s1.ltc.steady + (s1.tickRest : Nat) := State.ltcPut_steady s1 s1.tickRest
  have w2 : Holds s1 s2 := State.ltcPut_holds s1 _
  have p2 : s2.prism = s1.prism := State.ltcPut_prism s1 _
  have v2 : s2.pwr = s1.pwr := State.ltcPut_pwr s1 _
  clear_value s2
  rw [State.tickRest_same h1.clock, h1.steps.steady] at q2
  replace p2 : s2.prism.tick = s.prism.tick := by rw [p2, h1.clock.tick]
  replace w2 := h1.toHolds.trans w2
  have h3 : Keeps s2 s3 := State.setLtc_keeps (.refl _) rfl rfl rfl rfl
  have q3 := h3.steps.steady.trans q2
  have p3 := h3.clock.tick.trans p2
  have w3 := w2.trans h3.toHolds
  clear_value s3
  have w4 : Holds s3 s4 := State.setPrism_holds s3 _
  have p4 : s4.prism.tick = s3.prism.tick + 1 := .refl _
  have l4 : s4.ltc = s3.ltc := State.setPrism_ltc ..
  have v4 : s4.pwr = s3.pwr := State.setPrism_pwr ..
  clear_value s4
  rw [← l4] at q3
  refine ⟨(w3.trans w4).trans (State.setHost_keeps (.refl s4)).toHolds, p4.trans (by rw [p3]), ?_⟩
  rw [State.setHost_ltc]
  refine ⟨q3, fun p => ?_⟩
  rw [State.setHost_pwr, v4]
  exact h3.clock.supply (by rw [v2]; exact h1.clock.supply p)

/-- A boundary of a part in M1 to M13: one boundary more, and the steady time on by the rest of the tick; or the supply has
gone (R625), which takes a failure of the core supplies before it. -/
theorem State.tickBoundary_clock (s : State) (x : TickIn) (h0 : s.mode ≠ 0) :
    Holds s (s.tickBoundary x) ∧
      (((s.tickBoundary x).mode = 0 ∧ (s.tickBoundary x).ltc = {} ∧ s.pwr.coreFail ≠ none) ∨
       ((s.tickBoundary x).prism.tick = s.prism.tick + 1 ∧
        (s.tickBoundary x).ltc.steady = s.ltc.steady + (s.tickRest : Nat))) := by
  unfold State.tickBoundary
  rw [if_neg h0]
  extract_lets s1 s2 s3 held s4 a5 a6 b5 b6 b7 b8
  have ho : Keeps s ((s.tickOwes x).tickFlush) := State.tickFlush_keeps (State.tickOwes_keeps (.refl s))
  obtain ⟨w1, p1, q1, c1⟩ := State.tickAdvance_clock ((s.tickOwes x).tickFlush)
  have w1 : Holds s s1 := ho.toHolds.trans w1
  have c1 : s.pwr.coreFail = none → s1.pwr.coreFail = none := fun p => c1 (ho.clock.supply p)
  have p1 : s1.prism.tick = s.prism.tick + 1 := by rw [← ho.clock.tick]; exact p1
  have q1 : s1.ltc.steady = s.ltc.steady + (s.tickRest : Nat) := by
    rw [← ho.steps.steady, ← State.tickRest_same ho.clock]; exact q1
  clear_value s1
  rcases State.offAtBoundary_or s1 with e | ⟨e, m, l, f⟩
  · have fin : ∀ t : State, Steps s1 t → Holds s t ∧ ((t.mode = 0 ∧ t.ltc = {} ∧ s.pwr.coreFail ≠ none) ∨
        (t.prism.tick = s.prism.tick + 1 ∧ t.ltc.steady = s.ltc.steady + (s.tickRest : Nat))) := by
      intro t k
      exact ⟨w1.trans k.toHolds, .inr ⟨k.tick.trans p1, k.steady.trans q1⟩⟩
    have e2 : s2 = s1 := e
    clear_value s2
    subst e2
    have h3 : Keeps s2 s3 := State.emberEntry_keeps (.refl _)
    clear_value s3
    have h4 : Keeps s2 s4 := State.leapStep_keeps (State.reeveResume_keeps h3)
    clear_value s4 held
    split
    · exact fin _ (Keeps.refl _).steps
    · split
      · have h5 : Keeps s2 a5 := State.watchBoundary_keeps (State.flrBoundary_keeps (State.safeEntry_keeps
          (State.powerBoundary_keeps (State.reactBoundary_keeps h4))))
        have h6 : Steps s2 a6 := ((State.applySet_steps h5).keeps State.syncInc_keeps).keeps State.arbBoundary_keeps
        clear_value a6
        split
        · exact fin _ (h6.keeps State.utcLatch_keeps)
        · exact fin _ ((((h6.keeps State.milFollows_keeps).keeps State.latchMil_keeps).keeps State.utcLatch_keeps).keeps
            State.syncQuality_keeps)
      · have h5 : Keeps s2 b5 := State.reactBoundary_keeps (State.latchCommitted_keeps (State.publish_keeps h4))
        have h6 : Steps s2 b6 := ((State.beforeSet_steps h5).trans (State.applySet_steps (.refl _))).keeps State.leapLanded_keeps
        clear_value b6
        split
        · exact fin _ ((h6.keeps State.syncInc_keeps).keeps State.utcLatch_keeps)
        · refine fin _ (Steps.keeps (t := b8) ?_ State.newTick_keeps)
          exact (((((h6.keeps State.follow_keeps).keeps State.utcLatch_keeps).keeps State.follows_keeps).keeps
            State.keeperCopies_keeps).keeps State.arbBoundary_keeps).keeps State.watchBoundary_keeps
  · have m2 : s2.mode = 0 := m
    rw [if_pos m2]
    refine ⟨?_, .inl ⟨m, l, fun p => f (c1 p)⟩⟩
    exact w1.trans (by rw [show s2 = s1.powerOff from e]; exact State.powerOff_holds)

end Sys2Proof.Machine
end

