-- ==== Sys2Proof/Laws/Watch.lean ====
section
/-! SUPPORT. What an occurrence can touch: the registers of Watchman's window, its own state and the events of the tick. -/

namespace Sys2Proof.Machine

/-- Nothing differs but registers of the WCH window, Watchman's own state and the host side. -/
structure WatchOnly (s t : State) : Prop where
  reg : ∀ k, k < 2048 ∨ 3072 ≤ k → t.reg k = s.reg k
  rest : ∃ r h w, t = { s with regs := r, host := h, wd := w }

namespace WatchOnly

variable {r s t u : State}

theorem refl (s : State) : WatchOnly s s := ⟨fun _ _ => rfl, _, _, _, rfl⟩

theorem trans (h : WatchOnly s t) (k : WatchOnly t u) : WatchOnly s u :=
  ⟨fun j hj => (k.reg j hj).trans (h.reg j hj), by
    obtain ⟨r1, h1, w1, rfl⟩ := h.rest
    obtain ⟨r2, h2, w2, rfl⟩ := k.rest
    exact ⟨r2, h2, w2, rfl⟩⟩

theorem ite {c : Prop} [Decidable c] (h : WatchOnly r s) (k : WatchOnly r t) : WatchOnly r (if c then s else t) := by
  split <;> assumption

theorem put (h : WatchOnly r s) (f : Fld) (v : Nat) (hf : f.idx < 1024) : WatchOnly r (s.put wchR f v) :=
  h.trans ⟨fun k hk => State.reg_put_ne s _ _ _ (by simp only [wchR]; omega), _, _, _, rfl⟩

theorem putB (h : WatchOnly r s) (f : Fld) (v : Bool) (hf : f.idx < 1024) : WatchOnly r (s.putB wchR f v) := h.put f _ hf

theorem setWd (h : WatchOnly r s) (f : WatchSt → WatchSt) : WatchOnly r (s.setWd f) := h.trans ⟨fun _ _ => rfl, _, _, _, rfl⟩

theorem raise (h : WatchOnly r s) (e i d : Nat) : WatchOnly r (s.raise e i d) := h.trans ⟨fun _ _ => rfl, _, _, _, rfl⟩

theorem foldl {α : Type} {f : State → α → State} {l : List α} (h : WatchOnly r s)
    (hf : ∀ x a, a ∈ l → WatchOnly r x → WatchOnly r (f x a)) : WatchOnly r (l.foldl f s) := by
  induction l generalizing s with
  | nil => exact h
  | cons a l ih => exact ih (hf s a (by simp) h) (fun x b hb => hf x b (by simp [hb]))

theorem mapBit_idx {f : Fld} {n : Nat} (hn : n < 96) (hf : f.idx < 900) : (State.mapBit f n).idx < 1024 := by
  simp only [State.mapBit, Fld.at, Fld.bit]; omega

end WatchOnly

namespace State

variable {r s : State}

theorem ev114_watch (h : WatchOnly r s) (n sev : Nat) (q e : Bool) : WatchOnly r (s.ev114 n sev q e) := by
  unfold ev114; exact h.ite (h.raise _ _ _)

theorem suppress_watch (h : WatchOnly r s) (n : Nat) (u : Option Nat) : WatchOnly r (s.suppress n u) := by
  unfold suppress; exact h.foldl (fun _ _ _ hx => hx.setWd _)

theorem startReaction_watch (h : WatchOnly r s) (n sev tick : Nat) (q e : Bool) :
    WatchOnly r (s.startReaction n sev tick q e) := by
  unfold startReaction
  apply suppress_watch
  have h1 := ev114_watch h n sev q e
  exact (h1.setWd _).ite ((h1.setWd _).ite h1)

theorem makeCurrent_watch (h : WatchOnly r s) (n sev tick : Nat) : WatchOnly r (s.makeCurrent n sev tick) := by
  unfold makeCurrent
  exact (((h.putB _ _ (by decide)).put _ _ (by decide)).put _ _ (by decide)).setWd _

theorem queueReaction_watch (h : WatchOnly r s) {n : Nat} (hn : n < 96) : WatchOnly r (s.queueReaction n) := by
  unfold queueReaction
  exact ((h.putB _ _ (WatchOnly.mapBit_idx hn (by decide))).put _ _ (by decide)).setWd _

theorem react_watch (h : WatchOnly r s) {n : Nat} (hn : n < 96) (sev : Nat) : WatchOnly r (s.react n sev) := by
  unfold react
  apply WatchOnly.ite (suppress_watch (ev114_watch h _ _ _ _) _ _)
  split
  · exact makeCurrent_watch (startReaction_watch h _ _ _ _ _) _ _ _
  · apply WatchOnly.ite h
    apply WatchOnly.ite (queueReaction_watch h hn)
    apply WatchOnly.ite ((startReaction_watch h _ _ _ _ _).setWd _)
    exact WatchOnly.ite (startReaction_watch h _ _ _ _ _) (makeCurrent_watch (startReaction_watch h _ _ _ _ _) _ _ _)

theorem recordFirst_watch (h : WatchOnly r s) (n sev : Nat) (m : Bool) : WatchOnly r (s.recordFirst n sev m) := by
  unfold recordFirst put64
  apply WatchOnly.ite h
  exact (((((h.put _ _ (by decide)).put _ _ (by decide)).putB _ _ (by decide)).putB _ _ (by decide)).put _ _
    (by decide)).put _ _ (by decide)

theorem wfListed_lt {n : Nat} (h : wfListed n = true) : n < 96 := by
  simp only [wfListed, Bool.or_eq_true, Bool.and_eq_true, decide_eq_true_eq, beq_iff_eq] at h
  omega

/-- One occurrence touches Watchman's window and state, and may raise events. -/
theorem occurOne_watch (h : WatchOnly r s) (n : Nat) (m : Bool) : WatchOnly r (s.occurOne n m) := by
  unfold occurOne
  by_cases hp : s.wfPresent n = true
  · have hn : n < 96 := wfListed_lt (by simp only [wfPresent, Bool.and_eq_true] at hp; exact hp.1.1.1.1)
    rw [if_neg (by simp [hp])]
    apply WatchOnly.ite
    · unfold consequential
      exact (h.putB _ _ (WatchOnly.mapBit_idx hn (by decide))).setWd _
    · apply WatchOnly.ite (h.setWd _)
      unfold syncSafehold
      apply WatchOnly.putB _ _ _ (by decide)
      apply react_watch _ hn
      apply recordFirst_watch
      exact ((h.setWd _).putB _ _ (WatchOnly.mapBit_idx hn (by decide))).setWd _
  · rw [if_pos (by simpa using hp)]; exact h

theorem occur_watch (h : WatchOnly r s) (n : Nat) : WatchOnly r (s.occur n) := occurOne_watch h n false

/-! ## Counts -/

theorem ev114_wd (s : State) (n sev : Nat) (q e : Bool) : (s.ev114 n sev q e).wd = s.wd := by
  unfold ev114; split
  · rfl
  · exact raise_wd _ _ _ _

theorem suppress_cnt (s : State) (n : Nat) (u : Option Nat) : (s.suppress n u).wd.cnt = s.wd.cnt := by
  unfold suppress
  generalize wfDependants n = l
  induction l generalizing s with
  | nil => rfl
  | cons a l ih => rw [List.foldl_cons, ih, setWd_wd]

theorem startReaction_cnt (s : State) (n sev tick : Nat) (q e : Bool) :
    (s.startReaction n sev tick q e).wd.cnt = s.wd.cnt := by
  unfold startReaction
  simp only [suppress_cnt]
  split
  · simp [ev114_wd]
  · split <;> simp [ev114_wd]

theorem ite_cnt {c : Prop} [Decidable c] {a b : State} {x : List (Nat × Nat)} (ha : a.wd.cnt = x) (hb : b.wd.cnt = x) :
    (if c then a else b).wd.cnt = x := by split <;> assumption

theorem queueReaction_cnt (s : State) (n : Nat) : (s.queueReaction n).wd.cnt = s.wd.cnt := by
  unfold queueReaction
  rw [setWd_wd]
  simp only [put_wd, putB_wd]

theorem makeCurrent_cnt (s : State) (n sev tick : Nat) : (s.makeCurrent n sev tick).wd.cnt = s.wd.cnt := by
  unfold makeCurrent
  rw [setWd_wd]
  simp only [put_wd, putB_wd]

theorem react_cnt (s : State) (n sev : Nat) : (s.react n sev).wd.cnt = s.wd.cnt := by
  unfold react
  apply ite_cnt (by rw [suppress_cnt, ev114_wd])
  split
  · rw [makeCurrent_cnt, startReaction_cnt]
  · dsimp only
    apply ite_cnt rfl
    apply ite_cnt (queueReaction_cnt s n)
    apply ite_cnt
    · rw [setWd_wd]; exact startReaction_cnt s n sev _ _ _
    · apply ite_cnt (startReaction_cnt s n sev _ _ _)
      rw [makeCurrent_cnt, startReaction_cnt]

theorem recordFirst_wd (s : State) (n sev : Nat) (m : Bool) : (s.recordFirst n sev m).wd = s.wd := by
  unfold recordFirst; split
  · rfl
  · simp only [put64_wd, putB_wd, put_wd]

/-- An occurrence that counts (R601) moves its source's count on by one, up to 65,535. -/
theorem occur_cnt (s : State) (n : Nat) (hp : s.wfPresent n = true) (hs : s.suppressed n = false) :
    (s.occur n).wd.cnt = assocPut 0 s.wd.cnt n (min 65535 (assocD 0 s.wd.cnt n + 1)) := by
  unfold occur occurOne
  rw [if_neg (by simp [hp]), if_neg (by simp [hs])]
  dsimp only
  split
  · simp only [setWd_wd]
  · simp only [syncSafehold, putB_wd, react_cnt, recordFirst_wd, setWd_wd]

end State

/-! ## Keyed lists -/

theorem memGet_eq_assocD {α : Type} (d : α) (l : List (Nat × α)) (k : Nat) :
    memGet (fun _ => some d) l k = some (assocD d l k) := by
  induction l with
  | nil => rfl
  | cons e r ih =>
    obtain ⟨a, v⟩ := e
    by_cases h : a = k
    · subst h; simp [memGet, assocD]
    · simp only [memGet, beq_eq_false_iff_ne.mpr h, Bool.false_eq_true, if_false, ih]
      simp [assocD, beq_eq_false_iff_ne.mpr h]

@[simp] theorem assocD_assocPut_same {α : Type} [DecidableEq α] (d : α) (l : List (Nat × α)) (k : Nat) (v : α) :
    assocD d (assocPut d l k v) k = v := by
  have := memGet_eq_assocD d (assocPut d l k v) k
  rw [assocPut, memGet_memPut_same] at this
  exact (Option.some.inj this).symm

theorem assocD_assocPut_ne {α : Type} [DecidableEq α] (d : α) (l : List (Nat × α)) {k j : Nat} (v : α) (h : j ≠ k) :
    assocD d (assocPut d l k v) j = assocD d l j := by
  have h1 := memGet_eq_assocD d (assocPut d l k v) j
  rw [assocPut, memGet_memPut_ne _ _ h, memGet_eq_assocD] at h1
  exact (Option.some.inj h1).symm

end Sys2Proof.Machine
end

