-- ==== Sys2Proof/Laws/Flag.lean ====
section
/-! SUPPORT. What flagging an access touches and records. -/

namespace Sys2Proof.Machine

namespace State

variable (s : State)

/-- The registers of the device-wide record and of the function's own. -/
def flagRegs (who : Who) : List Nat :=
  [24, 25, fglbR who.func + 72, fglbR who.func + 73]

theorem flagRecord_other {who : Who} {off c k : Nat} (h : k ∉ flagRegs who) : (s.flagRecord who off c).reg k = s.reg k := by
  simp only [flagRegs, List.mem_cons, List.not_mem_nil, or_false, not_or] at h
  obtain ⟨h1, h2, h3, h4⟩ := h
  have e1 : k ≠ glbR + GLB_VIOL_ADDR_OFFSET.idx := h1
  have e2 : k ≠ glbR + GLB_VIOL_INFO_CAUSE.idx := h2
  have e3 : k ≠ glbR + GLB_VIOL_INFO_FUNC.idx := h2
  have e4 : k ≠ glbR + GLB_VIOL_INFO_RVE.idx := h2
  have e5 : k ≠ glbR + GLB_VIOL_INFO_CMD.idx := h2
  have e6 : k ≠ glbR + GLB_VIOL_INFO_COUNT.idx := h2
  have e7 : k ≠ fglbR who.func + GLB_ACC_ERR_COUNT.idx := h3
  have e8 : k ≠ fglbR who.func + GLB_ACC_ERR_CAUSE.idx := h3
  have e9 : k ≠ fglbR who.func + GLB_ACC_ADDR_OFFSET.idx := h4
  unfold flagRecord
  dsimp only
  split <;> simp (disch := assumption) only [bump_eq, putB_eq, reg_put_ne]

theorem flagRecord_rest {who : Who} {off c : Nat} : RegsOf s (s.flagRecord who off c) := by
  have h := ((((((RegsOf.refl s).put glbR GLB_VIOL_ADDR_OFFSET off).put glbR GLB_VIOL_INFO_CAUSE c).put glbR
    GLB_VIOL_INFO_FUNC (if who.rve then 0 else who.func)).putB glbR GLB_VIOL_INFO_RVE who.rve).putB glbR
    GLB_VIOL_INFO_CMD who.cmd).bump glbR GLB_VIOL_INFO_COUNT 1
  exact h.ite (((h.bump _ _ _).put _ _ _).put _ _ _)

/-- The device-wide record: offset, cause, who, and one more in the count. -/
theorem flagRecord_viol {who : Who} {off c : Nat} :
    (s.flagRecord who off c).get glbR GLB_VIOL_ADDR_OFFSET = off % 2 ^ 22 ∧
    (s.flagRecord who off c).get glbR GLB_VIOL_INFO_CAUSE = c % 8 ∧
    (s.flagRecord who off c).on glbR GLB_VIOL_INFO_RVE = who.rve ∧
    (s.flagRecord who off c).get glbR GLB_VIOL_INFO_COUNT = min (s.get glbR GLB_VIOL_INFO_COUNT + 1) 65535 := by
  have key : ∀ (t : State) (b : Nat), b = fglbR who.func → ∀ f : Fld, f ∈ [GLB_VIOL_ADDR_OFFSET, GLB_VIOL_INFO_CAUSE,
      GLB_VIOL_INFO_RVE, GLB_VIOL_INFO_COUNT] →
      (((t.bump b GLB_ACC_ERR_COUNT).put b GLB_ACC_ERR_CAUSE c).put b GLB_ACC_ADDR_OFFSET off).get glbR f = t.get glbR f := by
    intro t b hb f hf
    subst hb
    have hi : f.idx = 24 ∨ f.idx = 25 := by
      simp only [List.mem_cons, List.not_mem_nil, or_false] at hf
      rcases hf with rfl | rfl | rfl | rfl <;> decide
    have h1 : glbR + f.idx ≠ fglbR who.func + GLB_ACC_ADDR_OFFSET.idx := by
      simp only [fglbR, glbR, GLB_ACC_ADDR_OFFSET]; omega
    have h3 : glbR + f.idx ≠ fglbR who.func + GLB_ACC_ERR_COUNT.idx := by
      simp only [fglbR, glbR, GLB_ACC_ERR_COUNT]; omega
    have h2 : glbR + f.idx ≠ fglbR who.func + GLB_ACC_ERR_CAUSE.idx := by
      simp only [fglbR, glbR, GLB_ACC_ERR_CAUSE]; omega
    rw [bump_eq, get_put_reg _ _ _ _ _ _ h1, get_put_reg _ _ _ _ _ _ h2, get_put_reg _ _ _ _ _ _ h3]
  have base : ∀ (n : Nat) (t : State), (((((s.put glbR GLB_VIOL_ADDR_OFFSET off).put glbR GLB_VIOL_INFO_CAUSE c).put glbR
      GLB_VIOL_INFO_FUNC n).putB glbR GLB_VIOL_INFO_RVE who.rve).putB glbR
      GLB_VIOL_INFO_CMD who.cmd).bump glbR GLB_VIOL_INFO_COUNT = t →
      t.get glbR GLB_VIOL_ADDR_OFFSET = off % 2 ^ 22 ∧ t.get glbR GLB_VIOL_INFO_CAUSE = c % 8 ∧
      t.on glbR GLB_VIOL_INFO_RVE = who.rve ∧
      t.get glbR GLB_VIOL_INFO_COUNT = min (s.get glbR GLB_VIOL_INFO_COUNT + 1) 65535 := by
    intro n t ht
    subst ht
    refine ⟨?_, ?_, ?_, ?_⟩
    · simp (disch := decide) only [bump_eq, putB_eq, get_put_ne, get_put_same]; simp only [GLB_VIOL_ADDR_OFFSET]
    · simp (disch := decide) only [bump_eq, putB_eq, get_put_ne, get_put_same]; simp only [GLB_VIOL_INFO_CAUSE]; norm_num
    · rw [on_eq_get, bump_eq, get_put_ne _ _ _ _ _ _ (by decide) (by decide), putB_eq _ _ GLB_VIOL_INFO_CMD,
        get_put_ne _ _ _ _ _ _ (by decide) (by decide), get_putB_same _ _ _ _ (by decide) (by decide)]
      cases who.rve <;> rfl
    · rw [get_bump_same _ _ _ _ (by decide)]
      simp (disch := decide) only [putB_eq, get_put_ne]; simp only [GLB_VIOL_INFO_COUNT]; norm_num
  unfold flagRecord
  dsimp only
  split
  · exact base _ _ rfl
  · generalize ht : State.bump _ glbR GLB_VIOL_INFO_COUNT 1 = t
    have h := base _ t ht
    rw [on_eq_get] at h ⊢
    rw [key _ _ rfl _ (by simp), key _ _ rfl _ (by simp), key _ _ rfl _ (by simp), key _ _ rfl _ (by simp)]
    exact h

/-- The record of the function that made the access. -/
theorem flagRecord_func {who : Who} {off c : Nat} (hr : who.rve = false) :
    (s.flagRecord who off c).get (fglbR who.func) GLB_ACC_ERR_CAUSE = c % 8 ∧
    (s.flagRecord who off c).get (fglbR who.func) GLB_ACC_ERR_COUNT =
      min (s.get (fglbR who.func) GLB_ACC_ERR_COUNT + 1) 65535 := by
  have e : ∀ f : Fld, f.idx = 24 ∨ f.idx = 25 → fglbR who.func + GLB_ACC_ERR_COUNT.idx ≠ glbR + f.idx := by
    intro f hf; simp only [fglbR, glbR, GLB_ACC_ERR_COUNT]; omega
  have e1 := e GLB_VIOL_ADDR_OFFSET (by decide)
  have e2 := e GLB_VIOL_INFO_CAUSE (by decide)
  have e3 := e GLB_VIOL_INFO_FUNC (by decide)
  have e4 := e GLB_VIOL_INFO_RVE (by decide)
  have e5 := e GLB_VIOL_INFO_CMD (by decide)
  have e6 := e GLB_VIOL_INFO_COUNT (by decide)
  unfold flagRecord
  rw [if_neg (by simp [hr])]
  dsimp only
  constructor
  · rw [get_put_reg _ _ _ _ _ _ (by simp [GLB_ACC_ERR_CAUSE, GLB_ACC_ADDR_OFFSET]), get_put_same _ _ _ _ (by decide)]; simp only [GLB_ACC_ERR_CAUSE]; norm_num
  · rw [get_put_reg _ _ _ _ _ _ (by simp [GLB_ACC_ERR_COUNT, GLB_ACC_ADDR_OFFSET]),
      get_put_bits _ _ _ _ _ _ (by rfl) (by decide) (by decide), get_bump_same _ _ _ _ (by decide)]
    simp (disch := assumption) only [bump_eq, putB_eq, get_put_reg]; simp only [GLB_ACC_ERR_COUNT]; norm_num

/-- A flagged access of cause 0 to 2 also sets the bit of its window. -/
theorem flag_eq {who : Who} {off c : Nat} :
    s.flag who off c = (if c ≤ 2 then (s.flagRecord who off c).putB glbR
      ((GLB_WR_IGN_WR_IGN.at (off / 2 ^ 14 / 32)).bit (off / 2 ^ 14 % 32)) true else s.flagRecord who off c).occur
      (if c ≤ 3 then 8 else 7) := rfl

theorem wf7_present : s.wfPresent 7 = true := by simp (decide := true) [wfPresent]
theorem wf8_present : s.wfPresent 8 = true := by simp (decide := true) [wfPresent]

/-- Everything a flagged access leaves: the device-wide record, the function's, WF08 or WF07 counted, and nothing outside
the GLB and WCH windows and the function's own record. -/
theorem flag_facts {who : Who} {off c : Nat} (h8 : c < 8) (ho : off < 2 ^ 22) :
    let t := s.flag who off c
    t.get glbR GLB_VIOL_ADDR_OFFSET = off % 2 ^ 22 ∧ t.get glbR GLB_VIOL_INFO_CAUSE = c ∧
    t.get glbR GLB_VIOL_INFO_COUNT = min (s.get glbR GLB_VIOL_INFO_COUNT + 1) 65535 ∧
    t.on glbR GLB_VIOL_INFO_RVE = who.rve ∧
    (who.rve = false → t.get (fglbR who.func) GLB_ACC_ERR_CAUSE = c ∧
      t.get (fglbR who.func) GLB_ACC_ERR_COUNT = min (s.get (fglbR who.func) GLB_ACC_ERR_COUNT + 1) 65535) ∧
    (let n := if c ≤ 3 then 8 else 7
     s.suppressed n = false → assocD 0 t.wd.cnt n = min 65535 (assocD 0 s.wd.cnt n + 1)) ∧
    (∀ k, 3 * 1024 ≤ k → k < 2 ^ 20 → t.reg k = s.reg k) ∧
    ∃ r h w, t = { s with regs := r, host := h, wd := w } := by
  intro t
  generalize hf : (GLB_WR_IGN_WR_IGN.at (off / 2 ^ 14 / 32)).bit (off / 2 ^ 14 % 32) = f
  have hfi : 28 ≤ f.idx ∧ f.idx < 36 ∧ f.lo + f.width ≤ 32 := by
    rw [← hf]; simp only [Fld.at, Fld.bit, GLB_WR_IGN_WR_IGN]; omega
  generalize hu : (if c ≤ 2 then (s.flagRecord who off c).putB glbR f true else s.flagRecord who off c) = u
  have ht : t = u.occur (if c ≤ 3 then 8 else 7) := by
    show s.flag who off c = _
    rw [flag_eq, hf, hu]
  have w : WatchOnly u t := by rw [ht]; exact occur_watch (WatchOnly.refl _) _
  have uo : ∀ k, k ≠ glbR + f.idx → u.reg k = (s.flagRecord who off c).reg k := by
    intro k hk; rw [← hu]; split
    · exact reg_put_ne _ _ _ _ hk
    · rfl
  have v := s.flagRecord_viol (who := who) (off := off) (c := c)
  have g : ∀ x : Fld, x.idx < 28 → t.get glbR x = (s.flagRecord who off c).get glbR x := by
    intro x hx
    unfold State.get
    rw [w.reg _ (.inl (by simp only [glbR]; omega)), uo _ (by omega)]
  have ru : RegsOf s u := by
    rw [← hu]
    exact (s.flagRecord_rest.putB _ _ _).ite s.flagRecord_rest
  have hwd : u.wd = s.wd := by obtain ⟨q, hq⟩ := ru; rw [hq]
  have hpr : u.prism = s.prism := by obtain ⟨q, hq⟩ := ru; rw [hq]
  refine ⟨?_, ?_, ?_, ?_, ?_, ?_, ?_, ?_⟩
  · rw [g _ (by decide)]; exact v.1
  · rw [g _ (by decide), v.2.1]; omega
  · rw [g _ (by decide)]; exact v.2.2.2
  · unfold State.on; rw [g _ (by decide)]; exact v.2.2.1
  · intro hr
    have fu := s.flagRecord_func (off := off) (c := c) hr
    have gf : ∀ x : Fld, x.idx = 72 → t.get (fglbR who.func) x = (s.flagRecord who off c).get (fglbR who.func) x := by
      intro x hx
      unfold State.get
      rw [w.reg _ (by simp only [fglbR]; omega), uo _ (by simp only [fglbR, glbR]; omega)]
    rw [gf _ (by decide), gf _ (by decide), fu.1, fu.2]
    exact ⟨by omega, rfl⟩
  · intro n hs
    rw [ht, occur_cnt, hwd]
    · exact assocD_assocPut_same _ _ _ _
    · show State.wfPresent _ (if c ≤ 3 then 8 else 7) = true
      split
      · exact wf8_present _
      · exact wf7_present _
    · unfold State.suppressed at hs ⊢
      rw [hwd, hpr]; exact hs
  · intro k h1 h2
    rw [w.reg _ (.inr (by omega)), uo _ (by simp only [glbR]; omega), s.flagRecord_other]
    simp only [flagRegs, fglbR, List.mem_cons, List.not_mem_nil, or_false]
    omega
  · obtain ⟨r1, h1, w1, e1⟩ := w.rest
    obtain ⟨q, hq⟩ := ru
    exact ⟨r1, h1, w1, by rw [e1, hq]⟩

end State

/-- A presented access lies below the MSI-X table. -/
theorem Presents.off_lt {s : State} {a : Access} {k m d : Nat} (h : Presents s a k m d) : a.off < 2 ^ 22 := by
  have hp := h.place
  unfold decodeOff at hp
  split at hp
  · split at hp
    · cases hp
    · split at hp <;> cases hp
  · omega

end Sys2Proof.Machine
end

