-- ==== Sys2Proof/Laws/KeepsCommands.lean ====
section
/-! SUPPORT. What every command keeps, one lemma per meaning: `Keeps` of most, `Steps` of those that may step the LTC, `Holds`
of the tick boundary and of the loss of the supply. -/

namespace Sys2Proof.Machine

variable {s s₁ : State}

theorem execTickBoundary_holds {x : TickIn} (h : execTickBoundary x s = .next s₁) : Holds s s₁ := by
  cases h
  by_cases h0 : s.mode = 0
  · rw [State.tickBoundary, if_pos h0]; exact .refl s
  · exact (State.tickBoundary_clock s x h0).1

theorem execMsixSignal_keeps {func : Nat} {vec : Nat} (h : execMsixSignal func vec s = .next s₁) : Keeps s s₁ := by
  cases h; exact State.msixSignal_keeps (Keeps.refl s)

theorem execBufferDrain_keeps {n : Nat} (h : execBufferDrain n s = .next s₁) : Keeps s s₁ := by
  cases h; exact State.drain_keeps (Keeps.refl s)

theorem execUpstreamArbitration_keeps {waiting : List Backlog} (h : execUpstreamArbitration waiting s = .next s₁) : Keeps s s₁ := by
  cases h; exact State.arbitrate_keeps (Keeps.refl s)

theorem execLeapSecond_keeps (h : execLeapSecond s = .next s₁) : Keeps s s₁ := by
  cases h; exact State.leapSecond_keeps (Keeps.refl s)

theorem execDoorbellWrite_keeps {f : Nat} {page : Nat} {off : Nat} {size : Nat} {v : Nat} (h : execDoorbellWrite f page off size v s = .next s₁) : Keeps s s₁ := by
  cases h; exact Keeps.ite (State.doorbell_keeps (Keeps.refl s)) (Keeps.refl s)

theorem execDescriptorFetch_keeps {f : Nat} {cls : Nat} {ring : Nat} {bytes : Option (List Byte)} {ind : Option (List Byte)} (h : execDescriptorFetch f cls ring bytes ind s = .next s₁) : Keeps s s₁ := by
  cases h; exact State.fetch_keeps (Keeps.refl s)

theorem execMonitorDue_keeps {x : RefIn} (h : execMonitorDue x s = .next s₁) : Keeps s s₁ := by
  cases h; exact State.monitorDue_keeps (Keeps.refl s)

theorem execSoakEnd_keeps {x : RefIn} (h : execSoakEnd x s = .next s₁) : Keeps s s₁ := by
  cases h; exact State.soakEnd_keeps (Keeps.refl s)

theorem execMissingEdge_keeps {i : Nat} {pos : Nat} (h : execMissingEdge i pos s = .next s₁) : Keeps s s₁ := by
  cases h; exact State.missingEdge_keeps (Keeps.refl s)

theorem execTodSentence_keeps {x : TodIn} (h : execTodSentence x s = .next s₁) : Keeps s s₁ := by
  cases h; exact State.todSentence_keeps (Keeps.refl s)

theorem execIrigBFrameReceived_keeps {x : IrigIn} (h : execIrigBFrameReceived x s = .next s₁) : Keeps s s₁ := by
  cases h; exact State.irigFrame_keeps (Keeps.refl s)

theorem execChannelLock_keeps {c : Nat} (h : execChannelLock c s = .next s₁) : Keeps s s₁ := by
  cases h; exact State.channelLock_keeps (Keeps.refl s)

theorem execChannelUnlock_keeps {c : Nat} (h : execChannelUnlock c s = .next s₁) : Keeps s s₁ := by
  cases h; exact State.channelUnlock_keeps (Keeps.refl s)

theorem execSpeculationLimit_keeps {c : Nat} (h : execSpeculationLimit c s = .next s₁) : Keeps s s₁ := by
  cases h; exact State.specLimit_keeps (Keeps.refl s)

theorem execLearnEnd_keeps {e : Nat} {m : Nat} (h : execLearnEnd e m s = .next s₁) : Keeps s s₁ := by
  cases h; exact State.learnEnd_keeps (Keeps.refl s)

theorem execTamperRejoin_keeps {e : Nat} {m : Nat} (h : execTamperRejoin e m s = .next s₁) : Keeps s s₁ := by
  cases h; exact State.tamperRejoin_keeps (Keeps.refl s)

theorem execAllanWeightUpdate_keeps {e : Nat} (h : execAllanWeightUpdate e s = .next s₁) : Keeps s s₁ := by
  cases h; exact State.allanUpdate_keeps (Keeps.refl s)

theorem execHearthReanchor_keeps {e : Nat} (h : execHearthReanchor e s = .next s₁) : Keeps s s₁ := by
  cases h; exact State.reanchor_keeps (Keeps.refl s)

theorem execAsymWindowEnd_keeps {e : Nat} (h : execAsymWindowEnd e s = .next s₁) : Keeps s s₁ := by
  cases h; exact Keeps.ite (State.asymResults_keeps (State.asymWindowEnd_keeps (Keeps.refl s))) (Keeps.refl s)

theorem execHearthIntervalEnd_keeps (h : execHearthIntervalEnd s = .next s₁) : Keeps s s₁ := by
  cases h; exact State.intervalEnd_keeps (Keeps.refl s)

theorem execTemperatureReading_keeps {die : Int} {therm : Option Int} (h : execTemperatureReading die therm s = .next s₁) : Keeps s s₁ := by
  cases h; exact State.tempReading_keeps (Keeps.refl s)

theorem execBandSearchMeasurement_keeps {n : Nat} {hz : Nat} (h : execBandSearchMeasurement n hz s = .next s₁) : Keeps s s₁ := by
  cases h; exact Keeps.ite (State.measure_keeps (Keeps.refl s)) (Keeps.refl s)

theorem execLoomLock_keeps {n : Nat} (h : execLoomLock n s = .next s₁) : Keeps s s₁ := by
  cases h; exact Keeps.ite (State.loomLock_keeps (Keeps.refl s)) (Keeps.refl s)

theorem execLoomAttemptFail_keeps {n : Nat} (h : execLoomAttemptFail n s = .next s₁) : Keeps s s₁ := by
  cases h; exact Keeps.ite (State.attemptFail_keeps (Keeps.refl s)) (Keeps.refl s)

theorem execLoomLossOfLock_keeps {n : Nat} (h : execLoomLossOfLock n s = .next s₁) : Keeps s s₁ := by
  cases h; exact Keeps.ite (State.loomLoss_keeps (Keeps.refl s)) (Keeps.refl s)

theorem execBandHop_keeps {n : Nat} {fine : Int} {after : Int} (h : execBandHop n fine after s = .next s₁) : Keeps s s₁ := by
  cases h; exact Keeps.ite (State.bandHop_keeps (Keeps.refl s)) (Keeps.refl s)

theorem execGlideStep_keeps {n : Nat} (h : execGlideStep n s = .next s₁) : Keeps s s₁ := by
  cases h; exact Keeps.ite (State.glideStep_keeps (Keeps.refl s)) (Keeps.refl s)

theorem execCombSlewEnd_keeps {n : Nat} (h : execCombSlewEnd n s = .next s₁) : Keeps s s₁ := by
  cases h; exact Keeps.ite (State.slewEnd_keeps (Keeps.refl s)) (Keeps.refl s)

theorem execBridgeReady_keeps {g : Nat} (h : execBridgeReady g s = .next s₁) : Keeps s s₁ := by
  cases h; exact Keeps.ite (State.bridgeReadyStep_keeps (Keeps.refl s)) (Keeps.refl s)

theorem execOutputFirstEdge_keeps {o : Nat} {after : Nat} (h : execOutputFirstEdge o after s = .next s₁) : Keeps s s₁ := by
  cases h; exact Keeps.ite (Keeps.refl s) (Keeps.ite (State.bypassFirst_keeps (Keeps.refl s)) (Keeps.ite (State.firstEdge_keeps (Keeps.refl s)) (Keeps.refl s)))

theorem execSyncInEdge_keeps {after : Nat} (h : execSyncInEdge after s = .next s₁) : Keeps s s₁ := by
  cases h; exact Keeps.ite (State.syncIn_keeps (Keeps.refl s)) (Keeps.refl s)

theorem execSyncGroupResetDone_keeps {g : Nat} (h : execSyncGroupResetDone g s = .next s₁) : Keeps s s₁ := by
  cases h; exact Keeps.ite (State.sgEnd_keeps (Keeps.refl s)) (Keeps.refl s)

theorem execPpsEdge_keeps (h : execPpsEdge s = .next s₁) : Keeps s s₁ := by
  cases h; exact State.ppsEdge_keeps (Keeps.refl s)

theorem execTimecodeFrame_keeps (h : execTimecodeFrame s = .next s₁) : Keeps s s₁ := by
  cases h; exact State.frame_keeps (Keeps.refl s)

theorem execFineDelayMoveEnd_keeps {o : Nat} (h : execFineDelayMoveEnd o s = .next s₁) : Keeps s s₁ := by
  cases h; exact Keeps.ite (State.fineEnd_keeps (Keeps.refl s)) (Keeps.refl s)

theorem execLensEdge_keeps {i : Nat} {x : Crossing} {pos : Nat} (h : execLensEdge i x pos s = .next s₁) : Keeps s s₁ := by
  cases h; exact State.lensCross_keeps (Keeps.refl s)

theorem execBurstWindowEnd_keeps {u : Nat} {pos : Nat} (h : execBurstWindowEnd u pos s = .next s₁) : Keeps s s₁ := by
  cases h; exact Keeps.ite (State.burstClose_keeps (Keeps.refl s)) (Keeps.refl s)

theorem execTallyWindowClose_keeps {m : Nat} (h : execTallyWindowClose m s = .next s₁) : Keeps s s₁ := by
  cases h; exact Keeps.ite (State.tmAbsorb_keeps (Keeps.refl s)) (Keeps.refl s)

theorem execSentinelWindowClose_keeps (h : execSentinelWindowClose s = .next s₁) : Keeps s s₁ := by
  cases h; exact Keeps.ite (State.senAbsorb_keeps (Keeps.refl s)) (Keeps.refl s)

theorem execSentinelLost_keeps (h : execSentinelLost s = .next s₁) : Keeps s s₁ := by
  cases h; exact State.senLost_keeps (Keeps.refl s)

theorem execPortLinkChange_keeps {p : Nat} {up : Bool} {align : Bool} (h : execPortLinkChange p up align s = .next s₁) : Keeps s s₁ := by
  cases h; exact Keeps.ite (State.setLink_keeps (Keeps.refl s)) (Keeps.refl s)

theorem execSync_keeps {m : PtpIn} (h : execSync m s = .next s₁) : Keeps s s₁ := by
  cases h; exact State.sync_keeps (Keeps.refl s)

theorem execFollowUp_keeps {m : PtpIn} (h : execFollowUp m s = .next s₁) : Keeps s s₁ := by
  cases h; exact State.followUp_keeps (Keeps.refl s)

theorem execDelayReq_keeps {m : PtpIn} (h : execDelayReq m s = .next s₁) : Keeps s s₁ := by
  cases h; exact State.delayReq_keeps (Keeps.refl s)

theorem execDelayResp_keeps {m : PtpIn} (h : execDelayResp m s = .next s₁) : Keeps s s₁ := by
  cases h; exact State.delayResp_keeps (Keeps.refl s)

theorem execPdelayReq_keeps {m : PtpIn} (h : execPdelayReq m s = .next s₁) : Keeps s s₁ := by
  cases h; exact State.pdelayReq_keeps (Keeps.refl s)

theorem execPdelayResp_keeps {m : PtpIn} (h : execPdelayResp m s = .next s₁) : Keeps s s₁ := by
  cases h; exact State.pdelayResp_keeps (Keeps.refl s)

theorem execPdelayRespFollowUp_keeps {m : PtpIn} (h : execPdelayRespFollowUp m s = .next s₁) : Keeps s s₁ := by
  cases h; exact State.pdelayFup_keeps (Keeps.refl s)

theorem execAnnounce_keeps {m : PtpIn} {a : Ann} (h : execAnnounce m a s = .next s₁) : Keeps s s₁ := by
  cases h; exact State.announce_keeps (Keeps.refl s)

theorem execRequestUnicastTransmission_keeps {m : PtpIn} {t : SigIn} (h : execRequestUnicastTransmission m t s = .next s₁) : Keeps s s₁ := by
  cases h; exact State.requestUnicast_keeps (Keeps.refl s)

theorem execGrantUnicastTransmission_keeps {m : PtpIn} {t : SigIn} (h : execGrantUnicastTransmission m t s = .next s₁) : Keeps s s₁ := by
  cases h; exact State.grantUnicast_keeps (Keeps.refl s)

theorem execCancelUnicastTransmission_keeps {m : PtpIn} {t : SigIn} (h : execCancelUnicastTransmission m t s = .next s₁) : Keeps s s₁ := by
  cases h; exact State.cancelUnicast_keeps (Keeps.refl s)

theorem execAcknowledgeCancelUnicastTransmission_keeps {m : PtpIn} (h : execAcknowledgeCancelUnicastTransmission m s = .next s₁) : Keeps s s₁ := by
  cases h; exact State.ackCancel_keeps (Keeps.refl s)

theorem execManagementMessage_keeps {m : PtpIn} (h : execManagementMessage m s = .next s₁) : Keeps s s₁ := by
  cases h; exact State.management_keeps (Keeps.refl s)

theorem execNonPtpFrame_keeps {f : FrameIn} (h : execNonPtpFrame f s = .next s₁) : Keeps s s₁ := by
  cases h; exact State.nonPtpFrame_keeps (Keeps.refl s)

theorem execEsmcPdu_keeps {m : EsmcIn} (h : execEsmcPdu m s = .next s₁) : Keeps s s₁ := by
  cases h; exact State.esmcPdu_keeps (Keeps.refl s)

theorem execEsmcTimeout_keeps {p : Nat} (h : execEsmcTimeout p s = .next s₁) : Keeps s s₁ := by
  cases h; exact State.esmcTimeout_keeps (Keeps.refl s)

theorem execEsmcInformationPdu_keeps {p : Nat} (h : execEsmcInformationPdu p s = .next s₁) : Keeps s s₁ := by
  cases h; exact State.esmcInfo_keeps (Keeps.refl s)

theorem execMessageDue_keeps {m : Msg} {pos : Nat} (h : execMessageDue m pos s = .next s₁) : Keeps s s₁ := by
  cases h; exact State.messageDue_keeps (Keeps.refl s)

theorem execMessageSkip_keeps {m : Msg} (h : execMessageSkip m s = .next s₁) : Keeps s s₁ := by
  cases h; exact State.messageSkip_keeps (Keeps.refl s)

theorem execSessionEntryFetch_keeps {port : Nat} {slot : Option Nat} {key : Nat × Nat × Nat} {late : Bool} (h : execSessionEntryFetch port slot key late s = .next s₁) : Keeps s s₁ := by
  cases h; exact State.entryFetch_keeps (Keeps.refl s)

theorem execGrantExpiry_keeps {slot : Nat} {t : Nat} (h : execGrantExpiry slot t s = .next s₁) : Keeps s s₁ := by
  cases h; exact State.grantExpiry_keeps (Keeps.refl s)

theorem execGrantRenewal_keeps {slot : Nat} {t : Nat} (h : execGrantRenewal slot t s = .next s₁) : Keeps s s₁ := by
  cases h; exact State.grantRenewal_keeps (Keeps.refl s)

theorem execRequestRetry_keeps {slot : Nat} {t : Nat} (h : execRequestRetry slot t s = .next s₁) : Keeps s s₁ := by
  cases h; exact State.requestRetry_keeps (Keeps.refl s)

theorem execAnnounceTimeout_keeps {k : Nat} (h : execAnnounceTimeout k s = .next s₁) : Keeps s s₁ := by
  cases h; exact State.announceTimeout_keeps (Keeps.refl s)

theorem execSyncTimeout_keeps {k : Nat} (h : execSyncTimeout k s = .next s₁) : Keeps s s₁ := by
  cases h; exact State.syncTimeout_keeps (Keeps.refl s)

theorem execQuarantineEnd_keeps {k : Nat} (h : execQuarantineEnd k s = .next s₁) : Keeps s s₁ := by
  cases h; exact State.quarEnd_keeps (Keeps.refl s)

theorem execHostFrameSent_keeps {ring : Nat} (h : execHostFrameSent ring s = .next s₁) : Keeps s s₁ := by
  cases h; exact State.frameSent_keeps (Keeps.refl s)

theorem execReceiveClockLockChange_keeps {p : Nat} {lock : Bool} (h : execReceiveClockLockChange p lock s = .next s₁) : Keeps s s₁ := by
  cases h; exact Keeps.ite (State.putB_keeps (Keeps.refl s)) (Keeps.refl s)

theorem execLinkFrameReceived_keeps {m : LinkIn} (h : execLinkFrameReceived m s = .next s₁) : Keeps s s₁ := by
  cases h; exact State.mirFrame_keeps (State.linkFrame_keeps (Keeps.refl s))

theorem execTimeFrameReceived_keeps {m : TimeIn} (h : execTimeFrameReceived m s = .next s₁) : Keeps s s₁ := by
  cases h; exact State.timeFrame_keeps (Keeps.refl s)

theorem execPolsisLinkUp_keeps {p : Nat} (h : execPolsisLinkUp p s = .next s₁) : Keeps s s₁ := by
  cases h; exact State.plkLinkUp_keeps (Keeps.refl s)

theorem execPolsisLinkDown_keeps {p : Nat} (h : execPolsisLinkDown p s = .next s₁) : Keeps s s₁ := by
  cases h; exact Keeps.ite (State.plkLinkDown_keeps (Keeps.refl s)) (Keeps.refl s)

theorem execLaneSwap_keeps {p : Nat} (h : execLaneSwap p s = .next s₁) : Keeps s s₁ := by
  cases h; exact Keeps.ite (State.laneSwap_keeps (Keeps.refl s)) (Keeps.refl s)

theorem execAsymmetryUpdate_keeps {p : Nat} (h : execAsymmetryUpdate p s = .next s₁) : Keeps s s₁ := by
  cases h; exact Keeps.ite (State.asymmetryUpdate_keeps (Keeps.refl s)) (Keeps.refl s)

theorem execCalibrationEnd_keeps {p : Nat} (h : execCalibrationEnd p s = .next s₁) : Keeps s s₁ := by
  cases h; exact Keeps.ite (State.calibrationEnd_keeps (Keeps.refl s)) (Keeps.refl s)

theorem execFrameLoss_keeps {p : Nat} (h : execFrameLoss p s = .next s₁) : Keeps s s₁ := by
  cases h; exact Keeps.ite (State.frameLoss_keeps (Keeps.refl s)) (Keeps.refl s)

theorem execOriginRelease_keeps {p : Nat} (h : execOriginRelease p s = .next s₁) : Keeps s s₁ := by
  cases h; exact Keeps.ite (State.originRelease_keeps (Keeps.refl s)) (Keeps.refl s)

theorem execOriginEntryFree_keeps {o : Nat} (h : execOriginEntryFree o s = .next s₁) : Keeps s s₁ := by
  cases h; exact State.originFree_keeps (Keeps.refl s)

theorem execKeySample_keeps {high : Bool} (h : execKeySample high s = .next s₁) : Keeps s s₁ := by
  cases h; exact State.keySample_keeps (Keeps.refl s)

theorem execKeySenseChange_keeps {high : Bool} (h : execKeySenseChange high s = .next s₁) : Keeps s s₁ := by
  cases h; exact State.keySense_keeps (Keeps.refl s)

theorem execTakeover_keeps (h : execTakeover s = .next s₁) : Keeps s s₁ := by
  cases h; exact State.takeover_keeps (Keeps.refl s)

theorem execHoldoffExpiry_keeps (h : execHoldoffExpiry s = .next s₁) : Keeps s s₁ := by
  cases h; exact State.holdoffExpiry_keeps (Keeps.refl s)

theorem execOverrideEnd_keeps (h : execOverrideEnd s = .next s₁) : Keeps s s₁ := by
  cases h; exact State.overrideEnd_keeps (Keeps.refl s)

theorem execSnapshotCommit_steps (h : execSnapshotCommit s = .next s₁) : Steps s s₁ := by
  cases h; exact State.snapshotCommit_steps (Keeps.refl s)

theorem execHearthSnapshotCommit_keeps (h : execHearthSnapshotCommit s = .next s₁) : Keeps s s₁ := by
  cases h; exact State.hearthCommit_keeps (Keeps.refl s)

theorem execMirrorLinkLost_keeps (h : execMirrorLinkLost s = .next s₁) : Keeps s s₁ := by
  cases h; exact State.mirrorLinkLost_keeps (Keeps.refl s)

theorem execTamperEdge_keeps {pin : Nat} {rising : Bool} {t : PinTime} (h : execTamperEdge pin rising t s = .next s₁) : Keeps s s₁ := by
  cases h; exact Keeps.ite (State.tamperEdge_keeps (Keeps.refl s)) (Keeps.refl s)

theorem execPageStoreStart_keeps (h : execPageStoreStart s = .next s₁) : Keeps s s₁ := by
  cases h; exact State.pageStoreStart_keeps (Keeps.refl s)

theorem execPageStoreComplete_keeps {ok : Bool} (h : execPageStoreComplete ok s = .next s₁) : Keeps s s₁ := by
  cases h; exact State.storeEnd_keeps (Keeps.refl s)

theorem execWearCounterWrite_keeps {c : Nat} {worn : Bool} (h : execWearCounterWrite c worn s = .next s₁) : Keeps s s₁ := by
  cases h; exact State.wearWrite_keeps (Keeps.refl s)

theorem execFaultOccurrence_keeps {srcs : List Nat} {ended : List Nat} {bad : List Nat} (h : execFaultOccurrence srcs ended bad s = .next s₁) : Keeps s s₁ := by
  cases h; exact State.faultOccurrence_keeps (Keeps.refl s)

theorem execReactionEnd_keeps (h : execReactionEnd s = .next s₁) : Keeps s s₁ := by
  cases h; exact State.reactionEnd_keeps (Keeps.refl s)

theorem execSuppressionEnd_keeps {n : Nat} (h : execSuppressionEnd n s = .next s₁) : Keeps s s₁ := by
  cases h; exact State.suppressionEnd_keeps (Keeps.refl s)

theorem execReeveWatchdog_keeps (h : execReeveWatchdog s = .next s₁) : Keeps s s₁ := by
  cases h; exact State.watchdog_keeps (Keeps.refl s)

theorem execSafeEntry_keeps (h : execSafeEntry s = .next s₁) : Keeps s s₁ := by
  cases h; exact State.safeEntry_keeps (Keeps.refl s)

theorem execPowerFailWarning_keeps {pin : Bool} {ns : Nat} (h : execPowerFailWarning pin ns s = .next s₁) : Keeps s s₁ := by
  cases h; exact State.powerWarn_keeps (Keeps.refl s)

theorem execPowerFailCleared_keeps (h : execPowerFailCleared s = .next s₁) : Keeps s s₁ := by
  cases h; exact State.powerClear_keeps (Keeps.refl s)

theorem execRailOutOfRange_keeps {r : Nat} (h : execRailOutOfRange r s = .next s₁) : Keeps s s₁ := by
  cases h; exact State.railOut_keeps (Keeps.refl s)

theorem execCoreFailure_holds {vbak : Bool} (h : execCoreFailure vbak s = .next s₁) : Holds s s₁ := by
  cases h; exact State.coreFailure_holds.1

theorem execEmberEntry_keeps (h : execEmberEntry s = .next s₁) : Keeps s s₁ := by
  cases h; exact State.emberEntry_keeps (Keeps.refl s)

theorem execEmberSecond_keeps (h : execEmberSecond s = .next s₁) : Keeps s s₁ := by
  cases h; exact State.emberSecondStep_keeps (Keeps.refl s)

theorem execVbakLoss_holds (h : execVbakLoss s = .next s₁) : Holds s s₁ := by
  cases h; exact State.vbakLoss_holds

theorem execCoreRailsInRange_keeps {ok : Nat} (h : execCoreRailsInRange ok s = .next s₁) : Keeps s s₁ := by
  cases h; exact State.railsIn_keeps (Keeps.refl s)

theorem execPorRelease_keeps {boot : Nat} {prio : Bool} (h : execPorRelease boot prio s = .next s₁) : Keeps s s₁ := by
  cases h; exact State.porRelease_keeps (Keeps.refl s)

theorem execRstN_keeps {low : Bool} (h : execRstN low s = .next s₁) : Keeps s s₁ := by
  cases h; exact State.rstPin_keeps (Keeps.refl s)

theorem execPerstN_keeps (h : execPerstN s = .next s₁) : Keeps s s₁ := by
  cases h; exact State.perst_keeps (Keeps.refl s)

theorem execFunctionLevelReset_keeps {f : Nat} (h : execFunctionLevelReset f s = .next s₁) : Keeps s s₁ := by
  cases h; exact State.flrAsk_keeps (Keeps.refl s)

theorem execRomComplete_keeps {osc : Bool} (h : execRomComplete osc s = .next s₁) : Keeps s s₁ := by
  cases h; exact State.romComplete_keeps (Keeps.refl s)

theorem execGranaryRecovery_keeps (h : execGranaryRecovery s = .next s₁) : Keeps s s₁ := by
  cases h; exact State.recovery_keeps (Keeps.refl s)

theorem execFirmwareLoad_keeps {flash : Option (List Byte)} (h : execFirmwareLoad flash s = .next s₁) : Keeps s s₁ := by
  cases h; exact State.firmwareLoad_keeps (Keeps.refl s)

theorem execCalibrationComplete_keeps {crc : Nat} (h : execCalibrationComplete crc s = .next s₁) : Keeps s s₁ := by
  cases h; exact State.calComplete_keeps (Keeps.refl s)

theorem execRegisterImageApply_keeps (h : execRegisterImageApply s = .next s₁) : Keeps s s₁ := by
  cases h; exact State.registerImage_keeps (Keeps.refl s)

theorem execAutoModeEntry_keeps (h : execAutoModeEntry s = .next s₁) : Keeps s s₁ := by
  cases h; exact State.autoMode_keeps (Keeps.refl s)

theorem execRailReturnToRange_keeps {r : Nat} (h : execRailReturnToRange r s = .next s₁) : Keeps s s₁ := by
  cases h; exact State.railBack_keeps (Keeps.refl s)

theorem execVfEnableChange_keeps {n : Nat} (h : execVfEnableChange n s = .next s₁) : Keeps s s₁ := by
  cases h; exact Keeps.ite (State.vfChange_keeps (Keeps.refl s)) (Keeps.refl s)

theorem execNop_steps {d : Desc} (h : execNop d s = .next s₁) : Steps s s₁ := by
  cases h; exact State.command_steps (Keeps.refl s)

theorem execRegWrite_steps {d : Desc} (h : execRegWrite d s = .next s₁) : Steps s s₁ := by
  cases h; exact State.command_steps (Keeps.refl s)

theorem execLtcStep_steps {d : Desc} (h : execLtcStep d s = .next s₁) : Steps s s₁ := by
  cases h; exact State.command_steps (Keeps.refl s)

theorem execModeSet_steps {d : Desc} (h : execModeSet d s = .next s₁) : Steps s s₁ := by
  cases h; exact State.command_steps (Keeps.refl s)

theorem execRefForce_steps {d : Desc} (h : execRefForce d s = .next s₁) : Steps s s₁ := by
  cases h; exact State.command_steps (Keeps.refl s)

theorem execPrioTable_steps {d : Desc} (h : execPrioTable d s = .next s₁) : Steps s s₁ := by
  cases h; exact State.command_steps (Keeps.refl s)

theorem execRefOverride_steps {d : Desc} (h : execRefOverride d s = .next s₁) : Steps s s₁ := by
  cases h; exact State.command_steps (Keeps.refl s)

theorem execEnsembleSet_steps {d : Desc} (h : execEnsembleSet d s = .next s₁) : Steps s s₁ := by
  cases h; exact State.command_steps (Keeps.refl s)

theorem execTamperClear_steps {d : Desc} (h : execTamperClear d s = .next s₁) : Steps s s₁ := by
  cases h; exact State.command_steps (Keeps.refl s)

theorem execChanState_steps {d : Desc} (h : execChanState d s = .next s₁) : Steps s s₁ := by
  cases h; exact State.command_steps (Keeps.refl s)

theorem execChanPhase_steps {d : Desc} (h : execChanPhase d s = .next s₁) : Steps s s₁ := by
  cases h; exact State.command_steps (Keeps.refl s)

theorem execChanLoop_steps {d : Desc} (h : execChanLoop d s = .next s₁) : Steps s s₁ := by
  cases h; exact State.command_steps (Keeps.refl s)

theorem execHearthCtl_steps {d : Desc} (h : execHearthCtl d s = .next s₁) : Steps s s₁ := by
  cases h; exact State.command_steps (Keeps.refl s)

theorem execLoomTune_steps {d : Desc} (h : execLoomTune d s = .next s₁) : Steps s s₁ := by
  cases h; exact State.command_steps (Keeps.refl s)

theorem execLoomRelock_steps {d : Desc} (h : execLoomRelock d s = .next s₁) : Steps s s₁ := by
  cases h; exact State.command_steps (Keeps.refl s)

theorem execOutCtl_steps {d : Desc} (h : execOutCtl d s = .next s₁) : Steps s s₁ := by
  cases h; exact State.command_steps (Keeps.refl s)

theorem execSyncGroup_steps {d : Desc} (h : execSyncGroup d s = .next s₁) : Steps s s₁ := by
  cases h; exact State.command_steps (Keeps.refl s)

theorem execTcdCtl_steps {d : Desc} (h : execTcdCtl d s = .next s₁) : Steps s s₁ := by
  cases h; exact State.command_steps (Keeps.refl s)

theorem execLensArm_steps {d : Desc} (h : execLensArm d s = .next s₁) : Steps s s₁ := by
  cases h; exact State.command_steps (Keeps.refl s)

theorem execCapRingCtl_steps {d : Desc} (h : execCapRingCtl d s = .next s₁) : Steps s s₁ := by
  cases h; exact State.command_steps (Keeps.refl s)

theorem execTmCtl_steps {d : Desc} (h : execTmCtl d s = .next s₁) : Steps s s₁ := by
  cases h; exact State.command_steps (Keeps.refl s)

theorem execSentinelCtl_steps {d : Desc} (h : execSentinelCtl d s = .next s₁) : Steps s s₁ := by
  cases h; exact State.command_steps (Keeps.refl s)

theorem execPtpInst_steps {d : Desc} (h : execPtpInst d s = .next s₁) : Steps s s₁ := by
  cases h; exact State.command_steps (Keeps.refl s)

theorem execSessAdd_steps {d : Desc} (h : execSessAdd d s = .next s₁) : Steps s s₁ := by
  cases h; exact State.command_steps (Keeps.refl s)

theorem execSessDel_steps {d : Desc} (h : execSessDel d s = .next s₁) : Steps s s₁ := by
  cases h; exact State.command_steps (Keeps.refl s)

theorem execAcceptStep_steps {d : Desc} (h : execAcceptStep d s = .next s₁) : Steps s s₁ := by
  cases h; exact State.command_steps (Keeps.refl s)

theorem execAsymSet_steps {d : Desc} (h : execAsymSet d s = .next s₁) : Steps s s₁ := by
  cases h; exact State.command_steps (Keeps.refl s)

theorem execPlkCtl_steps {d : Desc} (h : execPlkCtl d s = .next s₁) : Steps s s₁ := by
  cases h; exact State.command_steps (Keeps.refl s)

theorem execKeyCtl_steps {d : Desc} (h : execKeyCtl d s = .next s₁) : Steps s s₁ := by
  cases h; exact State.command_steps (Keeps.refl s)

theorem execGrnStore_steps {d : Desc} (h : execGrnStore d s = .next s₁) : Steps s s₁ := by
  cases h; exact State.command_steps (Keeps.refl s)

theorem execGrnPfMark_steps {d : Desc} (h : execGrnPfMark d s = .next s₁) : Steps s s₁ := by
  cases h; exact State.command_steps (Keeps.refl s)

theorem execWchClear_steps {d : Desc} (h : execWchClear d s = .next s₁) : Steps s s₁ := by
  cases h; exact State.command_steps (Keeps.refl s)

theorem execPktTx_steps {d : Desc} (h : execPktTx d s = .next s₁) : Steps s s₁ := by
  cases h; exact State.command_steps (Keeps.refl s)

theorem execPktRxbuf_steps {d : Desc} (h : execPktRxbuf d s = .next s₁) : Steps s s₁ := by
  cases h; exact State.command_steps (Keeps.refl s)

theorem execRegisterWrite_keeps {a : Access} (h : execRegisterWrite a s = .next s₁) : Keeps s s₁ := by
  cases h; exact State.regWrite_keeps (Keeps.refl s)

theorem execLtcCapture_keeps {a : Access} (h : execLtcCapture a s = .next s₁) : Keeps s s₁ := by
  cases h; exact State.regWrite_keeps (Keeps.refl s)

theorem execLtcStepRequest_keeps {a : Access} (h : execLtcStepRequest a s = .next s₁) : Keeps s s₁ := by
  cases h; exact State.regWrite_keeps (Keeps.refl s)

theorem execUtcoffWrite_keeps {a : Access} (h : execUtcoffWrite a s = .next s₁) : Keeps s s₁ := by
  cases h; exact State.regWrite_keeps (Keeps.refl s)

theorem execViolationClear_keeps {a : Access} (h : execViolationClear a s = .next s₁) : Keeps s s₁ := by
  cases h; exact State.regWrite_keeps (Keeps.refl s)

theorem execRingEnable_keeps {a : Access} (h : execRingEnable a s = .next s₁) : Keeps s s₁ := by
  cases h; exact State.regWrite_keeps (Keeps.refl s)

theorem execRingDisable_keeps {a : Access} (h : execRingDisable a s = .next s₁) : Keeps s s₁ := by
  cases h; exact State.regWrite_keeps (Keeps.refl s)

theorem execRefEnable_keeps {a : Access} (h : execRefEnable a s = .next s₁) : Keeps s s₁ := by
  cases h; exact State.regWrite_keeps (Keeps.refl s)

theorem execRefDisable_keeps {a : Access} (h : execRefDisable a s = .next s₁) : Keeps s s₁ := by
  cases h; exact State.regWrite_keeps (Keeps.refl s)

theorem execPrelockLatch_keeps {a : Access} (h : execPrelockLatch a s = .next s₁) : Keeps s s₁ := by
  cases h; exact State.regWrite_keeps (Keeps.refl s)

theorem execEnsembleEnable_keeps {a : Access} (h : execEnsembleEnable a s = .next s₁) : Keeps s s₁ := by
  cases h; exact State.regWrite_keeps (Keeps.refl s)

theorem execEnsembleDisable_keeps {a : Access} (h : execEnsembleDisable a s = .next s₁) : Keeps s s₁ := by
  cases h; exact State.regWrite_keeps (Keeps.refl s)

theorem execEnsembleLatch_keeps {a : Access} (h : execEnsembleLatch a s = .next s₁) : Keeps s s₁ := by
  cases h; exact State.regWrite_keeps (Keeps.refl s)

theorem execChannelEnable_keeps {a : Access} (h : execChannelEnable a s = .next s₁) : Keeps s s₁ := by
  cases h; exact State.regWrite_keeps (Keeps.refl s)

theorem execChannelDisable_keeps {a : Access} (h : execChannelDisable a s = .next s₁) : Keeps s s₁ := by
  cases h; exact State.regWrite_keeps (Keeps.refl s)

theorem execFreeRunWordLoad_keeps {a : Access} (h : execFreeRunWordLoad a s = .next s₁) : Keeps s s₁ := by
  cases h; exact State.regWrite_keeps (Keeps.refl s)

theorem execMillerLatch_keeps {a : Access} (h : execMillerLatch a s = .next s₁) : Keeps s s₁ := by
  cases h; exact State.regWrite_keeps (Keeps.refl s)

theorem execHearthLatch_keeps {a : Access} (h : execHearthLatch a s = .next s₁) : Keeps s s₁ := by
  cases h; exact State.regWrite_keeps (Keeps.refl s)

theorem execLoomEnable_keeps {a : Access} (h : execLoomEnable a s = .next s₁) : Keeps s s₁ := by
  cases h; exact State.regWrite_keeps (Keeps.refl s)

theorem execLoomDisable_keeps {a : Access} (h : execLoomDisable a s = .next s₁) : Keeps s s₁ := by
  cases h; exact State.regWrite_keeps (Keeps.refl s)

theorem execLoomFcLoad_keeps {a : Access} (h : execLoomFcLoad a s = .next s₁) : Keeps s s₁ := by
  cases h; exact State.regWrite_keeps (Keeps.refl s)

theorem execBandTableLatch_keeps {a : Access} (h : execBandTableLatch a s = .next s₁) : Keeps s s₁ := by
  cases h; exact State.regWrite_keeps (Keeps.refl s)

theorem execOutputEnable_keeps {a : Access} (h : execOutputEnable a s = .next s₁) : Keeps s s₁ := by
  cases h; exact State.regWrite_keeps (Keeps.refl s)

theorem execOutputDisable_keeps {a : Access} (h : execOutputDisable a s = .next s₁) : Keeps s s₁ := by
  cases h; exact State.regWrite_keeps (Keeps.refl s)

theorem execBurstArm_keeps {a : Access} (h : execBurstArm a s = .next s₁) : Keeps s s₁ := by
  cases h; exact State.regWrite_keeps (Keeps.refl s)

theorem execBurstDisarm_keeps {a : Access} (h : execBurstDisarm a s = .next s₁) : Keeps s s₁ := by
  cases h; exact State.regWrite_keeps (Keeps.refl s)

theorem execKeyOverride_keeps {a : Access} (h : execKeyOverride a s = .next s₁) : Keeps s s₁ := by
  cases h; exact State.regWrite_keeps (Keeps.refl s)

theorem execTunnelDataWrite_keeps {a : Access} (h : execTunnelDataWrite a s = .next s₁) : Keeps s s₁ := by
  cases h; exact State.regWrite_keeps (Keeps.refl s)

theorem execTunnelSend_keeps {a : Access} (h : execTunnelSend a s = .next s₁) : Keeps s s₁ := by
  cases h; exact State.regWrite_keeps (Keeps.refl s)

theorem execTunnelRxPop_keeps {a : Access} (h : execTunnelRxPop a s = .next s₁) : Keeps s s₁ := by
  cases h; exact State.busRead_keeps (Keeps.refl s)

theorem execSpiBusTake_keeps {a : Access} (h : execSpiBusTake a s = .next s₁) : Keeps s s₁ := by
  cases h; exact State.regWrite_keeps (Keeps.refl s)

theorem execSpiChipSelect_keeps {a : Access} (h : execSpiChipSelect a s = .next s₁) : Keeps s s₁ := by
  cases h; exact State.regWrite_keeps (Keeps.refl s)

theorem execSpiTx_keeps {a : Access} (h : execSpiTx a s = .next s₁) : Keeps s s₁ := by
  cases h; exact State.regWrite_keeps (Keeps.refl s)

theorem execSpiByteShifted_keeps {v : Nat} (h : execSpiByteShifted v s = .next s₁) : Keeps s s₁ := by
  cases h; exact State.spiShift_keeps (Keeps.refl s)

theorem execSpiRxPop_keeps {a : Access} (h : execSpiRxPop a s = .next s₁) : Keeps s s₁ := by
  cases h; exact State.busRead_keeps (Keeps.refl s)

theorem execGrnUnlock_keeps {a : Access} (h : execGrnUnlock a s = .next s₁) : Keeps s s₁ := by
  cases h; exact State.regWrite_keeps (Keeps.refl s)

theorem execGrnLock_keeps {a : Access} (h : execGrnLock a s = .next s₁) : Keeps s s₁ := by
  cases h; exact State.regWrite_keeps (Keeps.refl s)

theorem execGrnSetPassword_keeps {a : Access} (h : execGrnSetPassword a s = .next s₁) : Keeps s s₁ := by
  cases h; exact State.regWrite_keeps (Keeps.refl s)

theorem execWearCounterIncrement_keeps {a : Access} (h : execWearCounterIncrement a s = .next s₁) : Keeps s s₁ := by
  cases h; exact State.regWrite_keeps (Keeps.refl s)

theorem execWearCounterSelect_keeps {a : Access} (h : execWearCounterSelect a s = .next s₁) : Keeps s s₁ := by
  cases h; exact State.regWrite_keeps (Keeps.refl s)

theorem execGranaryWrite_keeps {off : Nat} {bs : List Byte} (h : execGranaryWrite off bs s = .next s₁) : Keeps s s₁ := by
  unfold execGranaryWrite at h
  split at h
  · cases h
  · cases h; exact Keeps.ite (State.granWrite_keeps (Keeps.refl s)) (Keeps.refl s)

theorem execSafeExitRequest_keeps {a : Access} (h : execSafeExitRequest a s = .next s₁) : Keeps s s₁ := by
  cases h; exact State.regWrite_keeps (Keeps.refl s)

theorem execSoftwareReset_keeps {a : Access} (h : execSoftwareReset a s = .next s₁) : Keeps s s₁ := by
  cases h; exact State.regWrite_keeps (Keeps.refl s)

theorem execHostFirmwareLoad_keeps {a : Access} (h : execHostFirmwareLoad a s = .next s₁) : Keeps s s₁ := by
  cases h; exact State.regWrite_keeps (Keeps.refl s)

theorem execGranaryRead_keeps {off : Nat} {n : Nat} (h : execGranaryRead off n s = .next s₁) : Keeps s s₁ := by
  unfold execGranaryRead at h
  split at h
  · cases h
  · cases h
    exact Keeps.ite (State.granRead_keeps (Keeps.refl s)) (Keeps.ite (Keeps.frame (Keeps.refl s) rfl rfl rfl rfl rfl rfl ⟨rfl, rfl, rfl, rfl, rfl, id⟩) (Keeps.refl s))

theorem execCrossingRead_keeps {a : Access} (h : execCrossingRead a s = .next s₁) : Keeps s s₁ := by
  cases h; exact State.busRead_keeps (Keeps.refl s)

end Sys2Proof.Machine
end

