-- ==== Sys2Proof/Laws/Windows.lean ====
section
/-! SUPPORT. What the window of a register rules out: the special cases of a write that belong to other windows. `w` is the
register's window. -/

namespace Sys2Proof.Machine

namespace State

variable (s : State) {k w : Nat}

theorem not_ring (hw : k % 2 ^ 20 / 1024 = w) (h : w ≠ 0) : isRing k = false := by
  simp only [isRing, Bool.or_eq_false_iff, Bool.and_eq_false_iff, decide_eq_false_iff_not]; omega

theorem not_dring (hw : k % 2 ^ 20 / 1024 = w) (h : w ≠ 0) : isDring k = false := by
  simp only [isDring, Bool.and_eq_false_iff, decide_eq_false_iff_not]; omega

theorem not_ringDenied (who : Who) (hk : k < 2 ^ 20) (hw : k % 2 ^ 20 / 1024 = w) (h : w ≠ 0) : s.ringDenied who k = false := by
  have : Decidable.decide (0 < k / 2 ^ 20) = false := decide_eq_false (by omega)
  simp only [ringDenied, not_dring hw h, this, Bool.and_false, Bool.false_and, Bool.or_false]

theorem not_apart (hk : k < 2 ^ 20) (hw : k % 2 ^ 20 / 1024 = w) (h : 2 ≤ w) (hp : isPop k = false) : apartReg k = false := by
  simp only [apartReg, Bool.or_eq_false_iff, decide_eq_false_iff_not, Bool.and_eq_false_iff]
  refine ⟨?_, hp⟩
  simp only [glbR, rveR, GLB_VIOL_ADDR_OFFSET, GLB_VIOL_INFO_COUNT, GLB_WR_IGN_WR_IGN, RVE_SPI_TX_DATA]
  omega

theorem not_pop (hk : k < 2 ^ 20) (hw : k % 2 ^ 20 / 1024 = w) (h : 4 ≤ w) (hp : w < 60 ∨ 64 ≤ w) : isPop k = false := by
  simp only [isPop, Bool.or_eq_false_iff, decide_eq_false_iff_not, Bool.and_eq_false_iff]
  simp only [rveR, RVE_SPI_RX_POP_DATA]
  omega

theorem not_strobe (who : Who) (m d : Nat) (l : Bool) (hw : k % 2 ^ 20 / 1024 = w) (h1 : w ≠ 1)
    (h3 : w ≠ 3) (hl : w < 28 ∨ 36 ≤ w) (hp : w < 60 ∨ 64 ≤ w) : s.strobeRefused who k m d l = false := by
  have e1 : k ≠ grnR + GRN_WC_INC_CTR.idx := by simp only [grnR, GRN_WC_INC_CTR]; omega
  have e2 : k ≠ rveR + RVE_SPI_TX_DATA.idx := by simp only [rveR, RVE_SPI_TX_DATA]; omega
  unfold strobeRefused
  simp only [hw]
  rw [if_neg (by simp only [Bool.and_eq_true, decide_eq_true_eq]; omega), if_neg e1, if_neg e2,
    if_neg (by simp only [Bool.and_eq_true, decide_eq_true_eq]; omega)]

theorem not_fieldAbsent (lo : Nat) (hk : k < 2 ^ 20) (hw : k % 2 ^ 20 / 1024 = w) (h0 : w ≠ 0) (h2 : w ≠ 2) :
    s.fieldAbsent k lo = false := by
  have hm : k % 2 ^ 20 = k := Nat.mod_eq_of_lt hk
  unfold fieldAbsent
  rw [hm]
  dsimp only
  rw [if_neg (by simp only [Bool.and_eq_true, decide_eq_true_eq]; omega),
    if_neg (by simp only [Bool.and_eq_true, decide_eq_true_eq]; omega), not_ring hw h0]
  rfl

theorem lockCause_free (b lo : Nat) (hr : isRing k = false) : s.lockCause k b lo .free = none := by
  simp [lockCause, hr]

/-- The registers of the windows before Prism's that `together` names. -/
theorem low_keys (hk : 8 * 1024 ≤ k) :
    k ≠ glbR + GLB_TMP_LOG_FIRST.idx ∧ k ≠ rveR + RVE_SPI_CTL_EN.idx ∧ k ≠ grnR + GRN_UNLOCK_CTL_ACT.idx ∧
    k ≠ ltcR + LTC_UTCOFF_LEAP61.idx ∧ k ≠ ltcR + LTC_STEP_CTL_GO.idx ∧ k ≠ glb1R + GLB_HRT_LOC_FIRST.idx := by
  simp only [glbR, rveR, grnR, ltcR, glb1R, GLB_TMP_LOG_FIRST, RVE_SPI_CTL_EN, GRN_UNLOCK_CTL_ACT, LTC_UTCOFF_LEAP61,
    LTC_STEP_CTL_GO, GLB_HRT_LOC_FIRST]
  omega

end State

end Sys2Proof.Machine
end

