-- ==== Sys2Proof/WellFormed.lean ====
section
/-! DEFINITION. Which commands are well formed: instance numbers that some variant has, an access that BAR0 can carry and
that reaches the register its row is about, a descriptor whose fields fit R119 and whose opcode is its row's. -/

namespace Sys2Proof

open Machine

/-- The register that an access starts at. -/
def Access.key (a : Access) : Option Nat :=
  match decodeOff (if a.who.rve then 0 else a.who.func) (a.off / 4 * 4) with
  | .at k => some k
  | _ => none

/-- An access that BAR0 can carry: one to eight bytes inside its 4 MiB, an enable per byte (R142, R161). -/
def Access.fits (a : Access) : Bool :=
  a.who.func < 16 && 1 ≤ a.len && a.len ≤ 8 && a.off + a.len ≤ 2 ^ 22 && a.be < 2 ^ a.len && a.val < 2 ^ (8 * a.len)

/-- A register in each of `n` windows or blocks. -/
def each (n : Nat) (base : Nat → Nat) (f : Fld) : List Nat := (List.range n).map (fun i => base i + f.idx)

/-- The `GLB_RING_CFG` registers that a requester reaches (R104, R105). -/
def ringKeys (a : Access) : List Nat :=
  each 17 (fringR (if a.who.rve then 0 else a.who.func)) GLB_RING_CFG_LOG2SIZE ++ each 24 dringR GLB_RING_CFG_LOG2SIZE

/-- An access that fits, crosses no register boundary and starts at one of these registers. -/
def Access.hits (a : Access) (l : List Nat) : Bool := a.fits && !State.crossing a && a.key.any l.contains

/-- A descriptor whose fields fit R119 and whose class and opcode are these. -/
def Desc.fits (d : Desc) (cls opc : Nat) : Bool :=
  d.cls = cls && d.opc = opc && d.func < 16 && d.ring < 4 && d.idx < 2 ^ 32 && d.tag < 2 ^ 16 && d.target < 2 ^ 16 &&
  d.len < 2 ^ 16 && d.apply < 2 ^ 64 && d.addr < 2 ^ 64 && (d.ind || (d.payload.map List.length).getD 0 == 16)

/-- The command is well formed. -/
def Instr.wf : Instr → Bool
  | .tickBoundary x => x.refs.all (fun r => r.idx < 64)
  | .msixSignal func vec => func < 16 && vec < 64
  | .bufferDrain _ => true
  | .upstreamArbitration waiting => waiting.all (fun b => b.func < 16 && b.len ≤ 9216 &&
      ((b.cls = 1 && b.ring < (if b.func = 0 then 8 else 4)) || (b.cls = 4 && b.func = 0 && b.ring < 4) || (b.cls = 5 && b.func = 0 && b.ring = 0)))
  | .monitorDue x => x.idx < 36
  | .soakEnd x => x.idx < 36
  | .missingEdge i _ => i < 64
  | .todSentence _ => true
  | .irigBFrameReceived _ => true
  | .channelLock c => c < 16
  | .channelUnlock c => c < 16
  | .speculationLimit c => c < 16
  | .learnEnd e m => e < 8 && m < 8
  | .tamperRejoin e m => e < 8 && m < 8
  | .allanWeightUpdate e => e < 8
  | .hearthReanchor e => e < 8
  | .asymWindowEnd e => e < 8
  | .hearthIntervalEnd => true
  | .temperatureReading _ _ => true
  | .leapSecond => true
  | .bandSearchMeasurement n _ => n < 8
  | .loomLock n => n < 8
  | .loomAttemptFail n => n < 8
  | .loomLossOfLock n => n < 8
  | .bandHop n fine after => n < 8 && fine.natAbs ≤ 100 && after.natAbs ≤ 100
  | .glideStep n => n < 8
  | .combSlewEnd n => n < 8
  | .bridgeReady g => g < 6
  | .outputFirstEdge o _ => o < 48
  | .syncInEdge after => after < 15625000
  | .syncGroupResetDone g => g < 8
  | .ppsEdge => true
  | .timecodeFrame => true
  | .lensEdge i x pos => i < 8 && x.mv.natAbs ≤ 2111 && pos < 31250 * 2 ^ 32
  | .burstWindowEnd u pos => u < 2 && pos < 31250 * 2 ^ 32
  | .tallyWindowClose m => m < 64
  | .sentinelWindowClose => true
  | .sentinelLost => true
  | .portLinkChange p _ _ => p < 4
  | .sync m => m.port < 4
  | .followUp m => m.port < 4
  | .delayReq m => m.port < 4
  | .delayResp m => m.port < 4
  | .pdelayReq m => m.port < 4
  | .pdelayResp m => m.port < 4
  | .pdelayRespFollowUp m => m.port < 4
  | .announce m _ => m.port < 4
  | .requestUnicastTransmission m t => m.port < 4 && t.typ < 3
  | .grantUnicastTransmission m t => m.port < 4 && t.typ < 3
  | .cancelUnicastTransmission m t => m.port < 4 && t.typ < 3
  | .acknowledgeCancelUnicastTransmission m => m.port < 4
  | .managementMessage m => m.port < 4
  | .nonPtpFrame f => f.port < 4
  | .esmcPdu m => m.frame.port < 4
  | .esmcTimeout p => p < 4
  | .esmcInformationPdu p => p < 4
  | .messageDue m _ => m.kind < 7 && m.inst < 8 && m.port < 4
  | .messageSkip m => m.kind < 7 && m.inst < 8 && m.port < 4
  | .sessionEntryFetch port _ _ _ => port < 4
  | .grantExpiry _ t => t < 3
  | .grantRenewal _ t => t < 3
  | .requestRetry _ t => t < 3
  | .announceTimeout k => k < 8
  | .syncTimeout k => k < 8
  | .quarantineEnd k => k < 8
  | .hostFrameSent ring => ring < 4
  | .linkFrameReceived m => m.port < 4
  | .timeFrameReceived m => m.port < 4
  | .polsisLinkUp p => p < 4
  | .polsisLinkDown p => p < 4
  | .laneSwap p => p < 4
  | .asymmetryUpdate p => p < 4
  | .calibrationEnd p => p < 4
  | .frameLoss p => p < 4
  | .originRelease p => p < 4
  | .originEntryFree _ => true
  | .keySample _ => true
  | .keySenseChange _ => true
  | .takeover => true
  | .holdoffExpiry => true
  | .overrideEnd => true
  | .snapshotCommit => true
  | .hearthSnapshotCommit => true
  | .mirrorLinkLost => true
  | .tamperEdge pin _ t => pin < 2 && t.ns < 31250
  | .pageStoreStart => true
  | .pageStoreComplete _ => true
  | .wearCounterWrite c _ => c < 16
  | .faultOccurrence srcs ended bad => srcs.all (· < 48) && ended.all (· < 48) && bad.all (· < 7)
  | .reactionEnd => true
  | .suppressionEnd n => n < 48
  | .reeveWatchdog => true
  | .safeEntry => true
  | .powerFailWarning _ ns => ns < 31250
  | .powerFailCleared => true
  | .railOutOfRange r => r < 15
  | .coreFailure _ => true
  | .emberEntry => true
  | .emberSecond => true
  | .vbakLoss => true
  | .coreRailsInRange _ => true
  | .porRelease boot _ => boot < 4
  | .rstN _ => true
  | .perstN => true
  | .functionLevelReset f => f < 16
  | .romComplete _ => true
  | .granaryRecovery => true
  | .firmwareLoad _ => true
  | .calibrationComplete crc => crc < 2 ^ 32
  | .registerImageApply => true
  | .autoModeEntry => true
  | .doorbellWrite f page _ size v => f < 16 && page < 16 && size ≤ 8 && v < 2 ^ (8 * size)
  | .descriptorFetch f cls ring bytes _ => f < 16 && cls < 3 && ring < 4 && ((bytes.map List.length).getD 32 == 32)
  | .nop d => d.fits 0 0x00
  | .regWrite d => d.fits 0 0x01
  | .ltcStep d => d.fits 0 0x02
  | .modeSet d => d.fits 0 0x03
  | .refForce d => d.fits 0 0x08
  | .prioTable d => d.fits 0 0x09
  | .refOverride d => d.fits 0 0x0A
  | .ensembleSet d => d.fits 0 0x0B
  | .tamperClear d => d.fits 0 0x0C
  | .chanState d => d.fits 0 0x10
  | .chanPhase d => d.fits 0 0x11
  | .chanLoop d => d.fits 0 0x12
  | .hearthCtl d => d.fits 0 0x14
  | .loomTune d => d.fits 0 0x18
  | .loomRelock d => d.fits 0 0x19
  | .outCtl d => d.fits 0 0x20
  | .syncGroup d => d.fits 0 0x21
  | .tcdCtl d => d.fits 0 0x22
  | .lensArm d => d.fits 0 0x28
  | .capRingCtl d => d.fits 0 0x29
  | .tmCtl d => d.fits 0 0x30
  | .sentinelCtl d => d.fits 0 0x31
  | .ptpInst d => d.fits 0 0x38
  | .sessAdd d => d.fits 0 0x39
  | .sessDel d => d.fits 0 0x3A
  | .acceptStep d => d.fits 0 0x3B
  | .asymSet d => d.fits 0 0x3C
  | .plkCtl d => d.fits 0 0x40
  | .keyCtl d => d.fits 0 0x48
  | .grnStore d => d.fits 0 0x50
  | .grnPfMark d => d.fits 0 0x51
  | .wchClear d => d.fits 0 0x58
  | .pktTx d => d.fits 1 0x60
  | .pktRxbuf d => d.fits 2 0x61
  | .registerWrite a => a.fits && !State.crossing a
  | .ltcCapture a => a.hits [ltcR + LTC_CAPTURE_GO.idx]
  | .ltcStepRequest a => a.hits [ltcR + LTC_STEP_CTL_GO.idx]
  | .utcoffWrite a => a.hits [ltcR + LTC_UTCOFF_OFFSET.idx]
  | .violationClear a => a.hits [glbR + GLB_VIOL_INFO_CAUSE.idx]
  | .ringEnable a => a.hits (ringKeys a)
  | .ringDisable a => a.hits (ringKeys a)
  | .refEnable a => a.hits (each 64 priR PRS_MON_EN)
  | .refDisable a => a.hits (each 64 priR PRS_MON_EN)
  | .prelockLatch a => a.hits (each 16 prcR PRS_PL_IDX_IDX)
  | .ensembleEnable a => a.hits (each 8 ensR GLB_ENS_CFG_EN)
  | .ensembleDisable a => a.hits (each 8 ensR GLB_ENS_CFG_EN)
  | .ensembleLatch a => a.hits (each 8 ensR GLB_ENS_LATCH_SLOT)
  | .channelEnable a => a.hits (each 16 milR MIL_CFG_EN)
  | .channelDisable a => a.hits (each 16 milR MIL_CFG_EN)
  | .freeRunWordLoad a => a.hits (each 16 milR MIL_FRW_HI_FRW)
  | .millerLatch a => a.hits (each 16 milR MIL_LATCH_GO)
  | .hearthLatch a => a.hits [glb1R + GLB_HRT_LATCH_GO.idx]
  | .loomEnable a => a.hits (each 8 lomR LOM_CFG_EN)
  | .loomDisable a => a.hits (each 8 lomR LOM_CFG_EN)
  | .loomFcLoad a => a.hits (each 8 lomR LOM_FC_HI_FC)
  | .bandTableLatch a => a.hits (each 8 lomR LOM_BIDX_BIDX)
  | .outputEnable a => a.hits (each 48 outR OUT_CFG_EN)
  | .outputDisable a => a.hits (each 48 outR OUT_CFG_EN)
  | .burstArm a => a.hits (each 2 bstR LNS_BST_CTL_ARM)
  | .burstDisarm a => a.hits (each 2 bstR LNS_BST_CTL_ARM)
  | .keyOverride a => a.hits [mirR + MIR_KEY_KEY_OVERRIDE.idx]
  | .tunnelDataWrite a => a.hits (each 4 plkR PLK_TUN_TX_DATA)
  | .tunnelSend a => a.hits (each 4 plkR PLK_TUN_TXCTL_SEND)
  | .tunnelRxPop a => a.hits (each 4 plkR PLK_TUN_RX_POP_DATA)
  | .spiBusTake a => a.hits [rveR + RVE_SPI_CTL_EN.idx]
  | .spiChipSelect a => a.hits [rveR + RVE_SPI_CTL_CS.idx]
  | .spiTx a => a.hits [rveR + RVE_SPI_TX_DATA.idx]
  | .spiByteShifted v => v < 256
  | .spiRxPop a => a.hits [rveR + RVE_SPI_RX_POP_DATA.idx]
  | .grnUnlock a => a.hits [grnR + GRN_UNLOCK_CTL_GO.idx]
  | .grnLock a => a.hits [grnR + GRN_UNLOCK_CTL_GO.idx]
  | .grnSetPassword a => a.hits [grnR + GRN_UNLOCK_CTL_GO.idx]
  | .wearCounterIncrement a => a.hits [grnR + GRN_WC_INC_CTR.idx]
  | .wearCounterSelect a => a.hits [grnR + GRN_WC_SEL_CTR.idx]
  | .granaryWrite off bs => off + bs.length ≤ 524288
  | .safeExitRequest a => a.hits [pwrR + PWR_MODE_CTL_GO.idx]
  | .softwareReset a => a.hits [pwrR + PWR_RESET_GO.idx]
  | .hostFirmwareLoad a => a.hits [pwrR + PWR_BOOT_HOSTGO.idx]
  | .granaryRead off n => off + n ≤ 524288
  | .crossingRead a => a.fits && State.crossing a
  | .fineDelayMoveEnd o => o < 48
  | .receiveClockLockChange p _ => p < 4
  | .railReturnToRange r => r < 15
  | .vfEnableChange n => n < 16

end Sys2Proof
end

