-- ==== Sys2Proof/Tests/Slice0.lean ====
section
/-! SUPPORT. Own tests: a term that each well-formedness check refuses, small runs with results taken from the spec's
rules, and for every statement with hypotheses a state and operands that meet them. -/

open Sys2Proof Sys2Proof.Machine

namespace Sys2Proof.Tests

set_option Elab.async false

/-- The reset state with some register fields set. -/
def S (regs : List (Nat × Fld × Nat)) (s : State := State.reset) : State := regs.foldl (fun s x => s.put x.1 x.2.1 x.2.2) s

/-- The state a command leaves; the reset state where it leaves none. -/
def theNext {φ ρ : Type} (o : Host.Outcome State φ ρ) : State := match o with | .next s => s | _ => State.reset

/-- The mask and data an access presents. -/
def md (a : Access) : Nat × Nat := State.personality (bitsOf a.off 12 2) (a.val % 2 ^ (8 * a.len) * 2 ^ (8 * (a.off % 4)))
  (State.laneMask (a.be % 2 ^ a.len * 2 ^ (a.off % 4)))

theorem presents_of {s : State} {a : Access} {k m d : Nat}
    (h : (s.answers a.who && decide (0 < a.len ∧ a.len ≤ 4) && !State.crossing a && decide (a.be % 2 ^ a.len ≠ 0) &&
      decide (decodeOff (if a.who.rve then 0 else a.who.func) (a.off / 4 * 4) = .at k) && decide (md a = (m, d))) = true) :
    Presents s a k m d := by
  simp only [Bool.and_eq_true, Bool.not_eq_true', decide_eq_true_eq] at h
  exact ⟨h.1.1.1.1.1, h.1.1.1.1.2, h.1.1.1.2, h.1.1.2, h.1.2, h.2⟩

theorem writes_of {s : State} {a : Access} {b : Nat} {f : Fld} {v : Nat}
    (h : ((s.answers a.who && decide (0 < a.len ∧ a.len ≤ 4) && !State.crossing a && decide (a.be % 2 ^ a.len ≠ 0) &&
      decide (decodeOff (if a.who.rve then 0 else a.who.func) (a.off / 4 * 4) = .at (b + f.idx)) &&
      decide (md a = ((md a).1, (md a).2))) && decide ((md a).1 ≠ 0 ∧
      merged (s.reg (b + f.idx)).toNat (md a).1 (md a).2 = putBits (s.reg (b + f.idx)).toNat f.lo f.width v)) = true) :
    writesField s a b f v := by
  rw [Bool.and_eq_true] at h
  exact ⟨(md a).1, (md a).2, presents_of h.1, (of_decide_eq_true h.2).1, (of_decide_eq_true h.2).2⟩

theorem reads_of {s : State} {a : Access} {k : Nat}
    (h : (s.answers a.who && decide (a.len = 4 ∧ a.off % 4 = 0) &&
      decide (decodeOff (if a.who.rve then 0 else a.who.func) (a.off / 4 * 4) = .at k)) = true) : Reads s a k := by
  simp only [Bool.and_eq_true, decide_eq_true_eq] at h
  exact ⟨h.1.1, h.1.2, h.2⟩

theorem applies_of {s : State} {c : Instr}
    (h : (match commandRow c with
      | some d => decide (d.cls = 0 ∧ s.takesFrom d = true ∧ d.apply ≤ s.tn ∧ (s.taken d).checkDesc d = none)
      | none => false) = true) : Applies s c := by
  unfold Applies
  cases hc : commandRow c with
  | none => rw [hc] at h; cases h
  | some d => rw [hc] at h; exact of_decide_eq_true h

/-! ## Ill-formed terms -/

def P0 : Who := ⟨0, false, false⟩
/-- A whole-word access of the scratch register, which no named row is about. -/
def scratchA : Access := ⟨P0, 4, 4, 15, 0, 0⟩
def nopD : Desc := ⟨0, 0, 0, 0, 0, false, false, 0, 0, 16, 0, 0, some (List.replicate 16 0#8)⟩

theorem test_wellformed_nop : (Instr.nop nopD).wf = true ∧ (Instr.registerWrite scratchA).wf = true := by decide

/-- Every bound of R119, one at a time. -/
theorem test_illformed_descriptor_fields :
    [{ nopD with cls := 1 }, { nopD with opc := 1 }, { nopD with func := 16 }, { nopD with ring := 4 }, { nopD with idx := 2 ^ 32 },
      { nopD with tag := 2 ^ 16 }, { nopD with target := 2 ^ 16 }, { nopD with len := 2 ^ 16 }, { nopD with apply := 2 ^ 64 },
      { nopD with addr := 2 ^ 64 }, { nopD with payload := some [] }, { nopD with payload := none }].all
      (fun d => !(Instr.nop d).wf) = true := by decide

/-- A descriptor of another class and opcode is ill formed for every command row. -/
theorem test_illformed_descriptor_rows :
    ([.nop, .regWrite, .ltcStep, .modeSet, .refForce, .prioTable, .refOverride, .ensembleSet, .tamperClear, .chanState, .chanPhase,
      .chanLoop, .hearthCtl, .loomTune, .loomRelock, .outCtl, .syncGroup, .tcdCtl, .lensArm, .capRingCtl, .tmCtl, .sentinelCtl,
      .ptpInst, .sessAdd, .sessDel, .acceptStep, .asymSet, .plkCtl, .keyCtl, .grnStore, .grnPfMark, .wchClear, .pktTx,
      .pktRxbuf] : List (Desc → Instr)).all (fun f => !(f { nopD with cls := 3, opc := 0xFF }).wf) = true := by decide

/-- Every bound of an access (R142, R161). -/
theorem test_illformed_access_fields :
    [{ scratchA with who := ⟨16, false, false⟩ }, { scratchA with len := 0 }, { scratchA with len := 9 }, { scratchA with off := 2 ^ 22 },
      { scratchA with be := 16 }, { scratchA with val := 2 ^ 32 }, { scratchA with off := 6 }].all
      (fun a => !(Instr.registerWrite a).wf) = true ∧ (Instr.crossingRead scratchA).wf = false := by decide

/-- An access of another register is ill formed for every row about one register. -/
theorem test_illformed_access_rows :
    ([.ltcCapture, .ltcStepRequest, .utcoffWrite, .violationClear, .ringEnable, .ringDisable, .refEnable, .refDisable, .prelockLatch,
      .ensembleEnable, .ensembleDisable, .ensembleLatch, .channelEnable, .channelDisable, .freeRunWordLoad, .millerLatch, .hearthLatch,
      .loomEnable, .loomDisable, .loomFcLoad, .bandTableLatch, .outputEnable, .outputDisable, .burstArm, .burstDisarm, .keyOverride,
      .tunnelDataWrite, .tunnelSend, .tunnelRxPop, .spiBusTake, .spiChipSelect, .spiTx, .spiRxPop, .grnUnlock, .grnLock,
      .grnSetPassword, .wearCounterIncrement, .wearCounterSelect, .safeExitRequest, .softwareReset, .hostFirmwareLoad] :
      List (Access → Instr)).all (fun f => !(f scratchA).wf) = true := by decide +kernel

/-- One number past the last instance, or one value out of its range. -/
theorem test_illformed_numbers :
    ([.tickBoundary { refs := [⟨64, [], [], false⟩] }, .msixSignal 16 0, .msixSignal 0 64, .upstreamArbitration [⟨16, 0, 0, 0⟩],
      .upstreamArbitration [⟨0, 6, 0, 0⟩], .upstreamArbitration [⟨0, 0, 24, 0⟩], .monitorDue ⟨36, [], [], false⟩,
      .soakEnd ⟨36, [], [], false⟩, .missingEdge 64 0, .channelLock 16, .channelUnlock 16, .speculationLimit 16, .learnEnd 8 0,
      .learnEnd 0 8, .tamperRejoin 8 0, .tamperRejoin 0 8, .allanWeightUpdate 8, .hearthReanchor 8, .asymWindowEnd 8,
      .bandSearchMeasurement 8 0, .loomLock 8, .loomAttemptFail 8, .loomLossOfLock 8, .bandHop 8 0 0, .bandHop 0 101 0,
      .bandHop 0 0 (-101), .glideStep 8, .combSlewEnd 8, .bridgeReady 6, .outputFirstEdge 48 0, .syncInEdge 15625000,
      .syncGroupResetDone 8, .lensEdge 8 ⟨true, 0⟩ 0, .lensEdge 0 ⟨true, 2112⟩ 0, .lensEdge 0 ⟨true, 0⟩ (31250 * 2 ^ 32), .burstWindowEnd 2 0,
      .burstWindowEnd 0 (31250 * 2 ^ 32), .tallyWindowClose 64, .portLinkChange 4 true true] : List Instr).all
      (fun c => !c.wf) = true := by decide +kernel

def badM : PtpIn := ⟨4, 0, 0, 2, 0, 0, 0, 0, 0, 0, 0, false, 0, 0, 0, 0, []⟩
def badMsg : Msg := { kind := 7, inst := 0, port := 0, slot := none, seq := 0 }

theorem test_illformed_frames :
    ([.sync badM, .followUp badM, .delayReq badM, .delayResp badM, .pdelayReq badM, .pdelayResp badM, .pdelayRespFollowUp badM,
      .announce badM {}, .requestUnicastTransmission badM ⟨0, 0, 0⟩, .requestUnicastTransmission { badM with port := 0 } ⟨3, 0, 0⟩,
      .grantUnicastTransmission badM ⟨0, 0, 0⟩, .grantUnicastTransmission { badM with port := 0 } ⟨3, 0, 0⟩,
      .cancelUnicastTransmission badM ⟨0, 0, 0⟩, .cancelUnicastTransmission { badM with port := 0 } ⟨3, 0, 0⟩,
      .acknowledgeCancelUnicastTransmission badM, .managementMessage badM, .nonPtpFrame ⟨4, []⟩,
      .esmcPdu ⟨true, 0, none, ⟨4, []⟩⟩, .esmcTimeout 4, .esmcInformationPdu 4, .messageDue badMsg 0,
      .messageDue { badMsg with kind := 0, inst := 8 } 0, .messageDue { badMsg with kind := 0, port := 4 } 0, .messageSkip badMsg,
      .messageSkip { badMsg with kind := 0, inst := 8 }, .messageSkip { badMsg with kind := 0, port := 4 },
      .sessionEntryFetch 4 none (0, 0, 0) false, .grantExpiry 0 3, .grantRenewal 0 3, .requestRetry 0 3, .announceTimeout 8,
      .syncTimeout 8, .quarantineEnd 8, .hostFrameSent 4,
      .linkFrameReceived ⟨4, [], [], 0⟩,
      .timeFrameReceived ⟨4, [], 0, []⟩, .polsisLinkUp 4, .polsisLinkDown 4, .laneSwap 4,
      .asymmetryUpdate 4, .calibrationEnd 4, .frameLoss 4, .originRelease 4] : List Instr).all (fun c => !c.wf) = true := by
  decide +kernel

theorem test_illformed_keeper :
    ([.tamperEdge 2 true ⟨0, 0⟩, .tamperEdge 0 true ⟨31250, 0⟩, .wearCounterWrite 16 false, .faultOccurrence [48] [] [],
      .faultOccurrence [] [48] [], .faultOccurrence [] [] [7], .suppressionEnd 48, .powerFailWarning true 31250, .railOutOfRange 15,
      .porRelease 4 false, .functionLevelReset 16, .calibrationComplete (2 ^ 32), .doorbellWrite 16 0 0 4 0, .doorbellWrite 0 16 0 4 0,
      .doorbellWrite 0 0 0 9 0, .doorbellWrite 0 0 0 4 (2 ^ 32), .descriptorFetch 16 0 0 none none, .descriptorFetch 0 3 0 none none,
      .descriptorFetch 0 0 4 none none, .descriptorFetch 0 0 0 (some []) none, .spiByteShifted 256, .granaryWrite 524288 [0#8],
      .granaryRead 524288 1, .fineDelayMoveEnd 48, .receiveClockLockChange 4 true, .railReturnToRange 15, .vfEnableChange 16] :
      List Instr).all (fun c => !c.wf) = true := by decide +kernel

/-! ## Small runs; the expected values are read from the rules named -/

def run1 (c : Instr) (s : State := State.reset) : State := theNext (exec c s)
/-- A whole-word plain write by PF0 of the register with key `k`. -/
def wr (k v : Nat) : Access := ⟨P0, k / 1024 * 2 ^ 14 + k % 1024 * 4, 4, 15, v, 0⟩

/-- R167, R667: GLB_ID of the GSY-8720, stepping B0. -/
theorem test_reset_id : (State.reset.reg glbR).toNat = 0x87200010 := by decide +kernel

/-- R150: a Set write keeps the bits it does not name. -/
theorem test_set_personality :
    ((run1 (.registerWrite { wr 1 0xF0 with off := 4 + 4096 }) (run1 (.registerWrite (wr 1 0x0F)))).reg 1).toNat = 0xFF := by
  decide +kernel

/-- R150: a Masked write changes only the bits its upper half names. -/
theorem test_masked_personality :
    ((run1 (.registerWrite { wr 1 0x00F0AAAA with off := 4 + 3 * 4096 }) (run1 (.registerWrite (wr 1 0x12345678)))).reg 1).toNat =
      0x123456A8 := by decide +kernel

/-- R164: a crossing access is aborted and flagged with cause 4. -/
theorem test_crossing :
    let t := run1 (.crossingRead { scratchA with off := 6 })
    t.bus.abort = true ∧ t.get glbR GLB_VIOL_INFO_CAUSE = 4 ∧ t.get glbR GLB_VIOL_INFO_COUNT = 1 := by decide +kernel

/-- R71, R79: COLD is W1C. -/
theorem test_cold_clears :
    (run1 (.registerWrite (wr (ltcR + LTC_STATUS_COLD.idx) (2 ^ LTC_STATUS_COLD.lo)))).on ltcR LTC_STATUS_COLD = false := by decide +kernel

/-- R82: LEAP61 and LEAP59 together are refused. -/
theorem test_both_leaps_refused :
    let t := run1 (.utcoffWrite (wr (ltcR + LTC_UTCOFF_OFFSET.idx) (2 ^ LTC_UTCOFF_LEAP61.lo + 2 ^ LTC_UTCOFF_LEAP59.lo + 37)))
    t.get ltcR LTC_UTCOFF_LEAP61 = 0 ∧ t.get ltcR LTC_UTCOFF_LEAP59 = 0 ∧ t.get ltcR LTC_UTCOFF_OFFSET = 37 := by decide +kernel

/-- R634: ROM_COMPLETE takes M3 to M4, and nothing in M6. -/
theorem test_rom_complete : (run1 (.romComplete true)).mode = 4 := by decide +kernel

/-- R637: RST_N low takes the part to M2. -/
theorem test_rst : (run1 (.rstN true)).mode = 2 ∧ (run1 (.rstN true)).get pwrR PWR_CNT_RESETS = 1 := by decide +kernel

/-- R99: a level reset of PF0 takes in every enabled VF. -/
theorem test_flr : (run1 (.functionLevelReset 0) { State.reset with host := { nvf := 2 } }).host.flr = [0, 1, 2] := by decide +kernel

/-- R620: a rail that leaves its range clears its OK bit and sets its OUT bit. -/
theorem test_rail :
    (run1 (.railOutOfRange 6)).get pwrR PWR_RAIL_OK = 32703 - 64 + (32703 / 64 + 1) % 2 * 64 ∧
    (run1 (.railOutOfRange 6)).get pwrR PWR_RAIL_OUT = 64 := by decide +kernel

/-- R577: bytes written through BAR4 read back, in order, once recovery has ended. -/
theorem test_granary :
    let s := { S [(pwrR, PWR_STATUS_MODE, 7)] with pwr := { State.reset.pwr with recovered := true } }
    (run1 (.granaryRead 51200 2) (run1 (.granaryWrite 51200 [7#8, 9#8]) s)).bus.rdata = [7#8, 9#8] := by decide +kernel

/-- The BAR4 access past its last byte. -/
theorem test_granary_outside : exec (.granaryRead 524287 2) State.reset = .fault (.outsideBar4 524288) := rfl

/-- On an empty queue the part idles; a queued command runs. -/
theorem test_step : step State.reset = .next State.reset ∧
    (theNext (step { State.reset with pending := [.romComplete true] })).mode = 4 := by
  refine ⟨rfl, by decide +kernel⟩

/-! ## Hypotheses that a state meets -/

theorem witness_StepIdlesOnAnEmptyQueue : State.reset.pending = [] := rfl

theorem witness_EveryCommandCompletes : outside (.granaryWrite 0 [0#8]) = false ∧ outside (.granaryRead 524288 1) = true := by decide

theorem witness_CommandsKeepVariantAndQueue : exec (.romComplete false) State.reset = .next State.reset := rfl

theorem witness_StepKeepsCanonicalForm : State.reset.wf = true ∧ step State.reset = .next State.reset := ⟨by decide +kernel, rfl⟩

theorem witness_QueuesRunSafely : ∃ s : State, s.wf = true ∧ s.pending ≠ [] ∧ (∀ c ∈ s.pending, outside c = false) :=
  ⟨{ State.reset with pending := [.granaryWrite 524287 [1#8], .romComplete true] }, by decide +kernel, by decide, by decide⟩

theorem witness_OnlyBoundariesMoveTime :
    ∃ (c : Instr) (s t : State), exec c s = .next t ∧ (∀ x, c ≠ .tickBoundary x) ∧ c ≠ .vbakLoss :=
  ⟨.romComplete false, State.reset, State.reset, rfl, nofun, nofun⟩

theorem witness_TickBoundariesAdvanceTheLtc : (S [(pwrR, PWR_STATUS_MODE, 0)]).mode = 0 ∧ State.reset.mode ≠ 0 ∧
    (run1 (.tickBoundary {})).ltc.ns = 31250 := by decide +kernel

def wide : Access := ⟨P0, 8, 8, 255, 0x1122334455667788, 0⟩

theorem witness_WideWritesAreTwo : wide.len = 8 ∧ wide.off % 8 = 0 ∧ State.reset.answers wide.who = true ∧
    exec (.registerWrite { wide with len := 4, be := wide.be % 16, val := wide.val % 2 ^ 32 }) State.reset =
      .next (run1 (.registerWrite { wide with len := 4, be := wide.be % 16, val := wide.val % 2 ^ 32 })) :=
  ⟨by decide, by decide, by decide +kernel, rfl⟩

theorem witness_UnansweredAccessesDoNothing : ∃ (s : State) (a : Access), s.answers a.who = false :=
  ⟨State.reset, ⟨⟨3, false, false⟩, 8, 4, 15, 1, 0⟩, by decide +kernel⟩

theorem witness_UnmappedWritesAreFlagged : ∃ (s : State) (a : Access), s.answers a.who = true ∧ 0 < a.len ∧ a.off % 4 + a.len ≤ 4 ∧
    a.be % 2 ^ a.len ≠ 0 ∧ decodeOff (if a.who.rve then 0 else a.who.func) (a.off / 4 * 4) = .unmapped ∧ s.suppressed 8 = false :=
  ⟨State.reset, ⟨P0, 6 * 2 ^ 14, 4, 15, 7, 0⟩, by decide +kernel, by decide, by decide, by decide, by decide +kernel, by decide +kernel⟩

theorem witness_RingsTurnOnAndOff : ∃ (s : State) (a : Access) (m d : Nat), Presents s a (dringR 3 + GLB_RING_CFG_LOG2SIZE.idx) m d ∧
    s.ringDenied a.who (dringR 3 + GLB_RING_CFG_LOG2SIZE.idx) = false ∧ State.privileged a.who = true ∧
    merged (s.reg (dringR 3 + GLB_RING_CFG_LOG2SIZE.idx)).toNat m d =
      putBits (s.reg (dringR 3 + GLB_RING_CFG_LOG2SIZE.idx)).toNat 0 5 ((md a).2 % 32) ∧
    (s.ringOn (dringR 3) = false ∧ 6 ≤ (md a).2 ∧ (md a).2 ≤ ringLogMax (dringR 3 + GLB_RING_CFG_LOG2SIZE.idx)) :=
  ⟨State.reset, wr (dringR 3 + GLB_RING_CFG_LOG2SIZE.idx) 13, 2 ^ 32 - 1, 13, presents_of (by decide +kernel), by decide +kernel,
    by decide +kernel, by decide +kernel, by decide +kernel⟩

theorem witness_RingsTurnOnAndOff_off : ∃ (s : State) (a : Access) (m d : Nat),
    Presents s a (fringR 2 5 + GLB_RING_CFG_LOG2SIZE.idx) m d ∧ s.ringDenied a.who (fringR 2 5 + GLB_RING_CFG_LOG2SIZE.idx) = false ∧
    bitsOf m GLB_RING_CFG_OWNER.lo 4 = 0 ∧
    merged (s.reg (fringR 2 5 + GLB_RING_CFG_LOG2SIZE.idx)).toNat m d =
      putBits (s.reg (fringR 2 5 + GLB_RING_CFG_LOG2SIZE.idx)).toNat 0 5 0 ∧ s.ringOn (fringR 2 5) = true :=
  ⟨{ S [(fringR 2 5, GLB_RING_CFG_LOG2SIZE, 8)] with host := { nvf := 3 } }, ⟨⟨2, false, false⟩, 0x128 * 4 + 8, 4, 1, 0, 0⟩, 255, 0,
    presents_of (by decide +kernel), by decide +kernel, by decide +kernel, by decide +kernel, by decide +kernel⟩

/-- R272: a phase that stays within 1,000 s, and one that does not. -/
def chanPhaseState (dt : Rat) : State :=
  let s := S [(pwrR, PWR_STATUS_MODE, 8), (fringR 0 1, GLB_RING_CFG_LOG2SIZE, 6), (fringR 0 5, GLB_RING_CFG_LOG2SIZE, 6)]
  let s := s.setChan 3 (fun x => { x with on := true, c := { x.c with dt := dt } })
  { s with milBak := s.mil }

def chanPhaseDesc : Desc := { nopD with opc := 0x11, ring := 1, target := 3 }

theorem witness_ChannelCommandsApply_phase :
    ∃ (s : State) (d : Desc), Applies s (.chanPhase d) ∧
      (let x := (s.taken (rowDesc d 0 0x11)).milUndo.chan 3
       d.target = 3 ∧ leAt (d.payload.getD []) 8 1 = 0 ∧ signed (leAt (d.payload.getD []) 0 8) 64 = 0 ∧ x.specN = none ∧
         |x.c.d| ≤ 1000 ∧ |q80 (x.c.dt + 0)| ≤ 1000) :=
  ⟨chanPhaseState 0, chanPhaseDesc, applies_of (by decide +kernel), by dsimp only; decide +kernel⟩

theorem witness_ChannelCommandsApply_limit :
    ∃ (s : State) (d : Desc), Applies s (.chanPhase d) ∧
      (let x := (s.taken (rowDesc d 0 0x11)).milUndo.chan 3
       d.target = 3 ∧ leAt (d.payload.getD []) 8 1 = 0 ∧ signed (leAt (d.payload.getD []) 0 8) 64 = 0 ∧ x.specN = none ∧
         1000 < |q80 (x.c.dt + 0)|) :=
  ⟨chanPhaseState 1001, chanPhaseDesc, applies_of (by decide +kernel), by dsimp only; decide +kernel⟩

end Sys2Proof.Tests


namespace Sys2Proof.Tests.T1

set_option Elab.async false

def u (a l61 l59 ins : Nat) (off sec : Nat) : State :=
  { S [(ltcR, LTC_UTCOFF_LEAP61, l61), (ltcR, LTC_UTCOFF_LEAP59, l59), (ltcR, LTC_UTCOFF_LEAP_INS, ins),(ltcR, LTC_UTCOFF_OFFSET, off), (ltcR, LTC_UTCOFF_VALID, a)] with ltc := { sec := sec, ns := 5 } }
def v (mask : Nat) : State := { S [(fglbR 2, GLB_IRQ_MOD_TICKS, 3)] with host := { vecs := [(0,1),(2,5)], sigs := [(2,5,3),(1,1,1)], pba := [(2,5),(2,6)], msix := [(2*256+20, 0x1000), (2*256+22, 0xABCD)] ++ (if mask = 0 then [(2*256+23,0)] else []) }, prism := { tick := 7 } }
def bf (lg : Nat) : State := { S [(pwrR, PWR_STATUS_MODE, 7),(dringR 3, GLB_RING_CFG_LOG2SIZE, lg),(dringR 3, GLB_RING_IDX_IDX, 70), (dringR 3, GLB_RING_CFG_OWNER, 2), (dringR 3, GLB_RING_BASE_LO_ADDR, 17)] with lens := { buf := [(3, 0x123456789), (4, 5)] }, host := { rings := [(dringR 3, {reserved := 2})] } }
def ar : State := { State.reset with host := { arb := { lane := ⟨2, [(2, 1000)]⟩, fn := ⟨5, [(5, 900)]⟩, cls := [(5, ⟨1, [(1, 800)]⟩)], ring := [(41, ⟨3, [(3, 400)]⟩)] } } }
def db (lg own : Nat) : State := { S [(pwrR, PWR_STATUS_MODE, 7),(fringR 2 1, GLB_RING_CFG_LOG2SIZE, lg),(fringR 2 1, GLB_RING_IDX_IDX, 70),(dringR 3, GLB_RING_CFG_LOG2SIZE, lg),(dringR 3, GLB_RING_IDX_IDX, 70), (dringR 3, GLB_RING_CFG_OWNER, own)] with host := { rings := [(fringR 2 1, {host := 75, bells := [(75,0)]}), (dringR 3, {host := 60})], nvf := 15 } }
def ft : State := { S [(pwrR, PWR_STATUS_MODE, 7),(fringR 0 1, GLB_RING_CFG_LOG2SIZE, 6),(fringR 0 1, GLB_RING_IDX_IDX, 70),(fringR 0 5, GLB_RING_CFG_LOG2SIZE, 6), (fringR 0 1, GLB_RING_CFG_LOG2SIZE, 6), (fringR 0 10, GLB_RING_CFG_LOG2SIZE, 6), (fringR 0 14, GLB_RING_CFG_LOG2SIZE, 6), (fringR 0 10, GLB_RING_CFG_LOG2SIZE, 6), (fringR 0 10, GLB_RING_IDX_IDX, 71)] with host := { rings := [(fringR 0 1, {host := 75, bells := [(75,0)]}),(fringR 0 10, {host := 75, bells := [(75,0)]})]}, ltc := { ns := 62500 } }
def dsc (opc ind fence len : Nat) : List Byte := leBytes 16 (opc + 256*ind + 512*fence + 2^16*7 + 2^48*len + 2^64*50) ++ leBytes 16 0
def u2 (l61 l59 ins : Nat) (j : Option Bool) (b : Bool) : State := { u 1 l61 l59 ins 37 5 with ltc := { sec := 77, ns := 99999, leapJump := j, leapSeen := b } }
def ar2 (up : List Backlog) : State := { ar with host := { ar.host with up := up } }

theorem witness_LeapSecondsMoveTheOffset_T1_0 :
    (∃ (s : State), s.ltc.leapSeen = true) ∧
    (∃ (s : State), 
      let d := s.getI ltcR LTC_UTCOFF_OFFSET
      let r := ((s.ltc.sec : Int) - d) % 86400
      let starts := s.ltc.leapSeen = false ∧ s.ltc.leapJump = none ∧ s.ltc.landed = false ∧ s.ltc.ns < 31250
      starts ∧ s.on ltcR LTC_UTCOFF_LEAP_INS = false ∧ s.on ltcR LTC_UTCOFF_LEAP61 = true ∧ s.on ltcR LTC_UTCOFF_LEAP59 = false ∧ r = 0) ∧
    (∃ (s : State), 
      let d := s.getI ltcR LTC_UTCOFF_OFFSET
      let starts := s.ltc.leapSeen = false ∧ s.ltc.leapJump = none ∧ s.ltc.landed = false ∧ s.ltc.ns < 31250
      starts ∧ s.on ltcR LTC_UTCOFF_LEAP_INS = true ∧ s.on ltcR LTC_UTCOFF_LEAP61 = true ∧ d < 32767) ∧
    (∃ (s : State), 
      let d := s.getI ltcR LTC_UTCOFF_OFFSET
      let r := ((s.ltc.sec : Int) - d) % 86400
      let starts := s.ltc.leapSeen = false ∧ s.ltc.leapJump = none ∧ s.ltc.landed = false ∧ s.ltc.ns < 31250
      starts ∧ s.on ltcR LTC_UTCOFF_LEAP_INS = true ∧ s.on ltcR LTC_UTCOFF_LEAP61 = false ∧ (s.on ltcR LTC_UTCOFF_LEAP59 = false ∨ r ≠ 86399)) ∧
    (∃ (s : State), 
      let d := s.getI ltcR LTC_UTCOFF_OFFSET
      let r := ((s.ltc.sec : Int) - d) % 86400
      let starts := s.ltc.leapSeen = false ∧ s.ltc.leapJump = none ∧ s.ltc.landed = false ∧ s.ltc.ns < 31250
      starts ∧ (s.on ltcR LTC_UTCOFF_LEAP_INS = false ∨ s.on ltcR LTC_UTCOFF_LEAP61 = false) ∧ s.on ltcR LTC_UTCOFF_LEAP59 = true ∧ r = 86399 ∧ -32768 < d) ∧
    (∃ (s : State), 
      let d := s.getI ltcR LTC_UTCOFF_OFFSET
      let passed := fun (x : Bool) => s.ltc.leapSeen = false ∧ s.ltc.leapJump = some x
      passed false ∧ s.on ltcR LTC_UTCOFF_LEAP61 = true ∧ d < 32767) :=
  ⟨⟨(u2 0 1 0 (some true) true), by decide +kernel⟩,
   ⟨(u 1 1 0 0 37 (86400*3+37)), by dsimp only; decide +kernel⟩,
   ⟨(u 1 1 0 1 65500 (86400*3+38)), by dsimp only; decide +kernel⟩,
   ⟨(u 1 0 0 1 37 (86400*3+38)), by dsimp only; decide +kernel⟩,
   ⟨(u 1 0 1 0 37 (86400*3+36)), by dsimp only; decide +kernel⟩,
   ⟨(u2 1 0 0 (some false) false), by dsimp only; decide +kernel⟩⟩

theorem witness_LeapSecondsMoveTheOffset_T1_1 :
    (∃ (s : State), 
      let d := s.getI ltcR LTC_UTCOFF_OFFSET
      let passed := fun (x : Bool) => s.ltc.leapSeen = false ∧ s.ltc.leapJump = some x
      passed true ∧ s.on ltcR LTC_UTCOFF_LEAP59 = true ∧ -32768 < d) ∧
    (∃ (s : State), 
      let d := s.getI ltcR LTC_UTCOFF_OFFSET
      let r := ((s.ltc.sec : Int) - d) % 86400
      let starts := s.ltc.leapSeen = false ∧ s.ltc.leapJump = none ∧ s.ltc.landed = false ∧ s.ltc.ns < 31250
      starts ∧ s.on ltcR LTC_UTCOFF_LEAP_INS = false ∧ (s.on ltcR LTC_UTCOFF_LEAP61 = false ∨ r ≠ 0) ∧ (s.on ltcR LTC_UTCOFF_LEAP59 = false ∨ r ≠ 86399)) :=
  ⟨⟨(u2 0 1 0 (some true) false), by dsimp only; decide +kernel⟩,
   ⟨(u 1 0 1 0 37 (86400*3+37)), by dsimp only; decide +kernel⟩⟩

theorem witness_VectorsAreSignalled :
    (∃ (s : State) (f v : Nat), 
      let gap := max 1 (s.get (fglbR f) GLB_IRQ_MOD_TICKS)
      let early := s.host.sigs.any (fun e => e.1 == f && e.2.1 == v && s.prism.tick < e.2.2 + gap) = true
      ((f, v) ∉ s.host.vecs ∨ early)) ∧
    (∃ (s : State) (f v : Nat), 
      let gap := max 1 (s.get (fglbR f) GLB_IRQ_MOD_TICKS)
      let early := s.host.sigs.any (fun e => e.1 == f && e.2.1 == v && s.prism.tick < e.2.2 + gap) = true
      (f, v) ∈ s.host.vecs ∧ (¬early) ∧ s.msixWord f (4 * v + 3) % 2 = 1) ∧
    (∃ (s : State) (f v : Nat), 
      let gap := max 1 (s.get (fglbR f) GLB_IRQ_MOD_TICKS)
      let early := s.host.sigs.any (fun e => e.1 == f && e.2.1 == v && s.prism.tick < e.2.2 + gap) = true
      (f, v) ∈ s.host.vecs ∧ (¬early) ∧ s.msixWord f (4 * v + 3) % 2 = 0) :=
  ⟨⟨({ v 1 with prism := { tick := 4 } }), 2, 5, by dsimp only; decide +kernel⟩,
   ⟨(v 1), 2, 5, by dsimp only; decide +kernel⟩,
   ⟨(v 0), 2, 5, by dsimp only; decide +kernel⟩⟩

theorem witness_BufferedRecordsReachTheirRing :
    (∃ (s : State) (lane : Bool) (f ring rec : Nat), s.drains = true ∧
      let arb := s.host.arb.choose (s.backlog [])
      let b := dringR ring
      arb.last = some (lane, f, 3, ring) ∧ ring < 16 ∧ s.host.up.any (State.charged lane f 3 ring) = false ∧ s.lens.buf.find? (fun e => e.1 == ring) = some (ring, rec) ∧ s.ringLive b = true) ∧
    (∃ (s : State) (lane : Bool) (f ring rec : Nat), s.drains = true ∧
      let arb := s.host.arb.choose (s.backlog [])
      let b := dringR ring
      arb.last = some (lane, f, 3, ring) ∧ ring < 16 ∧ s.host.up.any (State.charged lane f 3 ring) = false ∧ s.lens.buf.find? (fun e => e.1 == ring) = some (ring, rec) ∧ s.ringLive b = false) :=
  ⟨⟨(bf 6), ((((bf 6).host.arb.choose ((bf 6).backlog [])).last.getD default).1), ((((bf 6).host.arb.choose ((bf 6).backlog [])).last.getD default).2.1), 3, 0x123456789, by dsimp only; decide +kernel⟩,
   ⟨(bf 0), ((((bf 0).host.arb.choose ((bf 0).backlog [])).last.getD default).1), ((((bf 0).host.arb.choose ((bf 0).backlog [])).last.getD default).2.1), 3, 0x123456789, by dsimp only; decide +kernel⟩⟩

theorem witness_ArbiterServesTheTurn :
    (∃ (s : State) (reads : List Backlog) (f k r n : Nat), 
      let a := s.host.arb
      let l := s.backlog reads
      k = 3 ∧ f = 0 ∧ r < 16 ∧ a.lane.cur = r ∧ laneBytes 4096 a.sent * 100 < bitsOf a.ctl 8 7 * 4096 ∧ (l.find? (fun b => b.cls == 3 && b.ring == r)).map (·.len) = some n ∧ n ≤ assocD 0 a.lane.deficit r) ∧
    (∃ (s : State) (reads : List Backlog) (f k r n : Nat), 
      let a := s.host.arb
      let l := s.backlog reads
      f < 16 ∧ k < 6 ∧ r < classRings k ∧ l.all (fun b => b.cls != 3) = true ∧ ringHead l f k r = some n ∧ a.fn.cur = f ∧ (assocD {} a.cls f).cur = k ∧ (assocD {} a.ring (8 * f + k)).cur = r ∧ n ≤ assocD 0 a.fn.deficit f ∧ n ≤ assocD 0 (assocD {} a.cls f).deficit k ∧ n ≤ assocD 0 (assocD {} a.ring (8 * f + k)).deficit r) :=
  ⟨⟨ar, ([⟨0,3,2,256⟩, ⟨5,1,3,64⟩]), 0, 3, 2, 256, by dsimp only; decide +kernel⟩,
   ⟨ar, ([⟨5,1,3,64⟩]), 5, 1, 3, 64, by dsimp only; decide +kernel⟩⟩

theorem witness_DoorbellsAreAccepted :
    ∃ (s : State) (f slot v b : Nat) (fills : Bool), s.answers ⟨f, false, false⟩ = true ∧ slot < 512 ∧ v < 2 ^ 32 ∧ State.slotRing f slot = some (b, fills) ∧ s.ringOwner b = f ∧ s.ringOn b = true ∧ v ≠ (s.ringSt b).host ∧ (if fills then (v + 2 ^ 32 - s.ringIdx b) % 2 ^ 32 ≤ s.ringSize b else (v + 2 ^ 32 - (s.ringSt b).host) % 2 ^ 32 ≤ (s.ringIdx b + 2 ^ 32 - (s.ringSt b).host) % 2 ^ 32) :=
  ⟨(db 6 2), 2, 1, 80, (fringR 2 1), true, by decide +kernel⟩

theorem witness_DoorbellsAreRejected :
    ∃ (s : State) (f page slot half size c : Nat), s.answers ⟨f, false, false⟩ = true ∧ slot < 512 ∧ half < 8 ∧
      let own : Option Nat := match State.slotRing f slot with | some (b, _) => if page = f ∧ s.ringOwner b = f then some b else none | none => none
      let cause : Option Nat := if size < 4 then some 3 else if page ≠ f ∨ half ≠ 0 ∨ 8 < size ∨ own = none then some 2 else if own.any (fun b => !s.ringOn b) then some 0 else none
      (size < 4 ∨ size = 4 ∨ 8 ≤ size) ∧ cause = some c :=
  ⟨(db 6 2), 2, 2, 1, 0, 2, 3, by dsimp only; decide +kernel⟩

theorem witness_DescriptorsAreFetched_T1_0 :
    ∃ (s u : State) (f cls ring : Nat) (bs : List Byte) (ind : Option (List Byte)), 
      let b := State.classRing f cls ring
      let i := u.ringIdx b
      let kept := (s.ringSt b).far
      let d := (kept.map (fun x => if x.ind then { x with payload := ind } else x)).getD (State.descOf f cls ring i bs ind)
      s.fetchable f cls ring = true ∧ (if kept.isSome then u = s else s.fetchTurn f cls ring = some u) ∧ (¬(d.cls = 0 ∧ u.tn + 2 ^ 22 < d.apply)) ∧ ((u.consume b).reserve d).checkDesc d = none :=
  ⟨ft, ((ft.fetchTurn 0 0 1).getD ft), 0, 0, 1, (dsc 0 0 1 16), none, by dsimp only; decide +kernel⟩

end Sys2Proof.Tests.T1

namespace Sys2Proof.Tests.T2

set_option Elab.async false

def Wr (who : Who) (k : Nat) (v : Nat) (p : Nat := 0) (be := 15) : Access := ⟨who, k/1024*2^14 + p*4096 + k%1024*4, 4, be, v, 0⟩
def P0 : Who := ⟨0,false,false⟩
def P2 : Who := ⟨2,false,false⟩
def RV : Who := ⟨0,true,false⟩
def M (m : Nat) (l : List (Nat × Fld × Nat)) (s : State := State.reset) : State := S ((pwrR, PWR_STATUS_MODE, m) :: l) s
def pk (busy : Nat) (tx : List Nat) (fifo : List (List Nat)) : State := let s := M 7 [(plkR 1, PLK_TUN_TXCTL_BUSY, busy)]; s.setPlk 1 (fun x => { x with tunTx := tx, fifo := fifo })
def k12 := plkR 1 + 12
def sp (mode en cs : Nat) (tx rx : List Nat) (line : Bool) : State := { M mode [(rveR, RVE_SPI_CTL_EN, en), (rveR, RVE_SPI_CTL_CS, cs), (rveR, RVE_SPI_CTL_TXFREE, 256 - tx.length), (rveR, RVE_SPI_CTL_LOST, 65535)] with spi := ⟨tx, rx, line⟩ }
def f8 := rveR + 8
def gr (pwlim fails lo : Nat) (unl : List Nat) : State := { M 7 [(grnR, GRN_LOCKST_PWLIM, pwlim), (grnR, GRN_LOCKST_FAILS, fails), (grnR, GRN_UNLOCK_LO_PW, lo), (grnR, GRN_UNLOCK_HI_PW, 1)] with gran := { pw := [0,7,8,9,2^32+5,2^32+6,2^32+7,0], unl := (List.range 8).map (fun i => unl.contains i) } }
def g7 := grnR + 7
def gw (auto : Nat) (busy : Option Nat) (pw : Nat) : State := { M 7 [(grnR, GRN_CFG_AUTO, auto)] with pwr := {recovered := true}, gran := { busy := busy, pw := List.replicate 8 pw, sram := [(1022,5),(1024,6)], dirty := [7] } }
def img : List Byte := leBytes 4 4 ++ leBytes 4 (crc32 [1,2,3,4]) ++ leBytes 2 (State.reset.get glbR GLB_ID_STEP) ++ leBytes 6 0x77 ++ [1,2,3,4]
def im : State := { M 4 [] with pwr := { recovered := true }, gran := { sram := (img.zipIdx.map (fun x => (65536 + x.2, x.1))).filter (fun x => x.2 != 0) } }
def mi (mode en hold k : Nat) (e : Option Nat) (o : Option (Nat × Nat)) : State := { M mode [(mirR, MIR_CFG_EN, en), (mirR, MIR_KEY_HOLD, hold), (mirR, MIR_KEY_KEY_OVERRIDE, k)] with mir := { ovrEnd := e, ovr := o }, prism := { tick := 32100 } }

theorem witness_TunnelMessagesAreWrittenAndRead :
    (∃ (s : State) (a : Access) (p m d : Nat), p < s.nPlk ∧ Presents s a (plkR p + PLK_TUN_TX_DATA.idx) m d ∧ m ≠ 0 ∧ s.on (plkR p) PLK_TUN_TXCTL_BUSY = false ∧ (s.plkP p).tunTx.length < 60) ∧
    (∃ (s : State) (a : Access) (p m d : Nat), p < s.nPlk ∧ Presents s a (plkR p + PLK_TUN_TX_DATA.idx) m d ∧ m ≠ 0 ∧ (s.on (plkR p) PLK_TUN_TXCTL_BUSY = true ∨ 60 ≤ (s.plkP p).tunTx.length)) ∧
    (∃ (s : State) (a : Access) (p m d : Nat), p < s.nPlk ∧ Presents s a (plkR p + PLK_TUN_TXCTL_SEND.idx) m d ∧ bitsOf (m &&& d) 8 1 = 1 ∧ s.on (plkR p) PLK_TUN_TXCTL_BUSY = false ∧
      let n := merged (s.reg (plkR p + PLK_TUN_TXCTL_LEN.idx)).toNat m d % 256
      0 < n ∧ n ≤ 240 ∧ n ≤ 4 * (s.plkP p).tunTx.length) ∧
    (∃ (s : State) (a : Access) (p w : Nat) (ws : List Nat) (rest : List (List Nat)), p < s.nPlk ∧ Reads s a (plkR p + PLK_TUN_RX_POP_DATA.idx) ∧ (s.plkP p).fifo = (w :: ws) :: rest) ∧
    (∃ (s : State) (a : Access) (p : Nat), p < s.nPlk ∧ Reads s a (plkR p + PLK_TUN_RX_POP_DATA.idx) ∧ (s.plkP p).fifo = []) :=
  ⟨⟨(pk 0 [1,2] []), (Wr P0 k12 0x12345), 1, (2^32-1), 0x12345, by decide +kernel, presents_of (by decide +kernel), by decide +kernel, by decide +kernel, by decide +kernel⟩,
   ⟨(pk 1 [1,2] []), (Wr P0 k12 0x12345), 1, (2^32-1), 0x12345, by decide +kernel, presents_of (by decide +kernel), by decide +kernel, by decide +kernel⟩,
   ⟨(pk 0 [0x01020304,2] []), (Wr P0 (k12+1) 0x106), 1, (2^32-1), 0x106, by decide +kernel, presents_of (by decide +kernel), by decide +kernel, by decide +kernel, by decide +kernel, by decide +kernel, by decide +kernel⟩,
   ⟨(pk 0 [1,2] [[3,4],[5]]), (Wr P0 (k12+3) 0), 1, 3, ([4]), ([[5]]), by decide +kernel, reads_of (by decide +kernel), by decide +kernel⟩,
   ⟨(pk 0 [1,2] []), (Wr P0 (k12+3) 0), 1, by decide +kernel, reads_of (by decide +kernel), by decide +kernel⟩⟩

theorem witness_SpiBytesPass_T2_0 :
    (∃ (s : State) (a : Access) (m d v : Nat), 
      let k := rveR + RVE_SPI_CTL_EN.idx
      let writes := fun (f : Fld) (v : Nat) => Presents s a k m d ∧ m ≠ 0 ∧ bitsOf (m &&& d) 16 16 = 0 ∧ merged (s.reg k).toNat m d = putBits (s.reg k).toNat f.lo f.width v
      State.privileged a.who = true ∧ writes RVE_SPI_CTL_EN 1 ∧ s.on rveR RVE_SPI_CTL_EN = false ∧ (s.mode = 6 ∨ s.mode = 12)) ∧
    (∃ (s : State) (a : Access) (m d v : Nat), 
      let k := rveR + RVE_SPI_CTL_EN.idx
      let writes := fun (f : Fld) (v : Nat) => Presents s a k m d ∧ m ≠ 0 ∧ bitsOf (m &&& d) 16 16 = 0 ∧ merged (s.reg k).toNat m d = putBits (s.reg k).toNat f.lo f.width v
      State.privileged a.who = true ∧ writes RVE_SPI_CTL_EN 1 ∧ s.on rveR RVE_SPI_CTL_EN = false ∧ s.mode ≠ 6 ∧ s.mode ≠ 12) ∧
    (∃ (s : State) (a : Access) (m d v : Nat), 
      let k := rveR + RVE_SPI_CTL_EN.idx
      let writes := fun (f : Fld) (v : Nat) => Presents s a k m d ∧ m ≠ 0 ∧ bitsOf (m &&& d) 16 16 = 0 ∧ merged (s.reg k).toNat m d = putBits (s.reg k).toNat f.lo f.width v
      State.privileged a.who = true ∧ v < 2 ∧ writes RVE_SPI_CTL_CS v ∧ s.on rveR RVE_SPI_CTL_EN = true) ∧
    (∃ (s : State) (a : Access) (m d v : Nat), 
      let k := rveR + RVE_SPI_CTL_EN.idx
      let writes := fun (f : Fld) (v : Nat) => Presents s a k m d ∧ m ≠ 0 ∧ bitsOf (m &&& d) 16 16 = 0 ∧ merged (s.reg k).toNat m d = putBits (s.reg k).toNat f.lo f.width v
      State.privileged a.who = true ∧ v < 2 ∧ writes RVE_SPI_CTL_CS v ∧ s.on rveR RVE_SPI_CTL_EN = false ∧ s.on rveR RVE_SPI_CTL_CS = false ∧ v = 1) ∧
    (∃ (s : State) (a : Access) (m d : Nat), Presents s a (rveR + RVE_SPI_TX_DATA.idx) m d ∧ State.privileged a.who = true ∧ m % 256 ≠ 0 ∧ s.on rveR RVE_SPI_CTL_EN = true ∧ s.get rveR RVE_SPI_CTL_TXFREE ≠ 0) ∧
    (∃ (s : State) (a : Access) (m d : Nat), Presents s a (rveR + RVE_SPI_TX_DATA.idx) m d ∧ State.privileged a.who = true ∧ m % 256 ≠ 0 ∧ (s.on rveR RVE_SPI_CTL_EN = false ∨ s.get rveR RVE_SPI_CTL_TXFREE = 0)) :=
  ⟨⟨(sp 6 0 0 [] [] false), (Wr P0 f8 1 1), 1, (2^32-1), 3, by decide +kernel, ⟨presents_of (by decide +kernel), by decide +kernel, by decide +kernel, by decide +kernel⟩, by decide +kernel, by decide +kernel⟩,
   ⟨(sp 7 0 1 [5] [] true), (Wr P0 f8 1 1), 1, (2^32-1), 3, by decide +kernel, ⟨presents_of (by decide +kernel), by decide +kernel, by decide +kernel, by decide +kernel⟩, by decide +kernel, by decide +kernel, by decide +kernel⟩,
   ⟨(sp 6 1 0 [] [] false), (Wr P0 f8 2 1), 2, (2^32-1), 1, by decide +kernel, by decide +kernel, ⟨presents_of (by decide +kernel), by decide +kernel, by decide +kernel, by decide +kernel⟩, by decide +kernel⟩,
   ⟨(sp 6 0 0 [5] [] true), (Wr P0 f8 2 1), 2, (2^32-1), 1, by decide +kernel, by decide +kernel, ⟨presents_of (by decide +kernel), by decide +kernel, by decide +kernel, by decide +kernel⟩, by decide +kernel, by decide +kernel, by decide +kernel⟩,
   ⟨(sp 6 1 0 [5] [] true), (Wr RV (f8+1) 0x177), (2^32-1), 0x177, presents_of (by decide +kernel), by decide +kernel, by decide +kernel, by decide +kernel, by decide +kernel⟩,
   ⟨(sp 6 0 0 [5] [] true), (Wr RV (f8+1) 0x177), (2^32-1), 0x177, presents_of (by decide +kernel), by decide +kernel, by decide +kernel, by decide +kernel⟩⟩

theorem witness_SpiBytesPass_T2_1 :
    (∃ (s : State) (b : Nat) (rest : List Nat), s.spi.tx = b :: rest ∧ rest.length < 256 ∧ s.spi.rx.length < 256) ∧
    (∃ (s : State) (b : Nat) (rest : List Nat), s.spi.tx = b :: rest ∧ rest.length < 256 ∧ 256 ≤ s.spi.rx.length) ∧
    (∃ (s : State) (a : Access) (b : Nat) (rest : List Nat), Reads s a (rveR + RVE_SPI_RX_POP_DATA.idx) ∧ s.spi.rx = b :: rest ∧ State.privileged a.who = true) ∧
    (∃ (s : State) (a : Access), Reads s a (rveR + RVE_SPI_RX_POP_DATA.idx) ∧ (s.spi.rx = [] ∨ State.privileged a.who = false)) :=
  ⟨⟨(sp 6 1 0 [4,6] [9] true), 4, ([6]), by decide +kernel⟩,
   ⟨(sp 6 1 0 [4] (List.replicate 256 9) true), 4, ([]), by decide +kernel⟩,
   ⟨(sp 6 1 0 [6] [7,5] true), (Wr RV (f8+2) 0x177), 7, ([5]), reads_of (by decide +kernel), by decide +kernel, by decide +kernel⟩,
   ⟨({sp 6 1 0 [6] [7,5] true with host := {nvf := 3}}), (Wr P2 (f8+2) 0x177), reads_of (by decide +kernel), by decide +kernel⟩⟩

theorem witness_PasswordsGuardRegions :
    (∃ (s : State) (a : Access) (m d : Nat), 
      let k := grnR + GRN_UNLOCK_CTL_GO.idx
      let w := merged (s.reg k).toNat m d
      let act := w / 8 % 4
      Presents s a k m d ∧ State.privileged a.who = true ∧ w / 32 % 2 = 1 ∧ act = 0 ∧ s.on grnR GRN_LOCKST_PWLIM = true) ∧
    (∃ (s : State) (a : Access) (m d : Nat), 
      let k := grnR + GRN_UNLOCK_CTL_GO.idx
      let w := merged (s.reg k).toNat m d
      let region := w % 4
      let i := 2 * region + w / 4 % 2
      let act := w / 8 % 4
      let pw := s.get grnR GRN_UNLOCK_LO_PW + 2 ^ 32 * s.get grnR GRN_UNLOCK_HI_PW
      Presents s a k m d ∧ State.privileged a.who = true ∧ w / 32 % 2 = 1 ∧ act = 0 ∧ s.on grnR GRN_LOCKST_PWLIM = false ∧ s.gran.pw.getD i 0 = pw) ∧
    (∃ (s : State) (a : Access) (m d : Nat), 
      let k := grnR + GRN_UNLOCK_CTL_GO.idx
      let w := merged (s.reg k).toNat m d
      let region := w % 4
      let i := 2 * region + w / 4 % 2
      let act := w / 8 % 4
      let pw := s.get grnR GRN_UNLOCK_LO_PW + 2 ^ 32 * s.get grnR GRN_UNLOCK_HI_PW
      Presents s a k m d ∧ State.privileged a.who = true ∧ w / 32 % 2 = 1 ∧ act = 0 ∧ s.on grnR GRN_LOCKST_PWLIM = false ∧ s.gran.pw.getD i 0 ≠ pw) ∧
    (∃ (s : State) (a : Access) (m d : Nat), 
      let k := grnR + GRN_UNLOCK_CTL_GO.idx
      let w := merged (s.reg k).toNat m d
      let act := w / 8 % 4
      Presents s a k m d ∧ State.privileged a.who = true ∧ w / 32 % 2 = 1 ∧ act = 1) ∧
    (∃ (s : State) (a : Access) (m d : Nat), 
      let k := grnR + GRN_UNLOCK_CTL_GO.idx
      let w := merged (s.reg k).toNat m d
      let region := w % 4
      let act := w / 8 % 4
      Presents s a k m d ∧ State.privileged a.who = true ∧ w / 32 % 2 = 1 ∧ act = 2 ∧ s.granOpen region 1 = true) ∧
    (∃ (s : State) (a : Access) (m d : Nat), 
      let k := grnR + GRN_UNLOCK_CTL_GO.idx
      let w := merged (s.reg k).toNat m d
      let region := w % 4
      let act := w / 8 % 4
      Presents s a k m d ∧ State.privileged a.who = true ∧ w / 32 % 2 = 1 ∧ act = 2 ∧ s.granOpen region 1 = false ∧ s.on grnR GRN_UNLOCK_CTL_GO = false) :=
  ⟨⟨(gr 1 16 5 []), (Wr P0 g7 (32+2)), (2^32-1), 34, presents_of (by decide +kernel), by decide +kernel, by decide +kernel, by decide +kernel, by decide +kernel⟩,
   ⟨(gr 0 3 5 []), (Wr P0 g7 (32+2)), (2^32-1), 34, presents_of (by decide +kernel), by decide +kernel, by decide +kernel, by decide +kernel, by decide +kernel, by decide +kernel⟩,
   ⟨(gr 0 3 5 []), (Wr P0 g7 (32+2+4)), (2^32-1), 38, presents_of (by decide +kernel), by decide +kernel, by decide +kernel, by decide +kernel, by decide +kernel, by decide +kernel⟩,
   ⟨(gr 1 16 5 [4,5]), (Wr P0 g7 (32+2+8)), (2^32-1), 42, presents_of (by decide +kernel), by decide +kernel, by decide +kernel, by decide +kernel⟩,
   ⟨(gr 1 16 5 [4,5]), (Wr P0 g7 (32+2+4+16)), (2^32-1), 54, presents_of (by decide +kernel), by decide +kernel, by decide +kernel, by decide +kernel, by decide +kernel⟩,
   ⟨(gr 1 16 5 [4]), (Wr P0 g7 (32+2+4+16)), (2^32-1), 54, presents_of (by decide +kernel), by decide +kernel, by decide +kernel, by decide +kernel, by decide +kernel, by decide +kernel⟩⟩

theorem witness_WearCountersCount :
    (∃ (s : State) (a : Access) (m d : Nat), Presents s a (grnR + GRN_WC_INC_CTR.idx) m d ∧ m % 16 ≠ 0 ∧
      let c := (m &&& d) % 16
      (a.who.rve = true ∨ 4 ≤ c)) ∧
    (∃ (s : State) (a : Access) (m d : Nat), Presents s a (grnR + GRN_WC_INC_CTR.idx) m d ∧ m % 16 ≠ 0 ∧
      let c := (m &&& d) % 16
      a.who.rve = false ∧ c < 4) ∧
    (∃ (s : State) (a : Access) (m d : Nat), Presents s a (grnR + GRN_WC_SEL_CTR.idx) m d ∧ m % 16 ≠ 0) :=
  ⟨⟨(M 7 []), (Wr P0 (grnR+12) 5), (2^32-1), 5, presents_of (by decide +kernel), by decide +kernel, by decide +kernel⟩,
   ⟨(M 7 []), (Wr P0 (grnR+12) 3), (2^32-1), 3, presents_of (by decide +kernel), by decide +kernel, by decide +kernel, by decide +kernel⟩,
   ⟨({ M 7 [(grnR, GRN_WC_SEL_CTR, 1)] with host := {nvf := 3}, gran := { wear := List.replicate 4 ⟨2^40+99, 1, 3, true⟩} }), (Wr P2 (grnR+13) 2 1), 2, (2^32-1), presents_of (by decide +kernel), by decide +kernel⟩⟩

theorem witness_GranaryWritesLandInTheirPage :
    (∃ (s : State) (off : Nat) (bs : List Byte), off + bs.length ≤ 524288 ∧ bs ≠ [] ∧ off / 512 = (off + bs.length - 1) / 512 ∧ s.granAnswers = true ∧
      let p := off / 512
      s.granOpen (granRegion p) 1 = false) ∧
    (∃ (s : State) (off : Nat) (bs : List Byte), off + bs.length ≤ 524288 ∧ bs ≠ [] ∧ off / 512 = (off + bs.length - 1) / 512 ∧ s.granAnswers = true ∧
      let p := off / 512
      s.granOpen (granRegion p) 1 = true ∧ s.gran.busy ≠ some p) ∧
    (∃ (s : State) (off : Nat) (bs : List Byte), off + bs.length ≤ 524288 ∧ bs ≠ [] ∧ off / 512 = (off + bs.length - 1) / 512 ∧ s.granAnswers = true ∧
      let p := off / 512
      s.granOpen (granRegion p) 1 = true ∧ s.gran.busy = some p) ∧
    (∃ (s : State) (off : Nat) (bs : List Byte), off + bs.length ≤ 524288 ∧ bs ≠ [] ∧ off / 512 = (off + bs.length - 1) / 512 ∧ s.granAnswers = true ∧
      let p := off / 512
      s.granOpen (granRegion p) 1 = true ∧ s.on grnR GRN_CFG_AUTO = false) ∧
    (∃ (s : State) (off : Nat) (bs : List Byte), off + bs.length ≤ 524288 ∧ bs ≠ [] ∧ off / 512 = (off + bs.length - 1) / 512 ∧ s.granAnswers = true ∧
      let p := off / 512
      s.granOpen (granRegion p) 1 = true ∧ s.on grnR GRN_CFG_AUTO = true) :=
  ⟨⟨(gw 0 (some 1) 1), 1020, ([1,2,0,0]), by dsimp only; decide +kernel⟩,
   ⟨(gw 0 none 0), 1020, ([1,2,3,0]), by dsimp only; decide +kernel⟩,
   ⟨(gw 1 (some 1) 0), 1020, ([1,2,0,0]), by dsimp only; decide +kernel⟩,
   ⟨(gw 0 none 0), 1020, ([1,2,3,0]), by dsimp only; decide +kernel⟩,
   ⟨(gw 1 none 0), 1020, ([1,2,0,0]), by dsimp only; decide +kernel⟩⟩

theorem witness_GranaryReadsGiveTheSram :
    (∃ (s : State) (off n : Nat), off + n ≤ 524288 ∧ 0 < n ∧ off / 512 = (off + n - 1) / 512 ∧
      let p := off / 512
      s.granAnswers = true ∧ s.granOpen (granRegion p) 0 = true ∧ s.gran.busy ≠ some p) ∧
    (∃ (s : State) (off n : Nat), off + n ≤ 524288 ∧ 0 < n ∧ off / 512 = (off + n - 1) / 512 ∧
      let p := off / 512
      s.granAnswers = true ∧ s.granOpen (granRegion p) 0 = false) ∧
    (∃ (s : State) (off n : Nat), off + n ≤ 524288 ∧ 0 < n ∧ off / 512 = (off + n - 1) / 512 ∧
      let p := off / 512
      s.granAnswers = true ∧ s.granOpen (granRegion p) 0 = true ∧ s.gran.busy = some p) ∧
    (∃ (s : State) (off n : Nat), off + n ≤ 524288 ∧ 0 < n ∧ off / 512 = (off + n - 1) / 512 ∧ 3 ≤ s.mode ∧ s.pwr.recovered = false) :=
  ⟨⟨(gw 0 none 0), 1020, 3, by dsimp only; decide +kernel⟩,
   ⟨(gw 0 (some 1) 1), 1020, 3, by dsimp only; decide +kernel⟩,
   ⟨(gw 0 (some 1) 0), 1020, 3, by dsimp only; decide +kernel⟩,
   ⟨({gw 0 none 0 with pwr := {}}), 1020, 3, by decide +kernel⟩⟩

theorem witness_PowerStrobesAct :
    (∃ (s : State) (a : Access) (m d : Nat), State.privileged a.who = true ∧ Presents s a (pwrR + PWR_MODE_CTL_GO.idx) m d ∧ s.mode = 13 ∧ bitsOf (m &&& d) 4 1 = 1 ∧ merged (s.reg (pwrR + PWR_MODE_CTL_GO.idx)).toNat m d % 16 = 6 ∧
      let safe := s.on wchR WCH_STATUS_SAFEHOLD || s.on pwrR PWR_STATUS_SAFEBOOT
      safe = false) ∧
    (∃ (s : State) (a : Access) (m d : Nat), State.privileged a.who = true ∧ Presents s a (pwrR + PWR_MODE_CTL_GO.idx) m d ∧ s.mode = 13 ∧ bitsOf (m &&& d) 4 1 = 1 ∧ merged (s.reg (pwrR + PWR_MODE_CTL_GO.idx)).toNat m d % 16 = 6 ∧
      let safe := s.on wchR WCH_STATUS_SAFEHOLD || s.on pwrR PWR_STATUS_SAFEBOOT
      safe = true ∧ s.on pwrR PWR_MODE_CTL_GO = false) ∧
    (∃ (s : State) (a : Access) (m d : Nat), State.privileged a.who = true ∧ Presents s a (pwrR + PWR_RESET_GO.idx) m d ∧ bitsOf (m &&& d) 0 1 = 1) ∧
    (∃ (s : State) (a : Access) (m d e : Nat), State.privileged a.who = true ∧ Presents s a (pwrR + PWR_BOOT_HOSTGO.idx) m d ∧ bitsOf (m &&& d) 7 1 = 1 ∧ s.mode = 4 ∧ s.pwr.recovered = true ∧
      let check := State.imageCheck (s.get glbR GLB_ID_STEP) s.granImage
      check = Sum.inl e ∧ e < 8) ∧
    (∃ (s : State) (a : Access) (m d ver crc : Nat), State.privileged a.who = true ∧ Presents s a (pwrR + PWR_BOOT_HOSTGO.idx) m d ∧ bitsOf (m &&& d) 7 1 = 1 ∧ s.mode = 4 ∧ s.pwr.recovered = true ∧
      let check := State.imageCheck (s.get glbR GLB_ID_STEP) s.granImage
      check = Sum.inr (ver, crc)) ∧
    (∃ (s : State) (a : Access) (m d : Nat), State.privileged a.who = true ∧ Presents s a (pwrR + PWR_BOOT_HOSTGO.idx) m d ∧ bitsOf (m &&& d) 7 1 = 1 ∧ s.mode ≠ 4 ∧ s.on pwrR PWR_BOOT_HOSTGO = false) :=
  ⟨⟨(M 13 []), (Wr P0 (pwrR+1) 0x16), (2^32-1), 0x16, by decide +kernel, presents_of (by decide +kernel), by decide +kernel, by decide +kernel, by decide +kernel, by decide +kernel⟩,
   ⟨(M 13 [(wchR, WCH_STATUS_SAFEHOLD, 1)]), (Wr P0 (pwrR+1) 0x16), (2^32-1), 0x16, by decide +kernel, presents_of (by decide +kernel), by decide +kernel, by decide +kernel, by decide +kernel, by decide +kernel, by decide +kernel⟩,
   ⟨({ M 9 [(pwrR, PWR_CNT_RESETS, 5),(wchR, WCH_STATUS_SAFEHOLD, 1)] with ltc := {sec := 7, ns := 8, frac := 9}, plk := { ports := [] }, gran := { sram := [(4,5)] } }), (Wr P0 (pwrR+10) 1), (2^32-1), 1, by decide +kernel, presents_of (by decide +kernel), by decide +kernel⟩,
   ⟨({ M 4 [] with pwr := { recovered := true }}), (Wr P0 (pwrR+3) 128), (2^32-1), 128, 1, by decide +kernel, presents_of (by decide +kernel), by decide +kernel, by decide +kernel, by decide +kernel, by decide +kernel, by decide +kernel⟩,
   ⟨im, (Wr P0 (pwrR+3) 128), (2^32-1), 128, 0x77, (crc32 [1,2,3,4]), by decide +kernel, presents_of (by decide +kernel), by decide +kernel, by decide +kernel, by decide +kernel, by decide +kernel⟩,
   ⟨({im with regs := (M 5 []).regs}), (Wr P0 (pwrR+3) 128), (2^32-1), 128, by decide +kernel, presents_of (by decide +kernel), by decide +kernel, by decide +kernel, by decide +kernel⟩⟩

theorem witness_KeyOverridesAreBounded :
    (∃ (s : State) (a : Access), State.privileged a.who = true ∧ s.hasMir = true ∧
      let ok := s.on mirR MIR_CFG_EN = true ∧ s.on mirR MIR_KEY_HOLD = false ∧ (s.mode = 6 ∨ s.mode = 12 ∨ s.mode = 13) ∧ s.mir.ovr = none ∧ (∀ e, s.mir.ovrEnd = some e → e + 32000 ≤ s.prism.tick)
      s.on mirR MIR_KEY_KEY_OVERRIDE = false ∧ writesField s a mirR MIR_KEY_KEY_OVERRIDE 1 ∧ ok) ∧
    (∃ (s : State) (a : Access), State.privileged a.who = true ∧ s.hasMir = true ∧
      let ok := s.on mirR MIR_CFG_EN = true ∧ s.on mirR MIR_KEY_HOLD = false ∧ (s.mode = 6 ∨ s.mode = 12 ∨ s.mode = 13) ∧ s.mir.ovr = none ∧ (∀ e, s.mir.ovrEnd = some e → e + 32000 ≤ s.prism.tick)
      s.on mirR MIR_KEY_KEY_OVERRIDE = false ∧ writesField s a mirR MIR_KEY_KEY_OVERRIDE 1 ∧ (¬ok)) ∧
    (∃ (s : State) (a : Access), State.privileged a.who = true ∧ s.hasMir = true ∧ s.on mirR MIR_KEY_KEY_OVERRIDE = true ∧ writesField s a mirR MIR_KEY_KEY_OVERRIDE 0) :=
  ⟨⟨(mi 6 1 0 0 none none), (Wr P0 (mirR+1) 1 1), by decide +kernel, by decide +kernel, by decide +kernel, writes_of (by decide +kernel), by decide +kernel⟩,
   ⟨(mi 13 1 0 0 (some 101) none), (Wr P0 (mirR+1) 1 1), by decide +kernel, by decide +kernel, by decide +kernel, writes_of (by decide +kernel), by decide +kernel⟩,
   ⟨(mi 12 1 0 1 (some 100) (some (32101,32103))), (Wr P0 (mirR+1) 1 2), by decide +kernel, by decide +kernel, by decide +kernel, writes_of (by decide +kernel)⟩⟩

end Sys2Proof.Tests.T2

namespace Sys2Proof.Tests.T3

set_option Elab.async false

def M (m : Nat) (l : List (Nat × Fld × Nat)) (s : State := State.reset) : State := S ((pwrR, PWR_STATUS_MODE, m) :: l) s
/-- payload from (offset, length, value) -/
def P (n : Nat) (l : List (Nat × Nat × Nat)) : List Byte := leBytes n (l.foldl (fun a x => a + x.2.2 % 2^(8*x.2.1) * 2^(8*x.1)) 0)
def D (tgt : Nat) (l : List (Nat × Nat × Nat)) (n : Nat := 16) (apply := 0) : Desc :=
  { func := 0, cls := 0, ring := 1, idx := 5, opc := 0, ind := n != 16, fence := false, tag := 77, target := tgt, len := n, apply := apply, addr := 0, payload := some (P n l) }
def C (m : Nat) (l : List (Nat × Fld × Nat)) (s : State := State.reset) : State :=
  M m ([(fringR 0 5, GLB_RING_CFG_LOG2SIZE, 6), (fringR 0 1, GLB_RING_CFG_LOG2SIZE, 6), (fringR 0 10, GLB_RING_CFG_LOG2SIZE, 6), (fringR 0 14, GLB_RING_CFG_LOG2SIZE, 6), (fringR 0 5, GLB_RING_IDX_IDX, 71), (fringR 0 5, GLB_RING_BASE_LO_ADDR, 3)] ++ l) { s with ltc := { sec := 3, ns := 31250*7, frac := 99 }, host := { rings := [(fringR 0 5, {host := 65, reserved := 1})] }, prism := { s.prism with tick := 40000 } }
def rf (f : Option Nat) : State := let s := C 7 [(priR 5, PRS_MON_EN, 1)]; s.setRef 5 (fun r => { r with forced := f, v := f.getD 1 })
def es : State := C 8 [(ensR 2, GLB_ENS_CFG_EN, 1), (emsR 2 0, GLB_EM_CFG_IDX, 3), (emsR 2 0, GLB_EM_CFG_EN, 1), (emsR 2 0, GLB_EM_STAT_STATE, 2), (emsR 2 1, GLB_EM_CFG_IDX, 4), (emsR 2 1, GLB_EM_CFG_EN, 1), (emsR 2 1, GLB_EM_STAT_STATE, 4), (emsR 2 2, GLB_EM_CFG_IDX, 6), (emsR 2 2, GLB_EM_STAT_STATE, 5)]
def ch (on : Bool) (force st : Nat) (l : List (Nat × Fld × Nat) := []) : State := let s := C 8 ([(milR 3, MIL_STATUS_FORCE, force), (milR 3, MIL_STATUS_STATE, st), (milR 3, MIL_STATUS_LSEEN, 1)] ++ l); let s := s.setChan 3 (fun x => { x with on := on, ref := some 4 }); { s with milBak := s.mil }

theorem witness_DescriptorsAreChecked :
    (∃ (c : Instr) (s : State) (d : Desc), commandRow c = some d ∧ s.takesFrom d = false) ∧
    (∃ (c : Instr) (s : State) (d : Desc) (st : Status), commandRow c = some d ∧
      let m := s.taken d
      s.takesFrom d = true ∧ m.checkDesc d = some st) ∧
    (∃ (c : Instr) (s : State) (d : Desc), commandRow c = some d ∧
      let m := s.taken d
      s.takesFrom d = true ∧ m.checkDesc d = none ∧ d.cls = 0 ∧ s.tn < d.apply) :=
  ⟨⟨(.nop (D 0 [])), (C 13 []), (rowDesc (D 0 []) 0 0), by decide +kernel⟩,
   ⟨(.nop {D 0 [] with len := 17}), (C 6 []), (rowDesc {D 0 [] with len := 17} 0 0), .inval, by dsimp only; decide +kernel⟩,
   ⟨(.nop (D 0 [] 16 96010)), (C 6 []), (rowDesc (D 0 [] 16 96010) 0 0), by dsimp only; decide +kernel⟩⟩

theorem witness_CompletionsAreWritten :
    ∃ (s : State) (d : Desc), Applies s (.nop d) ∧
      let k := d.ring % 4
      let b := fringR d.func (4 + k)
      s.ringsHalted = false ∧ s.on b GLB_RING_CFG_IRQ_EN = false :=
  ⟨(C 7 []), (D 0 []), applies_of (by decide +kernel), by decide +kernel, by decide +kernel⟩

theorem witness_ControlCommandsApply_T3_0 :
    (∃ (s : State) (d : Desc), 
      let pl := d.payload.getD []
      Applies s (.regWrite d) ∧ leAt pl 0 4 = 4 ∧ leAt pl 8 4 ≠ 0) ∧
    (∃ (s : State) (d : Desc), 
      let pl := d.payload.getD []
      Applies s (.regWrite d) ∧ decodeOff d.func (leAt pl 0 4 / 4 * 4) = .unmapped) ∧
    (∃ (s : State) (d : Desc), 
      let pl := d.payload.getD []
      Applies s (.ltcStep d) ∧
      let amt := leAt pl 0 6 * 1000000000 + leAt pl 8 4
      let quiet := s.ltc.due = [] ∧ s.host.staged.all (fun x => Decidable.decide ((s.ltc.sec * 1000000000 + s.ltc.ns + amt) / 31250 < max x.d.apply x.ready)) = true
      s.ltc.landed = false ∧ amt ≠ 0 ∧ s.ltc.sec + leAt pl 0 6 + (s.ltc.ns + leAt pl 8 4) / 1000000000 < 2 ^ 48 ∧ quiet) ∧
    (∃ (s : State) (d : Desc), 
      let pl := d.payload.getD []
      Applies s (.ltcStep d) ∧ s.ltc.landed = false ∧ 2 ^ 48 ≤ s.ltc.sec + leAt pl 0 6 + (s.ltc.ns + leAt pl 8 4) / 1000000000) ∧
    (∃ (s : State) (d : Desc), Applies s (.modeSet d) ∧ s.paired = false ∧
      let busy := s.on pwrR PWR_STATUS_CHG || s.on pwrR PWR_STATUS_PF
      busy = true) ∧
    (∃ (s : State) (d : Desc), 
      let pl := d.payload.getD []
      Applies s (.modeSet d) ∧ s.paired = false ∧
      let new := leAt pl 0 1
      let busy := s.on pwrR PWR_STATUS_CHG || s.on pwrR PWR_STATUS_PF
      busy = false ∧ new = s.mode) :=
  ⟨⟨(C 7 [(glbR, GLB_SCRATCH_DATA, 0x1234)]), (D 0 [(0,4,4),(4,4,0xff00),(8,4,0xfff0)]), applies_of (by decide +kernel), by decide +kernel, by decide +kernel⟩,
   ⟨(C 7 [(glbR, GLB_SCRATCH_DATA, 0x1234)]), (D 0 [(0,4,6*16384),(4,4,0xff00),(8,4,0xfff0)]), applies_of (by decide +kernel), by decide +kernel⟩,
   ⟨(C 7 [(glbR, GLB_SCRATCH_DATA, 0x1234)]), (D 0 [(0,4,4),(4,4,0xff00),(8,4,0xfff0)]), applies_of (by decide +kernel), by decide +kernel, by decide +kernel, by decide +kernel, by decide +kernel⟩,
   ⟨(C 6 []), (D 0 [(0,6,2^48-2),(8,4,999999999)]), applies_of (by decide +kernel), by decide +kernel, by decide +kernel⟩,
   ⟨(C 8 [(pwrR, PWR_STATUS_CHG, 1)]), (D 0 [(0,1,6)]), applies_of (by decide +kernel), by decide +kernel, by decide +kernel⟩,
   ⟨(C 8 []), (D 0 [(0,1,8)]), applies_of (by decide +kernel), by decide +kernel, by decide +kernel, by decide +kernel⟩⟩

theorem witness_ControlCommandsApply_T3_1 :
    (∃ (s : State) (d : Desc), 
      let pl := d.payload.getD []
      Applies s (.modeSet d) ∧ s.paired = false ∧
      let new := leAt pl 0 1
      let busy := s.on pwrR PWR_STATUS_CHG || s.on pwrR PWR_STATUS_PF
      busy = false ∧ new = 11 ∧ s.mode ≠ 11) ∧
    (∃ (s : State) (d : Desc), 
      let pl := d.payload.getD []
      Applies s (.modeSet d) ∧ s.paired = false ∧
      let new := leAt pl 0 1
      let busy := s.on pwrR PWR_STATUS_CHG || s.on pwrR PWR_STATUS_PF
      busy = false ∧ new ≠ 6 ∧ new ≠ 11 ∧ new ≠ s.mode) ∧
    (∃ (s : State) (d : Desc), 
      let pl := d.payload.getD []
      Applies s (.modeSet d) ∧ s.paired = false ∧
      let new := leAt pl 0 1
      let busy := s.on pwrR PWR_STATUS_CHG || s.on pwrR PWR_STATUS_PF
      busy = false ∧ new = 6 ∧ s.mode ≠ 6) :=
  ⟨⟨(C 8 []), (D 0 [(0,1,11)]), applies_of (by decide +kernel), by decide +kernel, by decide +kernel, by decide +kernel, by decide +kernel⟩,
   ⟨(C 6 []), (D 0 [(0,1,7)]), applies_of (by decide +kernel), by decide +kernel, by decide +kernel, by decide +kernel, by decide +kernel, by decide +kernel⟩,
   ⟨(C 8 []), (D 0 [(0,1,6)]), applies_of (by decide +kernel), by decide +kernel, by decide +kernel, by decide +kernel, by decide +kernel⟩⟩

theorem witness_ReferenceCommandsApply :
    (∃ (s : State) (d : Desc), Applies s (.refForce d)) ∧
    (∃ (s : State) (d : Desc), Applies s (.prioTable d)) ∧
    (∃ (s : State) (d : Desc), Applies s (.refOverride d)) ∧
    (∃ (s : State) (d : Desc), Applies s (.ensembleSet d)) ∧
    (∃ (s : State) (d : Desc), Applies s (.tamperClear d)) :=
  ⟨⟨(C 7 []), (D 5 [(0,1,7),(1,1,1)]), applies_of (by decide +kernel)⟩,
   ⟨(C 8 []), (D 5 [(0,4,0x05040302),(12,4,0x11),(16,4,1)] 20), applies_of (by decide +kernel)⟩,
   ⟨(rf none), (D 5 [(0,1,1)]), applies_of (by decide +kernel)⟩,
   ⟨es, (D 2 [(0,4,3295265),(4,4,325),(8,4,235931651),(12,4,3932260),(16,4,105113616),(20,4,320),(24,4,324),(28,4,322),(32,4,259),(36,4,260),(40,4,261),(44,4,262),(48,4,263)] 52), applies_of (by decide +kernel)⟩,
   ⟨(C 8 [(prcR 5, PRS_SEL_CFG_FORCE_EN, 1), (prcR 5, PRS_SEL_CFG_FORCE_IDX, 9)]), (D 5 [(0,1,7),(1,1,0)]), applies_of (by decide +kernel)⟩⟩

theorem witness_ChannelCommandsApply_T3_0 :
    (∃ (s : State) (d : Desc), Applies s (.chanState d)) ∧
    (∃ (s : State) (d : Desc), Applies s (.chanLoop d)) ∧
    (∃ (s : State) (d : Desc), 
      let pl := d.payload.getD []
      let act := leAt pl 0 1
      Applies s (.hearthCtl d) ∧ act = 0) ∧
    (∃ (s : State) (d : Desc), 
      let pl := d.payload.getD []
      let act := leAt pl 0 1
      Applies s (.hearthCtl d) ∧ act = 1) ∧
    (∃ (s : State) (d : Desc), 
      let pl := d.payload.getD []
      let act := leAt pl 0 1
      Applies s (.hearthCtl d) ∧ act = 2) ∧
    (∃ (s : State) (d : Desc), 
      let pl := d.payload.getD []
      let act := leAt pl 0 1
      Applies s (.hearthCtl d) ∧ act = 3) :=
  ⟨⟨(ch false 0 2), (D 3 [(0,1,1)]), applies_of (by decide +kernel)⟩,
   ⟨(ch false 0 2), (D 3 [(0,1,1)]), applies_of (by decide +kernel)⟩,
   ⟨(ch true 1 0), (D 0 [(0,1,0)]), applies_of (by decide +kernel), by decide +kernel⟩,
   ⟨(ch true 1 0), (D 0 [(0,1,1)]), applies_of (by decide +kernel), by decide +kernel⟩,
   ⟨(ch true 1 0), (D 0 [(0,1,2)]), applies_of (by decide +kernel), by decide +kernel⟩,
   ⟨(ch true 1 0), (D 0 [(0,1,3)]), applies_of (by decide +kernel), by decide +kernel⟩⟩

theorem witness_ChannelCommandsApply_T3_1 :
    (∃ (s : State) (d : Desc), 
      let pl := d.payload.getD []
      let act := leAt pl 0 1
      Applies s (.hearthCtl d) ∧ act = 4 ∧ (s.hrtLoc = none ∨ 16 ≤ s.gran.reqs.length)) ∧
    (∃ (s : State) (d : Desc) (f : Nat), 
      let pl := d.payload.getD []
      let act := leAt pl 0 1
      Applies s (.hearthCtl d) ∧ act = 4 ∧ s.hrtLoc = some f ∧ s.gran.reqs.length < 16) :=
  ⟨⟨(ch true 1 0), (D 0 [(0,1,4)]), applies_of (by decide +kernel), by decide +kernel, by decide +kernel⟩,
   ⟨(ch true 1 0 [(glb1R, GLB_HRT_LOC_FIRST, 400)]), (D 0 [(0,1,4)]), 400, applies_of (by decide +kernel), by decide +kernel, by decide +kernel, by decide +kernel⟩⟩

end Sys2Proof.Tests.T3

namespace Sys2Proof.Tests.T4

set_option Elab.async false

def M (m : Nat) (l : List (Nat × Fld × Nat)) (s : State := State.reset) : State := S ((pwrR, PWR_STATUS_MODE, m) :: l) s
def P (n : Nat) (l : List (Nat × Nat × Nat)) : List Byte := leBytes n (l.foldl (fun a x => a + x.2.2 % 2^(8*x.2.1) * 2^(8*x.1)) 0)
def D (tgt : Nat) (l : List (Nat × Nat × Nat)) (n : Nat := 16) (apply := 0) : Desc :=
  { func := 0, cls := 0, ring := 1, idx := 5, opc := 0, ind := n != 16, fence := false, tag := 77, target := tgt, len := n, apply := apply, addr := 0, payload := some (P n l) }
def C (m : Nat) (l : List (Nat × Fld × Nat)) (s : State := State.reset) : State :=
  M m ([(fringR 0 5, GLB_RING_CFG_LOG2SIZE, 6), (fringR 0 1, GLB_RING_CFG_LOG2SIZE, 6), (fringR 0 10, GLB_RING_CFG_LOG2SIZE, 6), (fringR 0 14, GLB_RING_CFG_LOG2SIZE, 6), (fringR 0 5, GLB_RING_IDX_IDX, 71), (fringR 0 5, GLB_RING_BASE_LO_ADDR, 3)] ++ l) { s with ltc := { sec := 3, ns := 31250*7, frac := 99 }, host := { rings := [(fringR 0 5, {host := 65, reserved := 1})] }, prism := { s.prism with tick := 40000 } }
def fcA := 31250000*2^22
def lm (on : Bool) (st : Nat) : State := let s := C 8 [(lomR 2, LOM_STATUS_STATE, st), (lomR 2, LOM_CFG_EN, on.toNat)]; s.setLoom 2 (fun l => { l with on := on })
def bu (st : Nat) : State := C 8 [(bstR 1, LNS_BST_STATUS_STATE, st)]

theorem witness_OutputCommandsApply_T4_0 :
    (∃ (s : State) (d : Desc), 
      let pl := d.payload.getD []
      Applies s (.loomTune d) ∧ leAt pl 11 1 = 0 ∧ leAt pl 10 1 = 0) ∧
    (∃ (s : State) (d : Desc), 
      let pl := d.payload.getD []
      let n := d.target
      let x := s.taken (rowDesc d 0 0)
      Applies s (.loomTune d) ∧
      let sel := fun i => leAt pl 11 1 / 2 ^ i % 2 = 1
      let fc := if sel 0 then leAt pl 0 6 else x.fcReg n
      let nn := if sel 1 then leAt pl 6 1 else x.get (lomR n) LOM_N_N
      (¬(leAt pl 11 1 = 0 ∧ leAt pl 10 1 = 0)) ∧ State.targetOk (nn * fc) = true) ∧
    (∃ (s : State) (d : Desc), 
      let n := d.target
      Applies s (.loomRelock d) ∧
      let en := s.on (lomR n) LOM_CFG_EN
      en = false) ∧
    (∃ (s : State) (d : Desc), 
      let n := d.target
      Applies s (.loomRelock d) ∧
      let en := s.on (lomR n) LOM_CFG_EN
      let runs := (s.loomSt n).on = true ∧ s.loomState n = 1
      en = true ∧ runs) ∧
    (∃ (s : State) (d : Desc), 
      let pl := d.payload.getD []
      Applies s (.outCtl d) ∧ leAt pl 12 1 = 0) ∧
    (∃ (s : State) (d : Desc), 
      let pl := d.payload.getD []
      let n := d.target
      let x := s.taken (rowDesc d 0 0)
      Applies s (.outCtl d) ∧
      let sel := fun i => leAt pl 12 1 / 2 ^ i % 2 = 1
      let fl := leAt pl 10 1
      let div := if sel 0 then leAt pl 0 4 else x.get (outR n) OUT_DIV_DIV
      let half : Bool := if sel 0 then fl / 2 % 2 = 1 else x.on (outR n) OUT_CFG_HALF
      let src := if sel 3 then leAt pl 8 1 else x.get (outR n) OUT_CFG_SRC
      let fmt := if sel 4 then leAt pl 9 1 else x.get (outR n) OUT_CFG_FMT
      let en : Bool := if sel 5 then fl % 2 = 1 else x.on (outR n) OUT_CFG_EN
      let bad := (sel 4 ∧ fmt = 2 ∧ x.get (bankR (n / 8)) OUT_BANK_STATUS_VDDO = 1) ∨ (en = true ∧ src ≤ 8 ∧ x.withinLimit (n / 8) src fmt div half = false)
      leAt pl 12 1 ≠ 0 ∧ (¬bad)) :=
  ⟨⟨(lm false 0), (D 2 []), applies_of (by decide +kernel), by decide +kernel, by decide +kernel⟩,
   ⟨(lm true 2), (D 2 [(0,6, (State.reset.loomSt 2).fc + 5),(11,1,1)]), applies_of (by decide +kernel), by decide +kernel, by decide +kernel⟩,
   ⟨(lm false 0), (D 2 []), applies_of (by decide +kernel), by decide +kernel⟩,
   ⟨(lm true 1), (D 2 []), applies_of (by decide +kernel), by decide +kernel, by decide +kernel⟩,
   ⟨(lm false 0), (D 2 []), applies_of (by decide +kernel), by decide +kernel⟩,
   ⟨(lm true 3), (D 2 [(0,4,9000),(9,1,0),(10,1,1+4+8+48),(8,1,2),(12,1,255),(4,2,100),(6,2,50)]), applies_of (by decide +kernel), by decide +kernel, by decide +kernel⟩⟩

theorem witness_OutputCommandsApply_T4_1 :
    (∃ (s : State) (d : Desc), Applies s (.syncGroup d)) ∧
    (∃ (s : State) (d : Desc), Applies s (.tcdCtl d)) :=
  ⟨⟨(lm true 3), (D 0 [(0,1,5),(1,1,0)]), applies_of (by decide +kernel)⟩,
   ⟨(lm true 3), (D 0 [(0,1,5),(1,1,0)]), applies_of (by decide +kernel)⟩⟩

theorem witness_MeasureCommandsApply_T4_0 :
    (∃ (s : State) (d : Desc), 
      let pl := d.payload.getD []
      let n := d.target
      let act := leAt pl 0 1
      Applies s (.lensArm d) ∧ act = 0 ∧ s.unitState n = 0) ∧
    (∃ (s : State) (d : Desc), 
      let pl := d.payload.getD []
      let n := d.target
      let act := leAt pl 0 1
      Applies s (.lensArm d) ∧ act = 0 ∧ s.unitState n ≠ 0) ∧
    (∃ (s : State) (d : Desc), 
      let pl := d.payload.getD []
      let n := d.target
      let act := leAt pl 0 1
      Applies s (.lensArm d) ∧ act = 1 ∧ s.unitState n ≠ 0) ∧
    (∃ (s : State) (d : Desc), 
      let pl := d.payload.getD []
      let n := d.target
      let act := leAt pl 0 1
      Applies s (.lensArm d) ∧ act = 2 ∧ 2 ≤ s.unitState n) ∧
    (∃ (s : State) (d : Desc), 
      let pl := d.payload.getD []
      let n := d.target
      let act := leAt pl 0 1
      Applies s (.lensArm d) ∧ act = 2 ∧ s.unitState n < 2 ∧ s.lensRuns = true ∧ (s.unit n).hist.length < 64) ∧
    (∃ (s : State) (d : Desc), 
      let n := d.target
      Applies s (.capRingCtl d) ∧ s.ringOwner (dringR n) ≠ d.func) :=
  ⟨⟨(bu 0), (D 1 [(0,1,0)]), applies_of (by decide +kernel), by decide +kernel, by decide +kernel⟩,
   ⟨(bu 1), (D 1 [(0,1,0)]), applies_of (by decide +kernel), by decide +kernel, by decide +kernel⟩,
   ⟨(bu 3), (D 1 [(0,1,1)]), applies_of (by decide +kernel), by decide +kernel, by decide +kernel⟩,
   ⟨(bu 3), (D 1 [(0,1,2)]), applies_of (by decide +kernel), by decide +kernel, by decide +kernel⟩,
   ⟨(bu 0), (D 1 [(0,1,2)]), applies_of (by decide +kernel), by decide +kernel, by decide +kernel, by decide +kernel, by decide +kernel⟩,
   ⟨(C 8 [(dringR 3, GLB_RING_CFG_OWNER, 2)]), (D 3 [(1,2,0xabcd)]), applies_of (by decide +kernel), by decide +kernel⟩⟩

theorem witness_MeasureCommandsApply_T4_1 :
    (∃ (s : State) (d : Desc), 
      let n := d.target
      Applies s (.capRingCtl d) ∧ s.ringOwner (dringR n) = d.func ∧ s.ringOn (dringR n) = false) ∧
    (∃ (s : State) (d : Desc), 
      let n := d.target
      Applies s (.capRingCtl d) ∧ s.ringOwner (dringR n) = d.func ∧ s.ringOn (dringR n) = true) ∧
    (∃ (s : State) (d : Desc), Applies s (.tmCtl d)) :=
  ⟨⟨(bu 0), (D 1 [(0,1,0)]), applies_of (by decide +kernel), by decide +kernel, by decide +kernel⟩,
   ⟨(C 8 [(dringR 3, GLB_RING_CFG_OWNER, 0),(dringR 3, GLB_RING_CFG_LOG2SIZE, 6)]), (D 3 [(1,2,0xabcd)]), applies_of (by decide +kernel), by decide +kernel, by decide +kernel⟩,
   ⟨(C 8 []), (D 3 [(0,4,1),(4,4,1000),(8,4,1000),(12,2,32),(14,1,3)]), applies_of (by decide +kernel)⟩⟩

end Sys2Proof.Tests.T4

namespace Sys2Proof.Tests.T5

set_option Elab.async false

def M (m : Nat) (l : List (Nat × Fld × Nat)) (s : State := State.reset) : State := S ((pwrR, PWR_STATUS_MODE, m) :: l) s
def P (n : Nat) (l : List (Nat × Nat × Nat)) : List Byte := leBytes n (l.foldl (fun a x => a + x.2.2 % 2^(8*x.2.1) * 2^(8*x.1)) 0)
def D (tgt : Nat) (l : List (Nat × Nat × Nat)) (n : Nat := 16) (apply := 0) : Desc :=
  { func := 0, cls := 0, ring := 1, idx := 5, opc := 0, ind := n != 16, fence := false, tag := 77, target := tgt, len := n, apply := apply, addr := 0, payload := some (P n l) }
def C (m : Nat) (l : List (Nat × Fld × Nat)) (s : State := State.reset) : State :=
  M m ([(fringR 0 5, GLB_RING_CFG_LOG2SIZE, 6), (fringR 0 1, GLB_RING_CFG_LOG2SIZE, 6), (fringR 0 10, GLB_RING_CFG_LOG2SIZE, 6), (fringR 0 14, GLB_RING_CFG_LOG2SIZE, 6), (fringR 0 5, GLB_RING_IDX_IDX, 71), (fringR 0 5, GLB_RING_BASE_LO_ADDR, 3)] ++ l) { s with ltc := { sec := 3, ns := 31250*7, frac := 99 }, host := { rings := [(fringR 0 5, {host := 65, reserved := 1})] }, prism := { s.prism with tick := 40000 } }
def fcA := 31250000*2^22
def lm (on : Bool) (st : Nat) : State := let s := C 8 [(lomR 2, LOM_STATUS_STATE, st), (lomR 2, LOM_CFG_EN, on.toNat)]; s.setLoom 2 (fun l => { l with on := on })
def pi (en : Nat) : State := C 8 [(piR 3, HRD_PI_CFG_EN, en),(piR 3, HRD_PI_CFG_PORTS, 3)]
def pw (en : Nat) : Desc := D 2 [(0,4,en + 2^9),(12,4,(State.reset.reg (piR 2+3)).toNat),(16,4,7)] 24
def se (n : Nat) : State := C 8 [(hrcR, HRD_SE_CFG_EN, 1), (hrcR, ⟨64, 1, 5⟩, 8), (piR 2, HRD_PI_CFG_PROFILE, 5), (piR 2, HRD_PI_CFG_PORTS, 15)]
def sx : State := C 8 [(hrcR, HRD_SE_CFG_EN, 1), (hrcR, HRD_SE_SIZE_LOG2, 10), (piR 2, HRD_PI_CFG_PROFILE, 5), (piR 2, HRD_PI_CFG_PORTS, 15)]
def ad : Desc := D 0 [(0,1,2+8+32),(8,8,123),(24,8,99),(32,2,0x100)] 64
def oc (ks : List Nat) : State := { sx with hrd := { sx.hrd with sess := (ks).map (fun k => (k, (⟨false, 1, 0, false, k, 0, 0, [], [none,none,none], [{},{},{}], 0⟩ : Sess))) } }
def ac (r : Nat) (c : Int) (tc : Nat) : State := (C 8 [(pjR 2, HRD_PI_JSTAT_REFUSED, r), (glbR, GLB_TIMECHAN_EN, tc), (glbR, GLB_TIMECHAN_CHAN, 3)]).setPi 2 (fun x => { x with c := c, a := 7 })
def pl (up ld : Nat) (cal : Bool) : State := (C 8 [(plkR 1, PLK_STATUS_LINK, up), (plkR 1, PLK_STATUS_LEADER, ld), (plkR 1, PLK_STATUS_CAL, 1)]).setPlk 1 (fun x => { x with calib := cal })
def ky (mode en hold : Nat) (e : Option Nat) : State := (C mode [(mirR, MIR_CFG_EN, en), (mirR, MIR_KEY_HOLD, hold)]).setMir (fun x => { x with ovrEnd := e })

theorem witness_HeraldCommandsApply_T5_0 :
    (∃ (s : State) (d : Desc), 
      let pl := d.payload.getD []
      let n := d.target
      Applies s (.ptpInst d) ∧
      let w0 := leAt pl 0 4
      let clash := w0 % 2 = 1 ∧ s.piClash n (bitsOf w0 9 4) (bitsOf w0 7 2) (bitsOf w0 13 8) = true
      clash) ∧
    (∃ (s : State) (d : Desc), 
      let pl := d.payload.getD []
      let n := d.target
      Applies s (.ptpInst d) ∧
      let w0 := leAt pl 0 4
      let clash := w0 % 2 = 1 ∧ s.piClash n (bitsOf w0 9 4) (bitsOf w0 7 2) (bitsOf w0 13 8) = true
      (¬clash)) ∧
    (∃ (s : State) (d : Desc), 
      let pl := d.payload.getD []
      Applies s (.sessAdd d) ∧
      let b0 := leAt pl 0 1
      let k := bitsOf b0 2 3
      let p := bitsOf b0 5 2
      let x : Sess := { request := bitsOf b0 1 1 = 1, inst := k, port := p, origin := false, addr := leAt pl 8 16, clk := leAt pl 26 8, pnum := leAt pl 24 2, minl := (List.range 3).map (fun i => signed (leAt pl (36 + i) 1) 8) }
      let full := x.request = true ∧ 8 ≤ (s.hrd.sess.filter (fun e => e.2.request && e.2.inst == k && e.2.port == p)).length
      let may := s.seOn = true ∧ s.piUnicast k = true ∧ s.piUses k p = true ∧ s.sessOf k p x.addr = none ∧ ¬full
      may ∧ (s.probe k p x.addr).all (fun i => (s.sess? i).isSome) = true) ∧
    (∃ (s : State) (d : Desc) (slot : Nat), 
      let pl := d.payload.getD []
      Applies s (.sessAdd d) ∧
      let b0 := leAt pl 0 1
      let k := bitsOf b0 2 3
      let p := bitsOf b0 5 2
      let x : Sess := { request := bitsOf b0 1 1 = 1, inst := k, port := p, origin := false, addr := leAt pl 8 16, clk := leAt pl 26 8, pnum := leAt pl 24 2, minl := (List.range 3).map (fun i => signed (leAt pl (36 + i) 1) 8) }
      let full := x.request = true ∧ 8 ≤ (s.hrd.sess.filter (fun e => e.2.request && e.2.inst == k && e.2.port == p)).length
      let may := s.seOn = true ∧ s.piUnicast k = true ∧ s.piUses k p = true ∧ s.sessOf k p x.addr = none ∧ ¬full
      may ∧ (s.probe k p x.addr).find? (fun i => (s.sess? i).isNone) = some slot) ∧
    (∃ (s : State) (d : Desc), 
      let pl := d.payload.getD []
      Applies s (.sessDel d) ∧ s.sess? (leAt pl 0 4) = none) ∧
    (∃ (s : State) (d : Desc), 
      let pl := d.payload.getD []
      Applies s (.sessDel d) ∧ s.sess? (leAt pl 0 4) ≠ none) :=
  ⟨⟨(pi 1), (pw 1), applies_of (by decide +kernel), by decide +kernel⟩,
   ⟨(pi 0), (pw 1), applies_of (by decide +kernel), by decide +kernel⟩,
   ⟨(oc (sx.probe 2 1 123)), ad, applies_of (by decide +kernel), by decide +kernel, by decide +kernel⟩,
   ⟨sx, ad, (((sx.probe 2 1 123).find? (fun i => (sx.sess? i).isNone)).getD 0), applies_of (by decide +kernel), by decide +kernel, by decide +kernel⟩,
   ⟨(oc [5,9]), (D 0 [(0,4,10)]), applies_of (by decide +kernel), by decide +kernel⟩,
   ⟨(oc [5,9]), (D 0 [(0,4,9)]), applies_of (by decide +kernel), by decide +kernel⟩⟩

theorem witness_HeraldCommandsApply_T5_1 :
    (∃ (s : State) (d : Desc), 
      let n := d.target
      Applies s (.acceptStep d) ∧
      let refused := s.on (pjR n) HRD_PI_JSTAT_REFUSED
      refused = false) ∧
    (∃ (s : State) (d : Desc), 
      let pl := d.payload.getD []
      let n := d.target
      Applies s (.acceptStep d) ∧
      let act := leAt pl 0 1
      let refused := s.on (pjR n) HRD_PI_JSTAT_REFUSED
      refused = true ∧ act = 1) ∧
    (∃ (s : State) (d : Desc), 
      let pl := d.payload.getD []
      let n := d.target
      Applies s (.acceptStep d) ∧
      let act := leAt pl 0 1
      let refused := s.on (pjR n) HRD_PI_JSTAT_REFUSED
      refused = true ∧ act = 0 ∧ s.timeChan = none) ∧
    (∃ (s : State) (d : Desc) (c : Nat), 
      let pl := d.payload.getD []
      let n := d.target
      Applies s (.acceptStep d) ∧
      let act := leAt pl 0 1
      let refused := s.on (pjR n) HRD_PI_JSTAT_REFUSED
      refused = true ∧ act = 0 ∧ s.timeChan = some c ∧ (s.pi n).c ≤ 0 ∧
      let x := ((s.taken (rowDesc d 0 0x3B)).milUndo.chanPhase c 1 (s.pi n).c)
      x.2 = false) ∧
    (∃ (s : State) (d : Desc) (c : Nat), 
      let pl := d.payload.getD []
      let n := d.target
      Applies s (.acceptStep d) ∧
      let act := leAt pl 0 1
      let refused := s.on (pjR n) HRD_PI_JSTAT_REFUSED
      refused = true ∧ act = 0 ∧ s.timeChan = some c ∧ (s.pi n).c ≤ 0 ∧
      let x := ((s.taken (rowDesc d 0 0x3B)).milUndo.chanPhase c 1 (s.pi n).c)
      x.2 = true) ∧
    (∃ (s : State) (d : Desc), Applies s (.asymSet d)) :=
  ⟨⟨(ac 0 (-50) 1), (D 2 [(0,1,1)]), applies_of (by decide +kernel), by decide +kernel⟩,
   ⟨(ac 1 (-50) 1), (D 2 [(0,1,1)]), applies_of (by decide +kernel), by decide +kernel, by decide +kernel⟩,
   ⟨(ac 1 (-50) 0), (D 2 [(0,1,0)]), applies_of (by decide +kernel), by decide +kernel, by decide +kernel, by decide +kernel⟩,
   ⟨(ac 1 (-50 * 65536*10^12) 1), (D 2 [(0,1,0)]), 3, applies_of (by decide +kernel), by decide +kernel, by decide +kernel, by decide +kernel, by decide +kernel, by decide +kernel⟩,
   ⟨(ac 1 0 1), (D 2 [(0,1,0)]), 3, applies_of (by decide +kernel), by decide +kernel, by decide +kernel, by decide +kernel, by decide +kernel, by decide +kernel⟩,
   ⟨(oc [5,9]), (D 0 [(0,4,9)]), applies_of (by decide +kernel)⟩⟩

theorem witness_KeeperCommandsApply_T5_0 :
    (∃ (s : State) (d : Desc), 
      let pl := d.payload.getD []
      let n := d.target
      let act := leAt pl 0 1
      Applies s (.plkCtl d) ∧
      let may := s.plkUp n = true ∧ s.plkLeader n = true ∧ (s.plkP n).calib = false
      act = 0 ∧ (¬may)) ∧
    (∃ (s : State) (d : Desc), 
      let pl := d.payload.getD []
      let n := d.target
      let act := leAt pl 0 1
      Applies s (.plkCtl d) ∧
      let may := s.plkUp n = true ∧ s.plkLeader n = true ∧ (s.plkP n).calib = false
      act = 0 ∧ may) ∧
    (∃ (s : State) (d : Desc), 
      let pl := d.payload.getD []
      let n := d.target
      let act := leAt pl 0 1
      Applies s (.plkCtl d) ∧ act = 1 ∧ s.plkUp n = false) ∧
    (∃ (s : State) (d : Desc), 
      let pl := d.payload.getD []
      let n := d.target
      let act := leAt pl 0 1
      Applies s (.plkCtl d) ∧ act = 1 ∧ s.plkUp n = true) ∧
    (∃ (s : State) (d : Desc), 
      let pl := d.payload.getD []
      let n := d.target
      let act := leAt pl 0 1
      Applies s (.plkCtl d) ∧ act = 2 ∧ s.plkRoleOk n (leAt pl 1 1) = false) ∧
    (∃ (s : State) (d : Desc), 
      let pl := d.payload.getD []
      let n := d.target
      let act := leAt pl 0 1
      Applies s (.plkCtl d) ∧ act = 2 ∧ s.plkRoleOk n (leAt pl 1 1) = true) :=
  ⟨⟨(pl 1 1 true), (D 1 [(0,1,0)]), applies_of (by decide +kernel), by decide +kernel, by decide +kernel⟩,
   ⟨(pl 1 1 false), (D 1 [(0,1,0)]), applies_of (by decide +kernel), by decide +kernel, by decide +kernel⟩,
   ⟨(pl 0 1 true), (D 1 [(0,1,1)]), applies_of (by decide +kernel), by decide +kernel, by decide +kernel⟩,
   ⟨(pl 1 1 true), (D 1 [(0,1,1)]), applies_of (by decide +kernel), by decide +kernel, by decide +kernel⟩,
   ⟨((pl 1 1 true).put (plkR 0) PLK_PORT_CFG_ROLE 4), (D 1 [(0,1,2),(1,1,4),(2,3,9),(5,1,1)]), applies_of (by decide +kernel), by decide +kernel, by decide +kernel⟩,
   ⟨(pl 0 1 true), (D 1 [(0,1,2),(1,1,1),(2,3,9),(5,1,1)]), applies_of (by decide +kernel), by decide +kernel, by decide +kernel⟩⟩

theorem witness_KeeperCommandsApply_T5_1 :
    (∃ (s : State) (d : Desc), 
      let pl := d.payload.getD []
      let act := leAt pl 0 1
      Applies s (.keyCtl d) ∧ s.takeoverDue = false ∧ act = 0 ∧ s.hasKey = false) ∧
    (∃ (s : State) (d : Desc), 
      let pl := d.payload.getD []
      let act := leAt pl 0 1
      Applies s (.keyCtl d) ∧ s.takeoverDue = false ∧ act = 0 ∧ s.hasKey = true) ∧
    (∃ (s : State) (d : Desc), 
      let pl := d.payload.getD []
      let act := leAt pl 0 1
      Applies s (.keyCtl d) ∧ s.takeoverDue = false ∧ (act = 1 ∨ act = 2)) ∧
    (∃ (s : State) (d : Desc), 
      let pl := d.payload.getD []
      let act := leAt pl 0 1
      Applies s (.keyCtl d) ∧ s.takeoverDue = false ∧ act = 3 ∧
      let may := s.paired = true ∧ s.hasKey = false ∧ (s.mode = 6 ∨ s.mode = 12) ∧ s.mir.ovr = none ∧ s.mir.ovrEnd.all (fun e => Decidable.decide (e + 32000 ≤ s.prism.tick)) = true
      (¬may)) ∧
    (∃ (s : State) (d : Desc), 
      let pl := d.payload.getD []
      let act := leAt pl 0 1
      Applies s (.keyCtl d) ∧ s.takeoverDue = false ∧ act = 3 ∧
      let may := s.paired = true ∧ s.hasKey = false ∧ (s.mode = 6 ∨ s.mode = 12) ∧ s.mir.ovr = none ∧ s.mir.ovrEnd.all (fun e => Decidable.decide (e + 32000 ≤ s.prism.tick)) = true
      may) ∧
    (∃ (s : State) (d : Desc), Applies s (.grnStore d) ∧ 16 ≤ s.gran.reqs.length) :=
  ⟨⟨(ky 12 1 0 none), (D 0 [(0,1,0)]), applies_of (by decide +kernel), by decide +kernel, by decide +kernel, by decide +kernel⟩,
   ⟨(ky 12 1 1 none), (D 0 [(0,1,0)]), applies_of (by decide +kernel), by decide +kernel, by decide +kernel, by decide +kernel⟩,
   ⟨(ky 8 1 1 none), (D 0 [(0,1,1)]), applies_of (by decide +kernel), by decide +kernel, by decide +kernel⟩,
   ⟨(ky 12 1 0 (some 39999)), (D 0 [(0,1,3)]), applies_of (by decide +kernel), by decide +kernel, by decide +kernel, by decide +kernel⟩,
   ⟨(ky 12 1 0 (some 100)), (D 0 [(0,1,3)]), applies_of (by decide +kernel), by decide +kernel, by decide +kernel, by decide +kernel⟩,
   ⟨((C 7 []).setGran (fun g => { g with queue := [(101,false)], reqs := List.replicate 16 ⟨1,[],false,0,false,false⟩})), (D 0 [(0,2,100),(2,2,5),(4,1,1)]), applies_of (by decide +kernel), by decide +kernel⟩⟩

theorem witness_KeeperCommandsApply_T5_2 :
    (∃ (s : State) (d : Desc), Applies s (.grnStore d) ∧ s.gran.reqs.length < 16) ∧
    (∃ (s : State) (d : Desc), 
      let pl := d.payload.getD []
      Applies s (.grnPfMark d) ∧
      let named := fun p => Decidable.decide (leAt pl 0 2 ≤ p ∧ p < leAt pl 0 2 + leAt pl 2 2)
      let marks := (List.range 1024).filter (fun p => s.gran.marks.contains p || named p)
      leAt pl 4 1 = 1 ∧ 256 < marks.length) ∧
    (∃ (s : State) (d : Desc), 
      let pl := d.payload.getD []
      Applies s (.grnPfMark d) ∧
      let named := fun p => Decidable.decide (leAt pl 0 2 ≤ p ∧ p < leAt pl 0 2 + leAt pl 2 2)
      let marks := (List.range 1024).filter (fun p => s.gran.marks.contains p || named p)
      leAt pl 4 1 = 1 ∧ marks.length ≤ 256) ∧
    (∃ (s : State) (d : Desc), 
      let pl := d.payload.getD []
      Applies s (.grnPfMark d) ∧ leAt pl 4 1 = 0) ∧
    (∃ (s : State) (d : Desc), Applies s (.wchClear d)) :=
  ⟨⟨(C 7 []), (D 0 [(0,2,100),(2,2,5),(4,1,1)]), applies_of (by decide +kernel), by decide +kernel⟩,
   ⟨((C 7 []).setGran (fun g => { g with marks := [70,80]})), (D 0 [(0,2,100),(2,2,255),(4,1,1)]), applies_of (by decide +kernel), by decide +kernel, by decide +kernel⟩,
   ⟨(C 7 []), (D 0 [(0,2,100),(2,2,5),(4,1,1)]), applies_of (by decide +kernel), by decide +kernel, by decide +kernel⟩,
   ⟨((C 7 []).setGran (fun g => { g with marks := [70,80]})), (D 0 [(0,2,75),(2,2,50),(4,1,0)]), applies_of (by decide +kernel), by decide +kernel⟩,
   ⟨(ky 12 1 0 none), (D 0 [(0,1,0)]), applies_of (by decide +kernel)⟩⟩

end Sys2Proof.Tests.T5

namespace Sys2Proof.Tests.T6

set_option Elab.async false

def M (m : Nat) (l : List (Nat × Fld × Nat)) (s : State := State.reset) : State := S ((pwrR, PWR_STATUS_MODE, m) :: l) s
def R0 : RefSt := {}
def ri (i : Nat) (es : List EdgeIn) : RefIn := ⟨i, es, [], false⟩
def vs (v : Nat) (pend : List Pend) (soak : Option Nat) : State := { (M 8 [(priR 3, PRS_MON_EN, 1), (priR 3, PRS_VERDICT_V, v)]).setRef 3 (fun r => { r with en := true, v := v, win := some 30, pend := pend, soak := soak, pred := some 500, judged := some 5 }) with ltc := { ns := 31250*32 }, prism := { ((M 8 []).setRef 3 (fun r => { r with en := true, v := v, win := some 30, pend := pend, soak := soak, pred := some 500 })).prism with tick := 400000 } }
def pp : Pend := ⟨0, 32, 31, 0, false⟩
def tc (align valid : Nat) (done : Bool) (prev : Option (Int × Nat)) (src : Nat := 0) : State := { M 8 [(prsR, PRS_TC_CFG_EN, 1), (prsR, PRS_TC_CFG_SRC, src), (prsR, PRS_TC_CFG_ALIGN, align), (prsR, PRS_TC_CFG_IN, 3), (priR 3, PRS_IN_CFG_KIND, 2), (priR 3, PRS_IN_CFG_FMT, 1), (ltcR, LTC_UTCOFF_VALID, valid)] with ltc := { sec := 1000, ns := 500000000 }, prism := { tc := { done := done, edge := some (1000, 10, 37, false), prev := prev } } }
def td (ck wf rmc act : Bool) (sec : Nat := 5) : TodIn := ⟨true, rmc, ck, act, wf, 1970, 1, 1, 0, 16, sec, 1000, []⟩
def ig (p w : Bool) (code : Nat := 4) (sec : Nat := 3): IrigIn := ⟨false, false, code, p, w, 1970, 1, 0, 16, sec, true, false, 1, 7, true, 963⟩
def cl (st ln un : Nat) : State := ({ M 8 [(milR 3, MIL_STATUS_STATE, st), (milR 3, MIL_LOCK_CNT, 16), (milR 3, MIL_LOCK_ULCNT, 4), (prcR 3, PRS_SEL_STATUS_CUR, 5), (prcR 3, PRS_SEL_STATUS_CUR_V, 1)] with ltc := { ns := 31250*50 } }).setChan 3 (fun x => { x with on := true, c := { x.c with lockN := ln, unlockN := un, pk := 6 }, ref := some 5 })
def en (l : List (Nat × Fld × Nat)) (f : Slot → Slot) (g : EnsSt → EnsSt) : State := ((({ M 8 l with prism := { tick := 320000*33 } }).setEns 2 (fun x => g { x with on := true }))).setSlot 2 1 f
def asy (l : List Rat) : State := en [(ensR 2, GLB_ENS_STATUS_ASLOT, 1), (emsR 2 1, GLB_EM_CFG_IDX, 38), (emsR 2 1, GLB_EM_STAT_STATE, 3), (ensR 2, GLB_ENS_ACFG_AMAX, 2)] (fun x => { x with acc := l, ms := 8 }) (fun x => { x with asymEnd := some 320000 })
def ci : ClosedIv := { sec := 37, ticks := 20, tsum := 640, flags := 2, sums := (List.range 16).map (fun i => ((i : Rat), i % 2 == 0)) }
def md0 : Model := ⟨0,0,0,0,37,1,0,1,0,0,5,false,true⟩
def he (hist : Nat) (sec : Nat) : State := { M 8 [(glb1R, GLB_HRT_CFG_INTV, 16)] with ltc := { sec := sec }, hearth := { grid := some 5, ivStart := 37, ticks := 20, tsum := 500, flags := 2, closed := if sec % 2 = 1 then some ci else none, hist := (List.range hist).map (fun i => ⟨i, 1, 2, 0⟩), tempTick := some 76 }, prism := { tick := 1100 } }

theorem witness_VerdictsFollowTheWindow_T6_0 :
    (∃ (s : State) (x : RefIn) (r : RefSt) (tn tick : Nat), 
      let i := x.idx
      let u := ({ s with prism := { s.prism with now := s.prism.now + s.tickSpan, tick := s.prism.tick + 1 } } : State).runMonitors x
      let v := if u.refLive i then (((u.ref i).soaks (s.prism.tick + 1)).verdict (u.countedRes i) s.tn (s.prism.tick + 1)).v else 2
      r.forced = none ∧ r.v = 0 ∧ r.win = none ∧ r.pend = [] ∧ 0 < r.cd) ∧
    (∃ (s : State) (x : RefIn) (r : RefSt) (n tn tick : Nat) (p : Pend), 
      let i := x.idx
      let u := ({ s with prism := { s.prism with now := s.prism.now + s.tickSpan, tick := s.prism.tick + 1 } } : State).runMonitors x
      let v := if u.refLive i then (((u.ref i).soaks (s.prism.tick + 1)).verdict (u.countedRes i) s.tn (s.prism.tick + 1)).v else 2
      r.forced = none ∧ r.v = 1 ∧ r.win = some n ∧ tn < n + 8 ∧ r.pend = [p] ∧ p.raised < tn ∧ p.due = tn ∧ p.again = false ∧ p.results = 0) ∧
    (∃ (s : State) (x : RefIn) (r : RefSt) (k tn tick : Nat), 
      let i := x.idx
      let u := ({ s with prism := { s.prism with now := s.prism.now + s.tickSpan, tick := s.prism.tick + 1 } } : State).runMonitors x
      let v := if u.refLive i then (((u.ref i).soaks (s.prism.tick + 1)).verdict (u.countedRes i) s.tn (s.prism.tick + 1)).v else 2
      r.forced = none ∧ r.v = 2 ∧ r.soak = some k ∧ bitsOf r.lim1 PRS_LIM1_SOAK.lo PRS_LIM1_SOAK.width * 32000 ≤ tick - k) ∧
    (∃ (s : State) (x : RefIn) (r : RefSt) (k tn tick : Nat), 
      let i := x.idx
      let u := ({ s with prism := { s.prism with now := s.prism.now + s.tickSpan, tick := s.prism.tick + 1 } } : State).runMonitors x
      let v := if u.refLive i then (((u.ref i).soaks (s.prism.tick + 1)).verdict (u.countedRes i) s.tn (s.prism.tick + 1)).v else 2
      r.forced = none ∧ r.v = 2 ∧ r.soak = some k ∧ tick - k < bitsOf r.lim1 PRS_LIM1_SOAK.lo PRS_LIM1_SOAK.width * 32000) ∧
    (∃ (s : State) (x : RefIn) (n tn : Nat) (p : Pend), 
      let i := x.idx
      i < 32 ∧ s.judgesAlone i = true ∧ (s.ref i).forced = none ∧ ((s.ref i).pend.any (fun p => p.due ≤ s.tn) = true ∨ (s.ref i).win = some n ∧ n + 8 ≤ s.tn)) ∧
    (∃ (s : State) (x : RefIn) (tn tick : Nat), 
      let i := x.idx
      let u := ({ s with prism := { s.prism with now := s.prism.now + s.tickSpan, tick := s.prism.tick + 1 } } : State).runMonitors x
      let v := if u.refLive i then (((u.ref i).soaks (s.prism.tick + 1)).verdict (u.countedRes i) s.tn (s.prism.tick + 1)).v else 2
      i < 32 ∧ s.judgesAlone i = true ∧ (s.ref i).forced = none ∧ (s.ref i).v = 2 ∧ (s.ref i).soak ≠ none ∧ v = 0 ∧ u.refLive i = true) :=
  ⟨⟨(vs 1 [pp] none), (ri 3 []), ({ R0 with v := 0, cause := 3 }), 40, 50, by dsimp only; decide +kernel⟩,
   ⟨(vs 1 [pp] none), (ri 3 [⟨100, 5⟩]), ({ R0 with v := 1, cause := 3, win := some 30, pend := [pp] }), 30, 32, 50, pp, by dsimp only; decide +kernel⟩,
   ⟨(vs 2 [] (some 1)), (ri 3 [⟨100, 5⟩]), ({ R0 with v := 2, cause := 3, soak := some 9 }), 9, 32, 500000, by dsimp only; decide +kernel⟩,
   ⟨(vs 2 [] (some 1)), (ri 3 [⟨100, 5⟩]), ({ R0 with v := 2, cause := 3, soak := some 9 }), 9, 32, 50, by dsimp only; decide +kernel⟩,
   ⟨(vs 1 [pp] none), (ri 3 []), 9, 40, pp, by dsimp only; decide +kernel⟩,
   ⟨(vs 2 [] (some 1)), (ri 3 [⟨100, 5⟩]), 32, 50, by dsimp only; decide +kernel⟩⟩

theorem witness_VerdictsFollowTheWindow_T6_1 :
    ∃ (s : State) (m pos : Nat) (at0 : Int) (hz : Nat), (s.ref m).pred = some at0 ∧ s.refHz m = some hz ∧ hz < 32000 ∧ s.refLive m = true ∧ at0 + bitsOf (s.ref m).lim1 PRS_LIM1_ACTWIN.lo PRS_LIM1_ACTWIN.width * 500000 < s.prism.now + pos :=
  ⟨((vs 0 [] none).put (priR 3) PRS_NOM_HZ 1), 3, (500000*400), 500, 1, by decide +kernel⟩

theorem witness_TimecodesAreRead_T6_0 :
    (∃ (s : State), s.on prsR PRS_TC_CFG_EN = false) ∧
    (∃ (s : State), s.on prsR PRS_TC_CFG_EN = true) ∧
    (∃ (s : State) (x0 : TodIn), 
      let x := { x0 with edges := [] }
      let tod := s.on prsR PRS_TC_CFG_EN = true ∧ s.on prsR PRS_TC_CFG_SRC = false ∧ x.known = true
      (¬tod)) ∧
    (∃ (s : State) (x0 : TodIn), 
      let x := { x0 with edges := [] }
      let tod := s.on prsR PRS_TC_CFG_EN = true ∧ s.on prsR PRS_TC_CFG_SRC = false ∧ x.known = true
      tod ∧ x.cksum = false) ∧
    (∃ (s : State) (x0 : TodIn), 
      let x := { x0 with edges := [] }
      let tod := s.on prsR PRS_TC_CFG_EN = true ∧ s.on prsR PRS_TC_CFG_SRC = false ∧ x.known = true
      let good := x.cksum = true ∧ x.wellFormed = true ∧ (x.rmc = true → x.active = true)
      tod ∧ x.cksum = true ∧ (¬good)) ∧
    (∃ (s : State) (x0 : TodIn), 
      let x := { x0 with edges := [] }
      let tod := s.on prsR PRS_TC_CFG_EN = true ∧ s.on prsR PRS_TC_CFG_SRC = false ∧ x.known = true
      let good := x.cksum = true ∧ x.wellFormed = true ∧ (x.rmc = true → x.active = true)
      tod ∧ good ∧ s.on prsR PRS_TC_CFG_ALIGN = true) :=
  ⟨⟨(M 8 []), by decide +kernel⟩,
   ⟨(tc 0 1 false (some (1001, 1))), by decide +kernel⟩,
   ⟨(tc 1 1 false (some (1001, 2)) 1), (td true true true false), by dsimp only; decide +kernel⟩,
   ⟨(tc 1 1 false (some (1001, 2))), (td false true true true), by dsimp only; decide +kernel⟩,
   ⟨(tc 1 1 false (some (1001, 2))), (td true true true false), by dsimp only; decide +kernel⟩,
   ⟨(tc 1 1 false (some (1001, 2))), (td true true true true), by dsimp only; decide +kernel⟩⟩

theorem witness_TimecodesAreRead_T6_1 :
    (∃ (s : State) (x0 : TodIn) (sec at2 : Nat) (off : Int) (li : Bool), 
      let x := { x0 with edges := [] }
      let tc := s.prism.tc
      let tod := s.on prsR PRS_TC_CFG_EN = true ∧ s.on prsR PRS_TC_CFG_SRC = false ∧ x.known = true
      let good := x.cksum = true ∧ x.wellFormed = true ∧ (x.rmc = true → x.active = true)
      let now := s.ltc.sec * 1000000000 + s.ltc.ns + x.ends
      let inTime := now * 500 ≤ sec * 500000000000 + at2 + 450000000000
      tod ∧ good ∧ s.on prsR PRS_TC_CFG_ALIGN = false ∧ tc.edge = some (sec, at2, off, li) ∧ inTime ∧ tc.done = true) ∧
    (∃ (s : State) (x0 : TodIn) (sec at2 : Nat) (off : Int) (li : Bool), 
      let x := { x0 with edges := [] }
      let tc := s.prism.tc
      let waits := tc.edge = some (sec, at2, off, li) ∧ tc.done = false
      let tod := s.on prsR PRS_TC_CFG_EN = true ∧ s.on prsR PRS_TC_CFG_SRC = false ∧ x.known = true
      let good := x.cksum = true ∧ x.wellFormed = true ∧ (x.rmc = true → x.active = true)
      let now := s.ltc.sec * 1000000000 + s.ltc.ns + x.ends
      let inTime := now * 500 ≤ sec * 500000000000 + at2 + 450000000000
      tod ∧ good ∧ s.on prsR PRS_TC_CFG_ALIGN = false ∧ waits ∧ inTime ∧ (x.sec = 60 → li = true)) ∧
    (∃ (s : State) (y : IrigIn), s.irigTaken y = true ∧ codeCtl y.code = true ∧ y.parity = false) ∧
    (∃ (s : State) (y : IrigIn), s.irigTaken y = true ∧ (codeCtl y.code = true → y.parity = true) ∧ (y.wellFormed = false ∨ State.irigAgrees y = false)) ∧
    (∃ (s : State) (y : IrigIn), 
      let tc := s.prism.tc
      let idle := tc.edge = none ∨ tc.done = true
      s.irigTaken y = true ∧ (codeCtl y.code = true → y.parity = true) ∧ y.wellFormed = true ∧ State.irigAgrees y = true ∧ idle) ∧
    (∃ (s : State) (y : IrigIn) (sec at2 : Nat) (off : Int) (li : Bool), 
      let tc := s.prism.tc
      let waits := tc.edge = some (sec, at2, off, li) ∧ tc.done = false
      s.irigTaken y = true ∧ (codeCtl y.code = true → y.parity = true) ∧ y.wellFormed = true ∧ State.irigAgrees y = true ∧ waits ∧ y.sec = 60 ∧ li = false) :=
  ⟨⟨(tc 0 1 true (some (1001, 2))), (td true true true true), 1000, 10, 37, false, by dsimp only; decide +kernel⟩,
   ⟨(tc 0 1 false (some (1001, 1))), (td true true true true), 1000, 10, 37, false, by dsimp only; decide +kernel⟩,
   ⟨(tc 1 1 false (some (1001, 2)) 1), (ig false false), by decide +kernel⟩,
   ⟨(tc 1 1 false (some (1001, 2)) 1), (ig true false), by decide +kernel⟩,
   ⟨(tc 0 1 true none 1), (ig true true 2), by dsimp only; decide +kernel⟩,
   ⟨(tc 0 1 false none 1), (ig true true 5 60), 1000, 10, 37, false, by dsimp only; decide +kernel⟩⟩

theorem witness_TimecodesAreRead_T6_2 :
    ∃ (s : State) (y : IrigIn) (sec at2 : Nat) (off : Int) (li : Bool), 
      let tc := s.prism.tc
      let waits := tc.edge = some (sec, at2, off, li) ∧ tc.done = false
      s.irigTaken y = true ∧ (codeCtl y.code = true → y.parity = true) ∧ y.wellFormed = true ∧ State.irigAgrees y = true ∧ waits ∧ (y.sec = 60 → li = true) :=
  ⟨(tc 1 1 false (some (1001, 2)) 1), (ig true true), 1000, 10, 37, false, by dsimp only; decide +kernel⟩

theorem witness_ChannelsLockAndUnlock :
    (∃ (s : State) (c : Nat), 
      let x := s.chan c
      let runs := s.millerRuns = true ∧ x.on = true ∧ x.frozen = none ∧ x.changes = [] ∧ s.milForce c = 0 ∧ s.hasSource c = true
      runs ∧ s.milState c = 1 ∧ s.get (milR c) MIL_LOCK_CNT ≤ x.c.lockN) ∧
    (∃ (s : State) (c : Nat), 
      let x := s.chan c
      let runs := s.millerRuns = true ∧ x.on = true ∧ x.frozen = none ∧ x.changes = [] ∧ s.milForce c = 0 ∧ s.hasSource c = true
      runs ∧ s.milState c = 1 ∧ x.c.lockN < s.get (milR c) MIL_LOCK_CNT) ∧
    (∃ (s : State) (c : Nat), 
      let x := s.chan c
      let runs := s.millerRuns = true ∧ x.on = true ∧ x.frozen = none ∧ x.changes = [] ∧ s.milForce c = 0 ∧ s.hasSource c = true
      runs ∧ s.milState c = 2 ∧ s.get (milR c) MIL_LOCK_ULCNT ≤ x.c.unlockN) ∧
    (∃ (s : State) (c : Nat), 
      let x := s.chan c
      let runs := s.millerRuns = true ∧ x.on = true ∧ x.frozen = none ∧ x.changes = [] ∧ s.milForce c = 0 ∧ s.hasSource c = true
      runs ∧ s.milState c = 2 ∧ x.c.unlockN < s.get (milR c) MIL_LOCK_ULCNT) ∧
    (∃ (s : State) (c n j k : Nat), 
      let x := s.chan c
      s.millerRuns = true ∧ x.on = true ∧ x.frozen = none ∧ x.ending = none ∧ x.specN = some n ∧ n + 8 ≤ s.tn - 1 ∧ x.ref = some j ∧ s.verdictOf j ≠ 0 ∧ x.sidx = some k ∧ s.selCur c = some k) :=
  ⟨⟨(cl 1 16 0), 3, by dsimp only; decide +kernel⟩,
   ⟨(cl 1 15 0), 3, by dsimp only; decide +kernel⟩,
   ⟨(cl 2 15 4), 3, by dsimp only; decide +kernel⟩,
   ⟨(cl 2 15 3), 3, by dsimp only; decide +kernel⟩,
   ⟨((((cl 3 15 4).put (priR 5) PRS_VERDICT_V 1).setChan 3 (fun x => { x with specN := some 40, sidx := some 7 })).put (prcR 3) PRS_SEL_STATUS_CUR 7), 3, 40, 5, 7, by dsimp only; decide +kernel⟩⟩

theorem witness_EnsembleSlotsMove_T6_0 :
    (∃ (s : State) (e m : Nat), e < 8 ∧ m < 8 ∧
      let nsU : Rat := 500
      let acc := (s.slot e m).acc
      let learned := acc.take (2 ^ s.get (ensR e) GLB_ENS_CFG_OTC)
      let dmax : Rat := (s.get (ensR e) GLB_ENS_ACFG_DMAX : Rat) * 10 * nsU
      let wide := dmax ≠ 0 ∧ dmax < |State.meanOf learned|
      (s.ensOf e).on = true ∧ s.mState e m = 1 ∧ 2 ^ s.get (ensR e) GLB_ENS_CFG_OTC ≤ acc.length ∧ wide) ∧
    (∃ (s : State) (e m : Nat), e < 8 ∧ m < 8 ∧
      let nsU : Rat := 500
      let acc := (s.slot e m).acc
      let learned := acc.take (2 ^ s.get (ensR e) GLB_ENS_CFG_OTC)
      let dmax : Rat := (s.get (ensR e) GLB_ENS_ACFG_DMAX : Rat) * 10 * nsU
      let wide := dmax ≠ 0 ∧ dmax < |State.meanOf learned|
      (s.ensOf e).on = true ∧ s.mState e m = 1 ∧ 2 ^ s.get (ensR e) GLB_ENS_CFG_OTC ≤ acc.length ∧ (¬wide)) ∧
    (∃ (s : State) (e m : Nat), e < 8 ∧ m < 8 ∧ (s.ensOf e).on = true ∧ s.mState e m = 5 ∧ s.on (ensR e) GLB_ENS_CFG_AUTO = true ∧ (s.slot e m).tpass.2 = true ∧ s.get (ensR e) GLB_ENS_TCFG_REJOIN * 32000 ≤ (s.slot e m).tpass.1) ∧
    (∃ (s : State) (e m : Nat) (z z1 z2 : Rat) (l : List Rat), e < 8 ∧ m < 8 ∧ (s.ensOf e).on = true ∧ s.on (ensR e) GLB_ENS_CFG_WMODE = true ∧ (s.ensOf e).atick + 32000 * 2 ^ s.get (ensR e) GLB_ENS_CFG_ATAU ≤ s.prism.tick ∧ s.mState e m = 2 ∧ (s.slot e m).z = some z ∧ (s.slot e m).zs = z1 :: z2 :: l ∧ (s.slot e m).nd < 15) ∧
    (∃ (s : State) (e m : Nat), e < 8 ∧ m < 8 ∧ s.reanchorDue e = true) ∧
    (∃ (s : State) (e m : Nat), e < 8 ∧ m < 8 ∧
      let acc := (s.slot e m).acc
      s.asymDue e = true ∧ m = s.get (ensR e) GLB_ENS_STATUS_ASLOT ∧ s.mState e m = 3 ∧ 36 ≤ s.mIdx e m ∧ s.mIdx e m < 44 ∧ acc.length < 16) :=
  ⟨⟨(en [(emsR 2 1, GLB_EM_STAT_STATE, 1), (ensR 2, GLB_ENS_CFG_OTC, 4), (ensR 2, GLB_ENS_ACFG_DMAX, 2), (emsR 2 1, GLB_EM_CFG_W, 1)] (fun x => { x with acc := List.replicate 16 (-10003) }) id), 2, 1, by dsimp only; decide +kernel⟩,
   ⟨(en [(emsR 2 1, GLB_EM_STAT_STATE, 1), (ensR 2, GLB_ENS_CFG_OTC, 4), (emsR 2 1, GLB_EM_CFG_W, 1)] (fun x => { x with acc := List.replicate 16 3 }) id), 2, 1, by dsimp only; decide +kernel⟩,
   ⟨(en [(emsR 2 1, GLB_EM_STAT_STATE, 5), (emsR 2 1, GLB_EM_STAT_FAILS, 5), (emsR 2 1, GLB_EM_STAT_CAUSE, 5), (ensR 2, GLB_ENS_CFG_AUTO, 1), (ensR 2, GLB_ENS_TCFG_REJOIN, 2)] (fun x => { x with tpass := (64000, true) }) id), 2, 1, by decide +kernel⟩,
   ⟨(en [(emsR 2 1, GLB_EM_STAT_STATE, 2), (ensR 2, GLB_ENS_CFG_WMODE, 1), (ensR 2, GLB_ENS_CFG_ATAU, 2)] (fun x => { x with z := some 7, zs := [5, 2, 1], v := 3, nd := 4}) id), 2, 1, 7, 5, 2, ([1]), by decide +kernel⟩,
   ⟨(en [(ensR 2, GLB_ENS_CFG_HEN, 1), (ensR 2, GLB_ENS_HCFG_HWIN, 2), (glb1R, GLB_HRT_STATUS_VALID, 1), (priR 58, PRS_VERDICT_V, 0)] id (fun x => { x with x := some 5, fe := 7 })), 2, 1, by decide +kernel⟩,
   ⟨(asy (List.replicate 15 5)), 2, 1, by dsimp only; decide +kernel⟩⟩

theorem witness_EnsembleSlotsMove_T6_1 :
    (∃ (s : State) (e m : Nat), e < 8 ∧ m < 8 ∧
      let nsU : Rat := 500
      let acc := (s.slot e m).acc
      let amax : Rat := (s.get (ensR e) GLB_ENS_ACFG_AMAX : Rat) * 10 * nsU
      s.asymDue e = true ∧ m = s.get (ensR e) GLB_ENS_STATUS_ASLOT ∧ s.mState e m = 3 ∧ 36 ≤ s.mIdx e m ∧ s.mIdx e m < 44 ∧ 16 ≤ acc.length ∧ amax < |State.meanOf acc|) ∧
    (∃ (s : State) (e m : Nat), e < 8 ∧ m < 8 ∧
      let nsU : Rat := 500
      let acc := (s.slot e m).acc
      let amax : Rat := (s.get (ensR e) GLB_ENS_ACFG_AMAX : Rat) * 10 * nsU
      s.asymDue e = true ∧ m = s.get (ensR e) GLB_ENS_STATUS_ASLOT ∧ s.mState e m = 3 ∧ 36 ≤ s.mIdx e m ∧ s.mIdx e m < 44 ∧ 16 ≤ acc.length ∧ |State.meanOf acc| ≤ amax) :=
  ⟨⟨(asy (List.replicate 16 10005)), 2, 1, by dsimp only; decide +kernel⟩,
   ⟨(asy (List.replicate 16 5)), 2, 1, by dsimp only; decide +kernel⟩⟩

theorem witness_HearthLearns_T6_0 :
    (∃ (s : State) (h : ClosedIv), s.hearth.closed = some h ∧ s.hearth.hist.length < 4096) ∧
    (∃ (s : State) (h : ClosedIv), s.hearth.closed = some h ∧ s.hearth.hist.length = 4096) ∧
    (∃ (s : State) (k : Nat) (h : ClosedIv), s.hearth.closed = some h ∧ h.sums.length = s.mil.length ∧ k < s.mil.length ∧ k < 16) ∧
    (∃ (s : State), s.hearth.closed = none) ∧
    (∃ (s : State) (therm : Option Int) (k : Nat), 3 ≤ s.mode ∧ (s.hearth.tempTick = none ∨ s.hearth.tempTick = some k ∧ k + 1024 ≤ s.prism.tick) ∧
      let ext := s.get glb1R GLB_HRT_CFG_TSRC = 1
      ext ∧ therm = none) ∧
    (∃ (s : State) (die v : Int) (therm : Option Int) (k : Nat), 3 ≤ s.mode ∧ (s.hearth.tempTick = none ∨ s.hearth.tempTick = some k ∧ k + 1024 ≤ s.prism.tick) ∧
      let ext := s.get glb1R GLB_HRT_CFG_TSRC = 1
      (if ext then therm = some v else die = v) ∧ -32768 ≤ v ∧ v < 32768 ∧ s.hearth.model = none) :=
  ⟨⟨({ he 3 53 with mil := (State.reset.mil.modify 0 (fun x => { x with on := true })) }), ci, by decide +kernel⟩,
   ⟨(he 4096 99), ci, by decide +kernel⟩,
   ⟨({ he 3 53 with mil := (State.reset.mil.modify 0 (fun x => { x with on := true })) }), 0, ci, by decide +kernel⟩,
   ⟨(he 3 52), by decide +kernel⟩,
   ⟨((he 3 52).put glb1R GLB_HRT_CFG_TSRC 1), none, 76, by dsimp only; decide +kernel⟩,
   ⟨(he 3 52), 5, 5, (some 9), 76, by dsimp only; decide +kernel⟩⟩

theorem witness_HearthLearns_T6_1 :
    (∃ (s : State) (die v : Int) (therm : Option Int) (k : Nat) (md : Model), 3 ≤ s.mode ∧ (s.hearth.tempTick = none ∨ s.hearth.tempTick = some k ∧ k + 1024 ≤ s.prism.tick) ∧
      let ext := s.get glb1R GLB_HRT_CFG_TSRC = 1
      (if ext then therm = some v else die = v) ∧ -32768 ≤ v ∧ v < 32768 ∧ s.hearth.model = some md ∧ md.tfit = true) ∧
    (∃ (s : State) (k : Nat), (s.mode < 3 ∨ s.hearth.tempTick = some k ∧ s.prism.tick < k + 1024)) :=
  ⟨⟨({ he 3 52 with hearth := { (he 3 52).hearth with tempTick := none, model := some md0 } }), 512, 512, none, 76, md0, by dsimp only; decide +kernel⟩,
   ⟨({ he 3 52 with prism := {tick := 1099} }), 76, by decide +kernel⟩⟩

end Sys2Proof.Tests.T6

namespace Sys2Proof.Tests.T7

set_option Elab.async false

def M (m : Nat) (l : List (Nat × Fld × Nat)) (s : State := State.reset) : State := S ((pwrR, PWR_STATUS_MODE, m) :: l) s
def lm (l : List (Nat × Fld × Nat)) (f : LoomSt → LoomSt) (tk : Nat := 100) (g : State → State := id) : State := g ({ (M 8 l).setLoom 1 (fun x => f { x with on := true }) with prism := { tick := tk } })
def ou (s : State) : State := ((S [(outR 1, OUT_CFG_SRC, 1), (outR 2, OUT_CFG_SRC, 1), (outR 1, OUT_STATUS_STATE, 2), (outR 2, OUT_STATUS_STATE, 2), (outR 1, OUT_DIV_DIV, 1), (outR 1, OUT_CFG_FMT, 4)] s).setOut 1 (fun x => { x with en := true })).setOut 2 (fun x => { x with en := true })
def lmG (i : Nat) := lm [(lomR 1, LOM_STATUS_STATE, 3), (lomR 1, LOM_STATUS_BAND, 77)] (fun x => { x with glide := some (1000, 1100, 7, i, 99) })
def ot (l : List (Nat × Fld × Nat)) (f : OutSt → OutSt) (tk : Nat := 100) : State := { ((M 8 ((lomR 1, LOM_STATUS_STATE, 2) :: l)).setOut 9 (fun x => f { x with en := true })).setBridge 1 (fun x => { x with since := 36 }) with prism := { tick := tk } }
def ge (m ns last tcv : Nat) (k : Nat) : State := { M m [(tcdR, TCD_PPS_CFG_EN, 1), (outR 3, OUT_CFG_SRC, k), (outR 3, OUT_STATUS_STATE, 5)] with ltc := { sec := 1000, ns := ns }, tcd := { (State.reset).tcd with last := some last, tc := tcv } }

theorem witness_LoomsSearchAndLock_T7_0 :
    (∃ (s : State) (n cb k bit b : Nat) (fb : Option Nat), n < s.nLom ∧
      let l := s.loomSt n
      let now := s.prism.tick
      l.search = some ⟨k, cb, .coarse bit b fb⟩ ∧ k + 1 + 2 * (9 - bit) ≤ now ∧ 0 < bit ∧ bit ≤ 8 ∧ b + 2 ^ bit < 512) ∧
    (∃ (s : State) (n : Nat), n < s.nLom ∧ s.measDue n = false) ∧
    (∃ (s : State) (n r cb k w : Nat), n < s.nLom ∧
      let l := s.loomSt n
      let now := s.prism.tick
      l.search = some ⟨k, cb, .check w r⟩ ∧ w ≤ now ∧ cb < 512 ∧ 1 ≤ r ∧ r ≤ 4) ∧
    (∃ (s : State) (n cb k w : Nat), n < s.nLom ∧
      let l := s.loomSt n
      let now := s.prism.tick
      let get := fun (u : State) (x : Fld) => u.get (lomR n) x
      l.search = some ⟨k, cb, .failed w⟩ ∧ w ≤ now ∧ l.tries ≤ get s LOM_CFG_RETRY) ∧
    (∃ (s : State) (n cb k w : Nat), n < s.nLom ∧
      let l := s.loomSt n
      let now := s.prism.tick
      let get := fun (u : State) (x : Fld) => u.get (lomR n) x
      l.search = some ⟨k, cb, .failed w⟩ ∧ w ≤ now ∧ get s LOM_CFG_RETRY < l.tries) ∧
    (∃ (s : State) (n r cb k w : Nat), n < s.nLom ∧
      let l := s.loomSt n
      (l.search = none ∨ l.search = some ⟨k, cb, .check w r⟩)) :=
  ⟨⟨(lm [(lomR 1, LOM_STATUS_STATE, 1)] (fun x => { x with search := some ⟨60, 3, .coarse 3 256 none⟩ })), 1, 3, 60, 3, 256, none, by dsimp only; decide +kernel⟩,
   ⟨(lm [(lomR 1, LOM_STATUS_STATE, 1)] (fun x => { x with search := some ⟨60, 3, .coarse 3 256 none⟩ }) 61), 1, by decide +kernel⟩,
   ⟨(lm [(lomR 1, LOM_STATUS_STATE, 1)] (fun x => { x with search := some ⟨60, 300, .check 100 2⟩ }) 100 ou), 1, 2, 300, 60, 100, by dsimp only; decide +kernel⟩,
   ⟨(lm [(lomR 1, LOM_STATUS_STATE, 1), (lomR 1, LOM_CFG_RETRY, 1)] (fun x => { x with search := some ⟨60, 300, .failed 100⟩, tries := 1 }) 100 ou), 1, 300, 60, 100, by dsimp only; decide +kernel⟩,
   ⟨(lm [(lomR 1, LOM_STATUS_STATE, 1), (lomR 1, LOM_CFG_RETRY, 1), (lomR 1, LOM_CNT_FAILS, 255)] (fun x => { x with search := some ⟨60, 300, .failed 100⟩, tries := 2 }) 100 ou), 1, 300, 60, 100, by dsimp only; decide +kernel⟩,
   ⟨(lm [(lomR 1, LOM_STATUS_STATE, 1)] (fun x => { x with search := some ⟨60, 300, .check 100 2⟩ }) 100 ou), 1, 2, 300, 60, 100, by dsimp only; decide +kernel⟩⟩

theorem witness_LoomsSearchAndLock_T7_1 :
    (∃ (s : State) (n r cb k w : Nat), n < s.nLom ∧
      let l := s.loomSt n
      let now := s.prism.tick
      s.loomUsable n = false ∧ l.search = some ⟨k, cb, .check w r⟩ ∧ w ≤ now + 8) ∧
    (∃ (s : State) (n : Nat) (fine : Int), n < s.nLom ∧
      let get := fun (u : State) (x : Fld) => u.get (lomR n) x
      s.loomUsable n = true ∧ s.on (lomR n) LOM_CFG_HOP = true ∧ 75 < fine ∧ get s LOM_STATUS_BAND < 511) ∧
    (∃ (s : State) (n : Nat) (fine : Int), n < s.nLom ∧ (s.on (lomR n) LOM_CFG_HOP = false ∨ fine.natAbs ≤ 75)) ∧
    (∃ (s : State) (n f g steps i last : Nat), n < s.nLom ∧
      let l := s.loomSt n
      let now := s.prism.tick
      l.glide = some (f, g, steps, i, last) ∧ last < now ∧ i + 1 < steps) ∧
    (∃ (s : State) (n f g steps i last : Nat), n < s.nLom ∧
      let l := s.loomSt n
      let now := s.prism.tick
      l.glide = some (f, g, steps, i, last) ∧ last < now ∧ i + 1 = steps) ∧
    (∃ (s : State) (n : Nat), n < s.nLom ∧
      let l := s.loomSt n
      l.slew ≠ none ∧ s.slewLeft n = 0) :=
  ⟨⟨(lm [(lomR 1, LOM_STATUS_STATE, 1)] (fun x => { x with search := some ⟨60, 300, .check 100 2⟩ }) 100 ou), 1, 2, 300, 60, 100, by dsimp only; decide +kernel⟩,
   ⟨(lm [(lomR 1, LOM_STATUS_STATE, 2), (lomR 1, LOM_STATUS_BAND, 77), (lomR 1, LOM_CFG_HOP, 1)] id), 1, 80, by dsimp only; decide +kernel⟩,
   ⟨(lm [(lomR 1, LOM_STATUS_STATE, 1)] (fun x => { x with search := some ⟨60, 3, .coarse 3 256 none⟩ })), 1, 1, by decide +kernel⟩,
   ⟨(lmG 2), 1, 1000, 1100, 7, 2, 99, by dsimp only; decide +kernel⟩,
   ⟨(lmG 6), 1, 1000, 1100, 7, 6, 99, by dsimp only; decide +kernel⟩,
   ⟨(lm [(lomR 1, LOM_STATUS_STATE, 2), (lomR 1, LOM_STATUS_SLEW, 1)] (fun x => { x with slew := some (1/10^12, 50)})), 1, by dsimp only; decide +kernel⟩⟩

theorem witness_LoomsSearchAndLock_T7_2 :
    ∃ (s : State) (n : Nat), n < s.nLom ∧ s.slewLeft n ≠ 0 :=
  ⟨(lm [(lomR 1, LOM_STATUS_STATE, 2), (lomR 1, LOM_STATUS_SLEW, 1)] (fun x => { x with slew := some (1, 50)})), 1, by decide +kernel⟩

theorem witness_OutputsStartAndReset_T7_0 :
    (∃ (s : State) (g o : Nat), g < 8 ∧ o < s.nOut ∧ 8 * g < s.nOut ∧ s.on (bankR g) OUT_BANK_STATUS_BSUB_V = true ∧ s.on (bankR g) OUT_BANK_STATUS_BRDY = false ∧ (s.bridgeSt g).since + 64 ≤ s.prism.tick) ∧
    (∃ (s : State) (g o : Nat), g < 8 ∧ o < s.nOut ∧ 8 * g < s.nOut ∧ s.on (bankR g) OUT_BANK_STATUS_BSUB_V = true ∧ s.on (bankR g) OUT_BANK_STATUS_BRDY = false ∧ s.prism.tick < (s.bridgeSt g).since + 64) ∧
    (∃ (s : State) (g o after k : Nat) (r : Int), g < 8 ∧ o < s.nOut ∧ s.outSrc o < 8 ∧ (s.outSt o).rise = some r ∧ (s.outState o = 5 ∨ (s.outSt o).resetting = some k) ∧ (r : Rat) ≤ s.loomHalf (s.outSrc o) after ∧ (s.outSt o).resetting = some k) ∧
    (∃ (s : State) (g o after k : Nat) (r : Int), g < 8 ∧ o < s.nOut ∧ s.outSrc o < 8 ∧ (s.outSt o).rise = some r ∧ (s.outState o = 5 ∨ (s.outSt o).resetting = some k) ∧ (r : Rat) ≤ s.loomHalf (s.outSrc o) after ∧ (s.outSt o).resetting = none) ∧
    (∃ (s : State) (g o after k : Nat) (r : Int), g < 8 ∧ o < s.nOut ∧ s.outSrc o < 8 ∧ (s.outSt o).rise = some r ∧ (s.outState o = 5 ∨ (s.outSt o).resetting = some k) ∧ s.loomHalf (s.outSrc o) after < (r : Rat)) ∧
    (∃ (s : State) (g o after : Nat), g < 8 ∧ o < s.nOut ∧ s.bypassDue o (s.oscS after) = true) :=
  ⟨⟨(ot [(bankR 1, OUT_BANK_STATUS_BSUB_V, 1)] id), 1, 9, by decide +kernel⟩,
   ⟨(ot [(bankR 1, OUT_BANK_STATUS_BSUB_V, 1)] id 99), 1, 9, by decide +kernel⟩,
   ⟨(ot [(outR 9, OUT_CFG_SRC, 1), (outR 9, OUT_STATUS_STATE, 1), (outR 9, OUT_STATUS_PLOST, 1), (tcdR, TCD_SG_STATUS_ACTIVE, 255)] (fun x => {x with rise := some (-7), resetting := some 1})), 1, 9, 10, 1, (-7), by decide +kernel⟩,
   ⟨(ot [(outR 9, OUT_CFG_SRC, 1), (outR 9, OUT_STATUS_STATE, 5), (outR 9, OUT_STATUS_PLOST, 1)] (fun x => {x with rise := some (-7), fmove := some (0, 7)})), 1, 9, 10, 1, (-7), by decide +kernel⟩,
   ⟨(ot [(outR 9, OUT_CFG_SRC, 1), (outR 9, OUT_STATUS_STATE, 1), (outR 9, OUT_STATUS_PLOST, 1), (tcdR, TCD_SG_STATUS_ACTIVE, 255)] (fun x => {x with rise := some 1000000000000000000000, resetting := some 1})), 2, 9, 10, 1, 1000000000000000000000, by decide +kernel⟩,
   ⟨(ot [(outR 9, OUT_CFG_SRC, 8), (outR 9, OUT_STATUS_STATE, 5)] (fun x => { x with src := 8, low := -50 })), 1, 9, 10, by decide +kernel⟩⟩

theorem witness_OutputsStartAndReset_T7_1 :
    (∃ (s : State) (g o : Nat) (t0 p0 : Rat), g < 8 ∧ o < s.nOut ∧
      let way : Rat := (s.get (outR o) OUT_DLY_FDLY : Rat) - p0
      let gone : Rat := ratMax 0 (s.oscS s.tickLeftUnits - t0) * 100000000
      (s.outSt o).fmove = some (t0, p0) ∧ gone < |way|) ∧
    (∃ (s : State) (g o : Nat) (t0 p0 : Rat), g < 8 ∧ o < s.nOut ∧
      let way : Rat := (s.get (outR o) OUT_DLY_FDLY : Rat) - p0
      let gone : Rat := ratMax 0 (s.oscS s.tickLeftUnits - t0) * 100000000
      (s.outSt o).fmove = some (t0, p0) ∧ |way| ≤ gone) ∧
    (∃ (s : State) (g o : Nat), g < 8 ∧ o < s.nOut ∧ (s.outSt o).fmove = none) ∧
    (∃ (s : State) (g o : Nat), g < 8 ∧ o < s.nOut ∧ s.on tcdR (TCD_SG_STATUS_ACTIVE.bit g) = true ∧ (∀ x ∈ s.out, x.resetting ≠ some g)) ∧
    (∃ (s : State) (g o : Nat), g < 8 ∧ o < s.nOut ∧ s.on tcdR (TCD_SG_STATUS_ACTIVE.bit g) = true ∧ (∃ x ∈ s.out, x.resetting = some g)) ∧
    (∃ (s : State) (g o : Nat), g < 8 ∧ o < s.nOut ∧ s.mode < 3) :=
  ⟨⟨(ot [] (fun x => { x with fmove := some (0, 1000000) })), 2, 9, 0, 1000000, by dsimp only; decide +kernel⟩,
   ⟨(ot [(outR 9, OUT_CFG_SRC, 1), (outR 9, OUT_STATUS_STATE, 5), (outR 9, OUT_STATUS_PLOST, 1)] (fun x => {x with rise := some (-7), fmove := some (0, 7)})), 1, 9, 0, 7, by dsimp only; decide +kernel⟩,
   ⟨(ot [(bankR 1, OUT_BANK_STATUS_BSUB_V, 1)] id), 1, 9, by decide +kernel⟩,
   ⟨(ot [(outR 9, OUT_CFG_SRC, 1), (outR 9, OUT_STATUS_STATE, 1), (outR 9, OUT_STATUS_PLOST, 1), (tcdR, TCD_SG_STATUS_ACTIVE, 255)] (fun x => {x with rise := some 1000000000000000000000, resetting := some 1})), 2, 9, by decide +kernel⟩,
   ⟨(ot [(outR 9, OUT_CFG_SRC, 1), (outR 9, OUT_STATUS_STATE, 1), (outR 9, OUT_STATUS_PLOST, 1), (tcdR, TCD_SG_STATUS_ACTIVE, 255)] (fun x => {x with rise := some (-7), resetting := some 1})), 1, 9, by decide +kernel⟩,
   ⟨(M 2 []), 1, 9, by decide +kernel⟩⟩

theorem witness_OutputsStartAndReset_T7_2 :
    (∃ (s : State) (g o after : Nat), g < 8 ∧ o < s.nOut ∧ 3 ≤ s.mode ∧
      let u := (List.range 8).foldl State.sgEnd ((List.range s.nOut).foldl (fun v j => if v.firstDue j after then v.firstEdge j else v) s)
      let free := (List.range 8).filter (fun j => u.on tcdR (TCD_SG_CTL_ARM.bit j) && !u.on tcdR (TCD_SG_STATUS_ACTIVE.bit j))
      free = []) ∧
    (∃ (s : State) (g o after : Nat), g < 8 ∧ o < s.nOut ∧ 3 ≤ s.mode ∧
      let u := (List.range 8).foldl State.sgEnd ((List.range s.nOut).foldl (fun v j => if v.firstDue j after then v.firstEdge j else v) s)
      let free := (List.range 8).filter (fun j => u.on tcdR (TCD_SG_CTL_ARM.bit j) && !u.on tcdR (TCD_SG_STATUS_ACTIVE.bit j))
      free = [g] ∧ (∀ j, j < u.nOut → (u.on (outR j) OUT_CFG_SGEN && u.get (outR j) OUT_CFG_SG == g) = false)) ∧
    (∃ (s : State) (g o after : Nat), g < 8 ∧ o < s.nOut ∧ 3 ≤ s.mode ∧
      let u := (List.range 8).foldl State.sgEnd ((List.range s.nOut).foldl (fun v j => if v.firstDue j after then v.firstEdge j else v) s)
      let free := (List.range 8).filter (fun j => u.on tcdR (TCD_SG_CTL_ARM.bit j) && !u.on tcdR (TCD_SG_STATUS_ACTIVE.bit j))
      free = [g] ∧ (u.on (outR o) OUT_CFG_SGEN && u.get (outR o) OUT_CFG_SG == g) = true ∧ (u.outSt o).en = true ∧ u.outSrc o < 8 ∧ u.loomUsable (u.outSrc o) = true ∧ u.outState o = 1) :=
  ⟨⟨(ot [(bankR 1, OUT_BANK_STATUS_BSUB_V, 1)] id), 1, 9, 10, by dsimp only; decide +kernel⟩,
   ⟨(ot [(tcdR, TCD_SG_CTL_ARM, 4), (tcdR, TCD_SG_STATUS_ACTIVE, 255)] id), 2, 9, 10, by dsimp only; decide +kernel⟩,
   ⟨(ot [(outR 9, OUT_STATUS_STATE, 1), (outR 9, OUT_CFG_SGEN, 1), (outR 9, OUT_CFG_SG, 2), (tcdR, TCD_SG_CTL_ARM, 4), (tcdR, TCD_SG_CTL_ONCE, 4)] (fun x => { x with src := 1 })), 2, 9, 10, by dsimp only; decide +kernel⟩⟩

theorem witness_GeneratorsMakeTheirEdges :
    (∃ (s : State) (o : Nat) (q e : Int), o < s.nOut ∧ s.ppsOn = true ∧ s.ppsEdgeAt = some (q, e) ∧ s.tcd.last ≠ some q ∧ s.tcd.pulseEnd = none) ∧
    (∃ (s : State) (o : Nat) (q e : Int), o < s.nOut ∧ (s.ppsOn = false ∨ s.ppsEdgeAt = none ∨ s.tcd.last = some q ∧ s.ppsEdgeAt = some (q, e))) ∧
    (∃ (s : State) (o : Nat), o < s.nOut ∧ 6 ≤ s.mode ∧ bitsOf s.tcd.tc 0 1 = 1 ∧ s.ltc.ns = 0 ∧ s.tcd.frameSec ≠ some s.ltc.sec) ∧
    (∃ (s : State) (o : Nat), o < s.nOut ∧ (s.mode < 6 ∨ s.ltc.ns ≠ 0 ∨ s.tcd.frameSec = some s.ltc.sec)) :=
  ⟨⟨(ge 8 0 999 0x9 9), 3, 1000, 1000000000000, by decide +kernel⟩,
   ⟨(ge 8 31250 999 0x11 10), 3, 1000, 1000000000000, by decide +kernel⟩,
   ⟨(ge 8 0 999 0x9 9), 3, by decide +kernel⟩,
   ⟨(ge 8 31250 999 0x11 10), 3, by decide +kernel⟩⟩

end Sys2Proof.Tests.T7

namespace Sys2Proof.Tests.T8

set_option Elab.async false

def M (m : Nat) (l : List (Nat × Fld × Nat)) (s : State := State.reset) : State := S ((pwrR, PWR_STATUS_MODE, m) :: l) s
def le (l : List (Nat × Fld × Nat)) (last : Option Int) (f : BurstSt → BurstSt) : State := (({ M 8 l with ltc := { sec := 1000, ns := 31250 * 5, frac := 7 } }).setLensIn 1 (fun x => { x with last := last, ring := 3 })).setUnit 1 f
def raw1 : Int := (le [] none id).ltcRaw 500
def st0 : BurstStart := ⟨1, 0, 0, 0, 0, raw1 - 2^32 * 1000⟩
def stp : Stop := ⟨1, true, raw1 - 50000000000⟩
def ta (k n : Nat) (l : List (Nat × Fld × Nat)) (f : SenSt → SenSt) (edges : Nat := 0) : State := ((({ M 8 ([(tlyR 5, TLY_STATUS_STATE, 1), (tlyR 5, TLY_CFG_SRCK, 1), (tlyR 5, TLY_CFG_KIND, k), (tlyR 5, TLY_N_N, n), (senR, TLY_SEN_CFG_EN, 1), (senR, TLY_SEN_CFG_IN, 1)] ++ l) with ltc := { sec := 1000 } }).setMeas 5 (fun x => { x with samp := some (-7, true), samples := [(1,2),(3,4)], slotAt := 31999000 }))).setTally (fun t => { t with sen := f t.sen, work := List.replicate edges (1, 5) })

theorem witness_EdgesAreStamped_T8_0 :
    (∃ (s : State) (i pos u : Nat) (c : Crossing), i < s.nLns ∧ s.inTick pos = true ∧ u < 2 ∧
      let rising := c.rising
      let thr := signed (s.lensIn i).thr 12
      let switched := if rising = true then s.on (lniR i) LNS_IN_STATUS_LVL = false ∧ c.mv = thr else s.on (lniR i) LNS_IN_STATUS_LVL = true ∧ c.mv = thr - (s.lensIn i).hys
      (¬switched)) ∧
    (∃ (s : State) (i pos u : Nat) (c : Crossing), i < s.nLns ∧ s.inTick pos = true ∧ u < 2 ∧
      let rising := c.rising
      let thr := signed (s.lensIn i).thr 12
      let switched := if rising = true then s.on (lniR i) LNS_IN_STATUS_LVL = false ∧ c.mv = thr else s.on (lniR i) LNS_IN_STATUS_LVL = true ∧ c.mv = thr - (s.lensIn i).hys
      let sl := s.get (lniR i) LNS_IN_CFG_SLOPE
      let selected := sl = 2 ∨ sl = 3 ∨ (sl = 0 ∧ rising = true) ∨ (sl = 1 ∧ rising = false)
      let live := 7 ≤ s.mode ∧ s.mode ≤ 12 ∧ s.on pwrR PWR_STATUS_CHG = false ∧ s.on (lniR i) LNS_IN_CFG_EN = true
      switched ∧ (¬(selected ∧ live))) ∧
    (∃ (s : State) (i pos u : Nat) (c : Crossing) (l : Int), i < s.nLns ∧ s.inTick pos = true ∧ u < 2 ∧
      let rising := c.rising
      let thr := signed (s.lensIn i).thr 12
      let switched := if rising = true then s.on (lniR i) LNS_IN_STATUS_LVL = false ∧ c.mv = thr else s.on (lniR i) LNS_IN_STATUS_LVL = true ∧ c.mv = thr - (s.lensIn i).hys
      let now : Int := (s.ltcRaw pos : Int) - s.ltc.stepped
      let sl := s.get (lniR i) LNS_IN_CFG_SLOPE
      let selected := sl = 2 ∨ sl = 3 ∨ (sl = 0 ∧ rising = true) ∨ (sl = 1 ∧ rising = false)
      let live := 7 ≤ s.mode ∧ s.mode ≤ 12 ∧ s.on pwrR PWR_STATUS_CHG = false ∧ s.on (lniR i) LNS_IN_CFG_EN = true
      switched ∧ selected ∧ live ∧ ((s.lensIn i).last = none ∨ (s.lensIn i).last = some l ∧ 2 * 2 ^ 32 ≤ now - l) ∧ s.on (lniR i) LNS_IN_CFG_STREAM = false) ∧
    (∃ (s : State) (i pos u : Nat) (c : Crossing) (l : Int), i < s.nLns ∧ s.inTick pos = true ∧ u < 2 ∧
      let rising := c.rising
      let thr := signed (s.lensIn i).thr 12
      let switched := if rising = true then s.on (lniR i) LNS_IN_STATUS_LVL = false ∧ c.mv = thr else s.on (lniR i) LNS_IN_STATUS_LVL = true ∧ c.mv = thr - (s.lensIn i).hys
      let now : Int := (s.ltcRaw pos : Int) - s.ltc.stepped
      let sl := s.get (lniR i) LNS_IN_CFG_SLOPE
      let selected := sl = 2 ∨ sl = 3 ∨ (sl = 0 ∧ rising = true) ∨ (sl = 1 ∧ rising = false)
      let live := 7 ≤ s.mode ∧ s.mode ≤ 12 ∧ s.on pwrR PWR_STATUS_CHG = false ∧ s.on (lniR i) LNS_IN_CFG_EN = true
      switched ∧ selected ∧ live ∧ ((s.lensIn i).last = none ∨ (s.lensIn i).last = some l ∧ 2 * 2 ^ 32 ≤ now - l) ∧ s.on (lniR i) LNS_IN_CFG_STREAM = true) ∧
    (∃ (s : State) (i pos u : Nat) (c : Crossing) (l : Int), i < s.nLns ∧ s.inTick pos = true ∧ u < 2 ∧
      let rising := c.rising
      let thr := signed (s.lensIn i).thr 12
      let switched := if rising = true then s.on (lniR i) LNS_IN_STATUS_LVL = false ∧ c.mv = thr else s.on (lniR i) LNS_IN_STATUS_LVL = true ∧ c.mv = thr - (s.lensIn i).hys
      let now : Int := (s.ltcRaw pos : Int) - s.ltc.stepped
      let sl := s.get (lniR i) LNS_IN_CFG_SLOPE
      let selected := sl = 2 ∨ sl = 3 ∨ (sl = 0 ∧ rising = true) ∨ (sl = 1 ∧ rising = false)
      let live := 7 ≤ s.mode ∧ s.mode ≤ 12 ∧ s.on pwrR PWR_STATUS_CHG = false ∧ s.on (lniR i) LNS_IN_CFG_EN = true
      let idle := s.unitState 0 = 0 ∧ s.unitState 1 = 0
      switched ∧ selected ∧ live ∧ ((s.lensIn i).last = none ∨ (s.lensIn i).last = some l ∧ 2 * 2 ^ 32 ≤ now - l) ∧ idle) ∧
    (∃ (s : State) (i pos u : Nat) (c : Crossing) (l : Int), i < s.nLns ∧ s.inTick pos = true ∧ u < 2 ∧
      let rising := c.rising
      let thr := signed (s.lensIn i).thr 12
      let switched := if rising = true then s.on (lniR i) LNS_IN_STATUS_LVL = false ∧ c.mv = thr else s.on (lniR i) LNS_IN_STATUS_LVL = true ∧ c.mv = thr - (s.lensIn i).hys
      let now : Int := (s.ltcRaw pos : Int) - s.ltc.stepped
      let sl := s.get (lniR i) LNS_IN_CFG_SLOPE
      let selected := sl = 2 ∨ sl = 3 ∨ (sl = 0 ∧ rising = true) ∨ (sl = 1 ∧ rising = false)
      let live := 7 ≤ s.mode ∧ s.mode ≤ 12 ∧ s.on pwrR PWR_STATUS_CHG = false ∧ s.on (lniR i) LNS_IN_CFG_EN = true
      switched ∧ selected ∧ live ∧ (s.lensIn i).last = some l ∧ now - l < 2 * 2 ^ 32) :=
  ⟨⟨(le [(lniR 1, LNS_IN_CFG_EN, 1)] none id), 1, 500, 1, (⟨true, 5⟩), by dsimp only; decide +kernel⟩,
   ⟨(le [(lniR 1, LNS_IN_STATUS_LVL, 1), (lniR 1, LNS_IN_CFG_EN, 1), (lniR 1, LNS_IN_CFG_STREAM, 1)] none id), 1, 500, 1, (⟨false, -10⟩), by dsimp only; decide +kernel⟩,
   ⟨(le [(lniR 1, LNS_IN_STATUS_LVL, 1), (lniR 1, LNS_IN_CFG_EN, 1), (lniR 1, LNS_IN_CFG_SLOPE, 2), (lniR 1, LNS_IN_CFG_STREAM, 0)] (some (raw1 - 2^33)) id), 1, 500, 1, (⟨false, -10⟩), (raw1 - 2^33), by dsimp only; decide +kernel⟩,
   ⟨(le [(lniR 1, LNS_IN_CFG_EN, 1), (lniR 1, LNS_IN_CFG_STREAM, 1)] none id), 1, 500, 1, (⟨true, 0⟩), 5, by dsimp only; decide +kernel⟩,
   ⟨(le [(lniR 1, LNS_IN_CFG_EN, 1), (lniR 1, LNS_IN_CFG_STREAM, 1)] none id), 1, 500, 1, (⟨true, 0⟩), 5, by dsimp only; decide +kernel⟩,
   ⟨(le [(lniR 1, LNS_IN_STATUS_LVL, 1), (lniR 1, LNS_IN_CFG_EN, 1), (lniR 1, LNS_IN_CFG_SLOPE, 2), (lniR 1, LNS_IN_CFG_STREAM, 0)] (some (raw1 - 2^33 + 1)) id), 1, 500, 1, (⟨false, -10⟩), (raw1 - 2^33+1), by dsimp only; decide +kernel⟩⟩

theorem witness_EdgesAreStamped_T8_1 :
    (∃ (s : State) (i pos u : Nat) (c : Crossing), i < s.nLns ∧ s.inTick pos = true ∧ u < 2 ∧
      let rising := c.rising
      let thr := signed (s.lensIn i).thr 12
      let switched := if rising = true then s.on (lniR i) LNS_IN_STATUS_LVL = false ∧ c.mv = thr else s.on (lniR i) LNS_IN_STATUS_LVL = true ∧ c.mv = thr - (s.lensIn i).hys
      let sl := s.get (lniR i) LNS_IN_CFG_SLOPE
      let selected := sl = 2 ∨ sl = 3 ∨ (sl = 0 ∧ rising = true) ∨ (sl = 1 ∧ rising = false)
      let live := 7 ≤ s.mode ∧ s.mode ≤ 12 ∧ s.on pwrR PWR_STATUS_CHG = false ∧ s.on (lniR i) LNS_IN_CFG_EN = true
      let x := s.unit u
      switched ∧ selected ∧ live ∧ (∀ y ∈ x.last, y.1 ≠ i) ∧ s.unitState u = 1 ∧ x.start = i ∧ x.hist = []) ∧
    (∃ (s : State) (i pos u : Nat) (c : Crossing), i < s.nLns ∧ s.inTick pos = true ∧ u < 2 ∧
      let rising := c.rising
      let thr := signed (s.lensIn i).thr 12
      let switched := if rising = true then s.on (lniR i) LNS_IN_STATUS_LVL = false ∧ c.mv = thr else s.on (lniR i) LNS_IN_STATUS_LVL = true ∧ c.mv = thr - (s.lensIn i).hys
      let now : Int := (s.ltcRaw pos : Int) - s.ltc.stepped
      let sl := s.get (lniR i) LNS_IN_CFG_SLOPE
      let selected := sl = 2 ∨ sl = 3 ∨ (sl = 0 ∧ rising = true) ∨ (sl = 1 ∧ rising = false)
      let live := 7 ≤ s.mode ∧ s.mode ≤ 12 ∧ s.on pwrR PWR_STATUS_CHG = false ∧ s.on (lniR i) LNS_IN_CFG_EN = true
      let x := s.unit u
      switched ∧ selected ∧ live ∧ (∀ y ∈ x.last, y.1 ≠ i) ∧ s.unitState u = 2 ∧ s.burstOver u now = false ∧ x.stops / 2 ^ i % 2 = 1 ∧ x.got.length < 64) ∧
    (∃ (s : State) (i pos u : Nat) (c : Crossing), i < s.nLns ∧ s.inTick pos = true ∧ u < 2 ∧
      let rising := c.rising
      let thr := signed (s.lensIn i).thr 12
      let switched := if rising = true then s.on (lniR i) LNS_IN_STATUS_LVL = false ∧ c.mv = thr else s.on (lniR i) LNS_IN_STATUS_LVL = true ∧ c.mv = thr - (s.lensIn i).hys
      let sl := s.get (lniR i) LNS_IN_CFG_SLOPE
      let selected := sl = 2 ∨ sl = 3 ∨ (sl = 0 ∧ rising = true) ∨ (sl = 1 ∧ rising = false)
      let live := 7 ≤ s.mode ∧ s.mode ≤ 12 ∧ s.on pwrR PWR_STATUS_CHG = false ∧ s.on (lniR i) LNS_IN_CFG_EN = true
      let x := s.unit u
      switched ∧ selected ∧ live ∧ (∀ y ∈ x.last, y.1 ≠ i) ∧ s.unitState u = 3) ∧
    (∃ (s : State) (i pos u j : Nat), i < s.nLns ∧ s.inTick pos = true ∧ u < 2 ∧
      let now : Int := (s.ltcRaw pos : Int) - s.ltc.stepped
      s.burstOver u (now + 1) = true ∧ j ≠ u) ∧
    (∃ (s : State) (i pos u : Nat), i < s.nLns ∧ s.inTick pos = true ∧ u < 2 ∧
      let now : Int := (s.ltcRaw pos : Int) - s.ltc.stepped
      s.burstOver u (now + 1) = false) :=
  ⟨⟨(le [(lniR 1, LNS_IN_CFG_EN, 1), (bstR 1, LNS_BST_STATUS_STATE, 1)] none (fun b => { b with start := 1 })), 1, 500, 1, (⟨true, 0⟩), by dsimp only; decide +kernel⟩,
   ⟨(le [(lniR 1, LNS_IN_CFG_EN, 1), (bstR 1, LNS_BST_STATUS_STATE, 2)] none (fun b => { b with stops := 2, burst := some st0 })), 1, 500, 1, (⟨true, 0⟩), by dsimp only; decide +kernel⟩,
   ⟨(le [(lniR 1, LNS_IN_CFG_EN, 1), (bstR 1, LNS_BST_STATUS_STATE, 3)] none (fun b => { b with stops := 2, burst := some st0, got := List.replicate 63 stp })), 1, 500, 1, (⟨true, 0⟩), by dsimp only; decide +kernel⟩,
   ⟨(le [(lniR 1, LNS_IN_CFG_EN, 1), (bstR 1, LNS_BST_STATUS_STATE, 2)] none (fun b => { b with win := 999, stops := 2, burst := some st0, got := List.replicate 63 stp })), 1, 500, 1, 0, by dsimp only; decide +kernel⟩,
   ⟨(le [(lniR 1, LNS_IN_CFG_EN, 1), (lniR 1, LNS_IN_CFG_STREAM, 1)] none id), 1, 500, 1, by dsimp only; decide +kernel⟩⟩

theorem witness_TallyWindowsClose_T8_0 :
    (∃ (s : State) (m : Nat) (x : Int) (sp : Bool), m < 64 ∧
      let y := s.meas m
      let runs := s.tallyRuns = true ∧ y.absorbed = false ∧ s.tmState m = 1 ∧ s.get (tlyR m) TLY_CFG_SRCK = 1 ∧ y.samp = some (x, sp)
      runs ∧ s.tmKind m = 0 ∧ s.get (tlyR m) TLY_N_N ≤ y.samples.length + 1) ∧
    (∃ (s : State) (m : Nat) (x : Int) (sp : Bool), m < 64 ∧
      let y := s.meas m
      let runs := s.tallyRuns = true ∧ y.absorbed = false ∧ s.tmState m = 1 ∧ s.get (tlyR m) TLY_CFG_SRCK = 1 ∧ y.samp = some (x, sp)
      runs ∧ s.tmKind m = 0 ∧ y.samples.length + 1 < s.get (tlyR m) TLY_N_N) ∧
    (∃ (s : State) (m e : Nat) (x : Int) (sp : Bool), m < 64 ∧
      let y := s.meas m
      let runs := s.tallyRuns = true ∧ y.absorbed = false ∧ s.tmState m = 1 ∧ s.get (tlyR m) TLY_CFG_SRCK = 1 ∧ y.samp = some (x, sp)
      runs ∧ s.tmKind m = 1 ∧ s.edgeDue m s.tn = some e) ∧
    (∃ (s : State) (m w : Nat), m < 64 ∧
      let z := s.tally.sen
      let us := s.tally.work.filter (fun p => p.1 == s.get senR TLY_SEN_CFG_IN)
      s.senOn = true ∧ z.absorbed = false ∧ z.winAt = some w ∧ 0 < s.get senR TLY_SEN_GATE_GATE ∧ w + 32 * s.get senR TLY_SEN_GATE_GATE ≤ s.tn ∧ (z.lost = true ∨ z.edges.length + us.length < 3)) ∧
    (∃ (s : State) (m w : Nat), m < 64 ∧
      let z := s.tally.sen
      s.senOn = true ∧ z.absorbed = false ∧ z.winAt = some w ∧ 0 < s.get senR TLY_SEN_GATE_GATE ∧ s.tn < w + 32 * s.get senR TLY_SEN_GATE_GATE) ∧
    (∃ (s : State) (m v : Nat), m < 64 ∧
      let z := s.tally.sen
      s.senOn = true ∧ z.last = some v ∧
      let limit : Rat := (v : Rat) + 8 * s.senHalf
      let waits := ((if z.absorbed then [] else s.tally.work) ++ s.tally.stamps).filter (fun p => p.1 == s.get senR TLY_SEN_CFG_IN)
      let used := fun (p : Nat × Nat) => s.senHalf ≤ (p.2 : Rat) - v ∧ (p.2 : Rat) < limit
      z.lost = false ∧ limit < (s.ltcRaw s.tickRest : Rat) ∧ (∀ p ∈ waits, ¬used p)) :=
  ⟨⟨(ta 0 3 [] id), 5, (-7), true, by dsimp only; decide +kernel⟩,
   ⟨(ta 0 4 [] id), 5, (-7), true, by dsimp only; decide +kernel⟩,
   ⟨(ta 1 4 [] id), 5, 32000000, (-7), true, by dsimp only; decide +kernel⟩,
   ⟨(ta 1 4 [] (fun x => { x with winAt := some 31968000, last := some 0, edges := [1,2] })), 5, 31968000, by dsimp only; decide +kernel⟩,
   ⟨(ta 1 4 [] (fun x => { x with winAt := some 31968001, last := some 1000000000000, edges := [1,2] })), 5, 31968001, by dsimp only; decide +kernel⟩,
   ⟨(ta 1 4 [] (fun x => { x with winAt := some 31968000, last := some 0, edges := [1,2] })), 5, 0, by dsimp only; decide +kernel⟩⟩

theorem witness_TallyWindowsClose_T8_1 :
    ∃ (s : State) (m v : Nat), m < 64 ∧
      let z := s.tally.sen
      s.senOn = true ∧ z.last = some v ∧
      let limit : Rat := (v : Rat) + 8 * s.senHalf
      let waits := ((if z.absorbed then [] else s.tally.work) ++ s.tally.stamps).filter (fun p => p.1 == s.get senR TLY_SEN_CFG_IN)
      let used := fun (p : Nat × Nat) => s.senHalf ≤ (p.2 : Rat) - v ∧ (p.2 : Rat) < limit
      (z.lost = true ∨ (s.ltcRaw s.tickRest : Rat) ≤ limit ∨ (∃ p ∈ waits, used p)) :=
  ⟨(ta 1 4 [] (fun x => { x with winAt := some 31968000, last := some 0, edges := [1,2,500], lost := true }) 2), 5, 0, by dsimp only; decide +kernel⟩

end Sys2Proof.Tests.T8

namespace Sys2Proof.Tests.T9

set_option Elab.async false

def M (m : Nat) (l : List (Nat × Fld × Nat)) (s : State := State.reset) : State := S ((pwrR, PWR_STATUS_MODE, m) :: l) s
def fcs (l : List Byte) : List Byte := l ++ leBytes 4 (crc32 l)
def pt (clk pnum : Nat) (two : Bool) (ts : Int := 0) (rclk : Nat := 0) (rp : Nat := 2) (corr : Int := 5) : PtpIn := ⟨1, 0, 0, 2, 0, 7, clk, pnum, 3, corr, 2, two, ts, rclk, rp, 1000, fcs (List.replicate 60 0#8)⟩
def hs (prof : Nat) (l : List (Nat × Fld × Nat)) (f : PiSt → PiSt) (g : State → State := id) : State :=
  g (({ M 8 ([(piR 2, HRD_PI_CFG_EN, 1), (piR 2, HRD_PI_CFG_PORTS, 2), (piR 2, HRD_PI_CFG_PROFILE, prof), (hrpR 1, HRD_PORT_STATUS_LINK, 1)] ++ l) with ltc := { sec := 1000, ns := 31250 * 5, frac := 7 } , prism := { tick := 70000 } }).setPi 2 (fun x => f { x with on := true, parent := some ⟨1, 77, 1, none, {}⟩ }))
def dm := (hs 0 [] id)
def P1 : Parent := ⟨1, 77, 1, none, {}⟩
def E := fun (s : State) (m : PtpIn) (d ms t2 y t4 t2p cp : Int) (w : SyncWait) (dq : DelayReq) => (s, m, d, ms, t2, y, t4, t2p, cp, w, dq)
def tI : Int := dm.ingress (pt 77 1 false)
def tr : Nat := dm.get (piR 2) HRD_PI_CFG_TRANS
def mm (two : Bool) (ts : Int := 0) (rclk : Nat := 0) (rp : Nat := 2) (corr : Int := 5) : PtpIn := { pt 77 1 two ts rclk rp corr with trans := tr }
def stp (s : State) : State := { s with ltc := { s.ltc with steps := [1000*10^9] } }
def rq : DelayReq := ⟨1, 3, 4000, none⟩
def rqf : DelayReq := ⟨1, 3, 4000, some (9000, 4100, 8)⟩
def yy : Int := qdiv (600 + (7001 - 4000 - 5)) 2
def idn : Nat := dm.piId 2
def mp (two : Bool) (ts : Int := 0) := { mm two ts idn with dst := 1 }

theorem witness_ExchangesAreFormed_T9_0 :
    (∃ (s : State) (p : Nat), p < s.nHrd ∧ s.portTrains p = true) ∧
    (∃ (s : State) (p k : Nat), 
      let x := s.pi k
      p < s.nHrd ∧ s.portLink p = true ∧ k < 8 ∧ x.on = true ∧ s.piUses k p = true ∧ 6 ≤ s.mode) ∧
    (∃ (s : State) (p : Nat), p < s.nHrd ∧ s.portTrains p = false) ∧
    (∃ (s : State) (m : PtpIn) (k : Nat) (par : Parent) (d : Int), 
      let x := s.pi k
      let taken := fun (peer : Bool) => s.hears m.port m.raw = true ∧ s.piMatch m peer = some k ∧ s.piUnicast k = false
      let parent := x.parent = some par ∧ par.port = m.port
      let mine := parent ∧ par.clk = m.clk ∧ par.pnum = m.pnum
      let inTime := s.stepBetween m.ts (s.ingress m) = false
      taken false ∧ mine ∧ m.twoStep = false ∧ x.mpd = some d ∧ x.outl = none ∧ inTime) ∧
    (∃ (s : State) (m : PtpIn) (k : Nat) (par : Parent), 
      let x := s.pi k
      let taken := fun (peer : Bool) => s.hears m.port m.raw = true ∧ s.piMatch m peer = some k ∧ s.piUnicast k = false
      let parent := x.parent = some par ∧ par.port = m.port
      let mine := parent ∧ par.clk = m.clk ∧ par.pnum = m.pnum
      taken false ∧ mine ∧ m.twoStep = true) ∧
    (∃ (s : State) (m : PtpIn) (k : Nat) (par : Parent) (d t2 : Int) (w : SyncWait), 
      let x := s.pi k
      let taken := fun (peer : Bool) => s.hears m.port m.raw = true ∧ s.piMatch m peer = some k ∧ s.piUnicast k = false
      let parent := x.parent = some par ∧ par.port = m.port
      let mine := parent ∧ par.clk = m.clk ∧ par.pnum = m.pnum
      taken false ∧ mine ∧ x.syncs.find? (fun v => v.seq == m.seq) = some w ∧ x.mpd = some d ∧ x.outl = none ∧ s.stepBetween m.ts w.t2 = false) :=
  ⟨⟨(hs 0 [(hrpR 1, HRD_PORT_CFG_EN, 1), (hrpR 1, HRD_PORT_CFG_MODE, 3)] (fun x => { x with mpd := some 500, syncs := [⟨1,2,3⟩, ⟨3, 99, 5⟩] })), 1, by decide +kernel⟩,
   ⟨(hs 0 [] (fun x => { x with mpd := some 500 })), 1, 2, by dsimp only; decide +kernel⟩,
   ⟨(hs 0 [] (fun x => { x with mpd := some 500 })), 1, by decide +kernel⟩,
   ⟨(hs 0 [] (fun x => { x with mpd := some 500 })), (mm false (tI - 7000)), 2, P1, 500, by dsimp only; decide +kernel⟩,
   ⟨(hs 0 [(hrpR 1, HRD_PORT_CFG_EN, 1), (hrpR 1, HRD_PORT_CFG_MODE, 3)] (fun x => { x with mpd := some 500, syncs := [⟨1,2,3⟩, ⟨3, 99, 5⟩] })), (mm true (tI - 7000)), 2, P1, by dsimp only; decide +kernel⟩,
   ⟨(hs 0 [(hrpR 1, HRD_PORT_CFG_EN, 1), (hrpR 1, HRD_PORT_CFG_MODE, 3)] (fun x => { x with mpd := some 500, syncs := [⟨1,2,3⟩, ⟨3, 99, 5⟩] })), (mm true (tI - 7000)), 2, P1, 500, 0, (⟨3,99,5⟩), by dsimp only; decide +kernel⟩⟩

theorem witness_ExchangesAreFormed_T9_1 :
    (∃ (s : State) (m : PtpIn) (k : Nat), 
      let taken := fun (peer : Bool) => s.hears m.port m.raw = true ∧ s.piMatch m peer = some k ∧ s.piUnicast k = false
      taken false ∧ s.piP2P k = false ∧ s.ps k m.port = 6) ∧
    (∃ (s : State) (m : PtpIn) (k : Nat), 
      let taken := fun (peer : Bool) => s.hears m.port m.raw = true ∧ s.piMatch m peer = some k ∧ s.piUnicast k = false
      taken false ∧ (s.piP2P k = true ∨ s.ps k m.port ≠ 6)) ∧
    (∃ (s : State) (m : PtpIn) (k : Nat), 
      let taken := fun (peer : Bool) => s.hears m.port m.raw = true ∧ s.piMatch m peer = some k ∧ s.piUnicast k = false
      taken true ∧ (s.piP2P k = false ∨ s.ps k m.port = 2 ∨ s.ps k m.port = 3 ∨ s.silent k m.port = true)) ∧
    (∃ (s : State) (m : PtpIn) (k : Nat), 
      let taken := fun (peer : Bool) => s.hears m.port m.raw = true ∧ s.piMatch m peer = some k ∧ s.piUnicast k = false
      taken true ∧ s.piP2P k = true ∧ s.ps k m.port ≠ 2 ∧ s.ps k m.port ≠ 3 ∧ s.silent k m.port = false) ∧
    (∃ (s : State) (m : PtpIn) (k : Nat) (par : Parent) (ms t2 y : Int) (dq : DelayReq), 
      let x := s.pi k
      let taken := fun (peer : Bool) => s.hears m.port m.raw = true ∧ s.piMatch m peer = some k ∧ s.piUnicast k = false
      let parent := x.parent = some par ∧ par.port = m.port
      let mine := parent ∧ par.clk = m.clk ∧ par.pnum = m.pnum
      let answers := m.rclk = s.piId k ∧ m.rpnum = m.port + 1
      taken false ∧ mine ∧ answers ∧ x.dreqs.find? (fun v => v.port == m.port && v.seq == m.seq) = some dq ∧ x.ms = some (ms, t2) ∧ s.stepBetween t2 dq.sent = false ∧ s.stepBetween dq.sent t2 = false ∧ y = qdiv (ms + (m.ts - dq.sent - m.corr)) 2 ∧ x.mpd = none) ∧
    (∃ (s : State) (m : PtpIn) (k : Nat) (par : Parent) (d ms t2 y : Int) (dq : DelayReq), 
      let x := s.pi k
      let taken := fun (peer : Bool) => s.hears m.port m.raw = true ∧ s.piMatch m peer = some k ∧ s.piUnicast k = false
      let parent := x.parent = some par ∧ par.port = m.port
      let mine := parent ∧ par.clk = m.clk ∧ par.pnum = m.pnum
      let answers := m.rclk = s.piId k ∧ m.rpnum = m.port + 1
      let pstep : Int := s.get (pjR k) HRD_PI_PATH_PSTEP * 65536
      taken false ∧ mine ∧ answers ∧ x.dreqs.find? (fun v => v.port == m.port && v.seq == m.seq) = some dq ∧ x.ms = some (ms, t2) ∧ s.stepBetween t2 dq.sent = false ∧ s.stepBetween dq.sent t2 = false ∧ y = qdiv (ms + (m.ts - dq.sent - m.corr)) 2 ∧ x.mpd = some d ∧ |y - d| ≤ pstep) :=
  ⟨⟨(hs 0 [(piR 2, HRD_PI_STATUS_PS, 0x60)] (fun x => { x with mpd := some 500 })), (mm false (tI - 7000)), 2, by dsimp only; decide +kernel⟩,
   ⟨(hs 0 [] (fun x => { x with mpd := some 500 })), (mm false (tI - 7000)), 2, by dsimp only; decide +kernel⟩,
   ⟨(hs 0 [] id), (mp false 0), 2, by dsimp only; decide +kernel⟩,
   ⟨(hs 1 [] (fun x => { x with dreqs := [⟨0,3,1,none⟩, rqf] })), (mp false 7000), 2, by dsimp only; decide +kernel⟩,
   ⟨(hs 0 [] (fun x => { x with dreqs := [⟨0,3,1,none⟩, rq], ms := some (600, 5000) })), (mm false 7001 idn), 2, P1, 600, 5000, yy, rq, by dsimp only; decide +kernel⟩,
   ⟨(hs 0 [] (fun x => { x with mpd := some 500, dreqs := [⟨0,3,1,none⟩, rq], ms := some (600, 5000) })), (mm false 7001 idn), 2, P1, 500, 600, 5000, yy, rq, by dsimp only; decide +kernel⟩⟩

theorem witness_ExchangesAreFormed_T9_2 :
    (∃ (s : State) (m : PtpIn) (k : Nat) (par : Parent) (d ms t2 y : Int) (dq : DelayReq), 
      let x := s.pi k
      let taken := fun (peer : Bool) => s.hears m.port m.raw = true ∧ s.piMatch m peer = some k ∧ s.piUnicast k = false
      let parent := x.parent = some par ∧ par.port = m.port
      let mine := parent ∧ par.clk = m.clk ∧ par.pnum = m.pnum
      let answers := m.rclk = s.piId k ∧ m.rpnum = m.port + 1
      let pstep : Int := s.get (pjR k) HRD_PI_PATH_PSTEP * 65536
      taken false ∧ mine ∧ answers ∧ x.dreqs.find? (fun v => v.port == m.port && v.seq == m.seq) = some dq ∧ x.ms = some (ms, t2) ∧ s.stepBetween t2 dq.sent = false ∧ s.stepBetween dq.sent t2 = false ∧ y = qdiv (ms + (m.ts - dq.sent - m.corr)) 2 ∧ x.mpd = some d ∧ pstep < |y - d| ∧ x.outl = none) ∧
    (∃ (s : State) (m : PtpIn) (k : Nat) (par : Parent) (dq : DelayReq), 
      let x := s.pi k
      let taken := fun (peer : Bool) => s.hears m.port m.raw = true ∧ s.piMatch m peer = some k ∧ s.piUnicast k = false
      let parent := x.parent = some par ∧ par.port = m.port
      let answers := m.rclk = s.piId k ∧ m.rpnum = m.port + 1
      taken true ∧ parent ∧ s.piP2P k = true ∧ answers ∧ x.dreqs.find? (fun v => v.port == m.port && v.seq == m.seq) = some dq ∧ x.mpd = none ∧ m.twoStep = true) ∧
    (∃ (s : State) (m : PtpIn) (k : Nat) (par : Parent) (dq : DelayReq), 
      let x := s.pi k
      let taken := fun (peer : Bool) => s.hears m.port m.raw = true ∧ s.piMatch m peer = some k ∧ s.piUnicast k = false
      let parent := x.parent = some par ∧ par.port = m.port
      let answers := m.rclk = s.piId k ∧ m.rpnum = m.port + 1
      taken true ∧ parent ∧ s.piP2P k = true ∧ answers ∧ x.dreqs.find? (fun v => v.port == m.port && v.seq == m.seq) = some dq ∧ x.mpd = none ∧ m.twoStep = false ∧ s.stepBetween dq.sent (s.ingress m) = false) ∧
    (∃ (s : State) (m : PtpIn) (k : Nat) (par : Parent) (t4 t2p cp : Int) (dq : DelayReq), 
      let x := s.pi k
      let taken := fun (peer : Bool) => s.hears m.port m.raw = true ∧ s.piMatch m peer = some k ∧ s.piUnicast k = false
      let parent := x.parent = some par ∧ par.port = m.port
      let answers := m.rclk = s.piId k ∧ m.rpnum = m.port + 1
      taken true ∧ parent ∧ s.piP2P k = true ∧ answers ∧ x.dreqs.find? (fun v => v.port == m.port && v.seq == m.seq) = some dq ∧ x.mpd = none ∧ dq.resp = some (t4, t2p, cp) ∧ s.stepBetween dq.sent t4 = false) ∧
    (∃ (s : State) (m : PtpIn), s.hears m.port m.raw = true ∧ (s.on (hrpR m.port) HRD_PORT_CFG_PTPHOST = false ∨ m.version ≠ 2) ∧ s.piMatch m false = none) ∧
    (∃ (s : State) (m : PtpIn), s.hears m.port m.raw = true ∧ (s.on (hrpR m.port) HRD_PORT_CFG_PTPHOST = false ∨ m.version ≠ 2) ∧ s.piMatch m true = none) :=
  ⟨⟨(hs 0 [] (fun x => { x with mpd := some (-500*65536), dreqs := [⟨0,3,1,none⟩, rq], ms := some (600, 5000) })), (mm false 7001 idn), 2, P1, (-500*65536), 600, 5000, yy, rq, by dsimp only; decide +kernel⟩,
   ⟨(hs 1 [] (fun x => { x with dreqs := [⟨0,3,1,none⟩, rqf] })), (mp true 7000), 2, P1, rqf, by dsimp only; decide +kernel⟩,
   ⟨(hs 1 [] (fun x => { x with dreqs := [⟨0,3,1,none⟩, rqf] })), (mp false 7000), 2, P1, rqf, by dsimp only; decide +kernel⟩,
   ⟨(hs 1 [] (fun x => { x with dreqs := [⟨0,3,1,none⟩, rqf] })), (mp false 7000), 2, P1, 9000, 4100, 8, rqf, by dsimp only; decide +kernel⟩,
   ⟨(hs 1 [] (fun x => { x with dreqs := [⟨0,3,1,none⟩, rqf] })), (mp false 7000), by decide +kernel⟩,
   ⟨(hs 0 [] (fun x => { x with mpd := some 500 })), (mm false (tI - 7000)), by decide +kernel⟩⟩

theorem witness_ExchangesAreFormed_T9_3 :
    ∃ (s : State), s.heraldRuns = false :=
  ⟨(M 5 []), by decide +kernel⟩

end Sys2Proof.Tests.T9

namespace Sys2Proof.Tests.T10

set_option Elab.async false

def M (m : Nat) (l : List (Nat × Fld × Nat)) (s : State := State.reset) : State := S ((pwrR, PWR_STATUS_MODE, m) :: l) s
def hs (prof : Nat) (l : List (Nat × Fld × Nat)) (f : PiSt → PiSt) (g : State → State := id) : State :=
  g (({ M 8 ([(piR 2, HRD_PI_CFG_EN, 1), (piR 2, HRD_PI_CFG_PORTS, 2), (piR 2, HRD_PI_CFG_PROFILE, prof), (hrpR 1, HRD_PORT_STATUS_LINK, 1), (hrcR, HRD_SE_CFG_EN, 1), (hrcR, HRD_SE_SIZE_LOG2, 8)] ++ l) with ltc := { sec := 1000, ns := 31250 * 5, frac := 7 } , prism := { tick := 70000 } }).setPi 2 (fun x => f { x with on := true, parent := some ⟨1, 77, 1, none, {}⟩ }))
def tr : Nat := (hs 0 [] id).get (piR 2) HRD_PI_CFG_TRANS
def fcs (l : List Byte) : List Byte := l ++ leBytes 4 (crc32 l)
def mm (dst : Nat) : PtpIn := ⟨1, tr, dst, 2, 0, 7, 55, 1, 3, 5, 2, false, 0, 0, 2, 1000, fcs (List.replicate 60 0#8)⟩
def F0 (dst ty : Nat) : FrameIn := ⟨1, fcs (beBytes 6 dst ++ List.replicate 6 0#8 ++ beBytes 2 ty ++ List.replicate 46 0#8)⟩
def G0 : Grant := ⟨-2, 1300, 300, 1000, 5, none⟩
def D0 : Desc := ⟨0,1,0,0,0,false,false,0,0,0,0,0,none⟩
def ss (request : Bool) (gr : List (Option Grant)) (asks : List Ask) : Sess := { request := request, inst := 2, port := 1, origin := false, addr := 7, clk := 55, pnum := 1, minl := [0, -3, -4], grants := gr, asks := asks }
def slot : Nat := ((hs 5 [] id).probe 2 1 7).headD 0
def us (x : Sess) (l : List (Nat × Fld × Nat)) : State := hs 5 ([(hrcR, HRD_SE_PCAP_CAP.at 1, 3)] ++ l) (fun p => { p with parent := some ⟨1, 55, 1, some slot, {}⟩ }) (fun s => { s with hrd := { s.hrd with sess := [(slot, x)], cache := [slot] } })
def T := fun (r : SigIn) (x : Sess) => (r, x)
def ask1 : Ask := { sent := some 30000, fails := 2 }
def G1 := { G0 with given := 700 }
def G2 := { G0 with exp := 1000 }
def Y := (hs 0 [] (fun x => { x with ports := x.ports.modify 1 (fun p => { p with since := 5 }) })).pi 2
def EI (v : Bool) : EsmcIn := ⟨v, 2, some 0x21, F0 9 5⟩
def ms (kind : Nat) (q : Nat) : Msg := { kind := kind, inst := 2, port := 1, slot := none, seq := q }
def Y2 (f : PiSt → PiSt) := (hs 0 [] f).pi 2
def es (l : List (Nat × Fld × Nat)) (f : EsmcSt → EsmcSt) := hs 0 ((hrpR 1, HRD_ESMC_CFG_EN, 1) :: l) id (fun s => s.setEsmc 1 f)
def qs (kind : Nat) (tok : Nat) (df : List (Msg × Nat)) := hs 0 [] id (fun s => { s with hrd := { s.hrd with queue := [ms kind 4], tokens := [7, tok, 7, 7], deferred := df, txq := [{ D0 with ring := 3, len := 10, target := 1 }], txTok := 2561 } })

theorem witness_SessionsAreNegotiated_T10_0 :
    (∃ (s : State) (m : PtpIn) (k port : Nat), 
      let matched := s.hears m.port m.raw = true ∧ s.piMatch m false = some k
      matched ∧ s.piUnicast k = false ∧ 4 ≤ s.ps k m.port ∧ m.clk ≠ s.piId k ∧ (s.piPort k m.port).foreign.length < 8 ∧ (∀ y ∈ (s.piPort k m.port).foreign, y.clk ≠ m.clk ∨ y.pnum ≠ m.pnum)) ∧
    (∃ (s : State) (m : PtpIn) (r : SigIn) (k n t0 port : Nat) (x : Sess) (g : Grant), 
      let matched := s.hears m.port m.raw = true ∧ s.piMatch m false = some k
      let known := matched ∧ s.seOn = true ∧ s.piUnicast k = true ∧ s.sessOf k m.port m.addr = some (n, x) ∧ s.hrd.cache.contains n = true ∧ (x.clk ≠ 0 ∨ x.pnum ≠ 0)
      let u := ((s.bump (hrpR m.port) HRD_RX_SIG_COUNT).cacheTouch n).learn n m
      let mult := fun (y : Sess) => if r.typ = 1 ∧ s.piTwoStep y.inst = true then 2 else 1
      let held := match x.grants.getD r.typ none with | some g => ivlRate g.l * mult x | none => 0
      let request : Msg := { kind := 6, inst := x.inst, port := x.port, slot := some n, seq := 0, tlv := ⟨t0, x.minl.getD t0 0, s.get hrcR HRD_SE_CFG_REQD⟩ }
      known ∧ x.request = false ∧ x.inst = k ∧ x.port = m.port ∧ r.typ < 3 ∧ u.mayGrant k m.port r.typ = true ∧ x.minl.getD r.typ 0 ≤ r.logInt ∧ State.p5Range r.typ r.logInt = true ∧ u.portLoad m.port - held + ivlRate r.logInt * mult x ≤ s.get hrcR (HRD_SE_PCAP_CAP.at m.port) * 1000) ∧
    (∃ (s : State) (m : PtpIn) (r : SigIn) (k n t0 port : Nat) (x : Sess), 
      let matched := s.hears m.port m.raw = true ∧ s.piMatch m false = some k
      let known := matched ∧ s.seOn = true ∧ s.piUnicast k = true ∧ s.sessOf k m.port m.addr = some (n, x) ∧ s.hrd.cache.contains n = true ∧ (x.clk ≠ 0 ∨ x.pnum ≠ 0)
      let request : Msg := { kind := 6, inst := x.inst, port := x.port, slot := some n, seq := 0, tlv := ⟨t0, x.minl.getD t0 0, s.get hrcR HRD_SE_CFG_REQD⟩ }
      known ∧ (x.request = true ∨ x.inst = k ∧ x.port = m.port ∧ (3 ≤ r.typ ∨ r.logInt < x.minl.getD r.typ 0 ∨ State.p5Range r.typ r.logInt = false))) ∧
    (∃ (s : State) (m : PtpIn) (r : SigIn) (k n t0 port : Nat) (x : Sess), 
      let matched := s.hears m.port m.raw = true ∧ s.piMatch m false = some k
      let known := matched ∧ s.seOn = true ∧ s.piUnicast k = true ∧ s.sessOf k m.port m.addr = some (n, x) ∧ s.hrd.cache.contains n = true ∧ (x.clk ≠ 0 ∨ x.pnum ≠ 0)
      let request : Msg := { kind := 6, inst := x.inst, port := x.port, slot := some n, seq := 0, tlv := ⟨t0, x.minl.getD t0 0, s.get hrcR HRD_SE_CFG_REQD⟩ }
      known ∧ x.request = true ∧ r.typ < 3 ∧ (x.asks.getD r.typ {}).sent ≠ none ∧ r.dur ≠ 0) ∧
    (∃ (s : State) (m : PtpIn) (r : SigIn) (k n t0 port : Nat) (x : Sess), 
      let matched := s.hears m.port m.raw = true ∧ s.piMatch m false = some k
      let known := matched ∧ s.seOn = true ∧ s.piUnicast k = true ∧ s.sessOf k m.port m.addr = some (n, x) ∧ s.hrd.cache.contains n = true ∧ (x.clk ≠ 0 ∨ x.pnum ≠ 0)
      let request : Msg := { kind := 6, inst := x.inst, port := x.port, slot := some n, seq := 0, tlv := ⟨t0, x.minl.getD t0 0, s.get hrcR HRD_SE_CFG_REQD⟩ }
      known ∧ x.request = true ∧ r.typ < 3 ∧ (x.asks.getD r.typ {}).sent ≠ none ∧ r.dur = 0) ∧
    (∃ (s : State) (m : PtpIn) (r : SigIn) (k n port : Nat) (x : Sess) (g : Grant), 
      let matched := s.hears m.port m.raw = true ∧ s.piMatch m false = some k
      let known := matched ∧ s.seOn = true ∧ s.piUnicast k = true ∧ s.sessOf k m.port m.addr = some (n, x) ∧ s.hrd.cache.contains n = true ∧ (x.clk ≠ 0 ∨ x.pnum ≠ 0)
      known ∧ x.grants.getD r.typ none = some g) :=
  ⟨⟨(hs 0 [(piR 2, HRD_PI_STATUS_PS, 0x40)] id), (mm 0), 2, 1, by dsimp only; decide +kernel⟩,
   ⟨(us (ss false [none,none,none] [{},{},{}]) [(piR 2, HRD_PI_STATUS_PS, 0x60)]), (mm 2), (⟨1,-2,2000⟩), 2, slot, 0, 1, (ss false [none,none,none] [{},{},{}]), G0, by dsimp only; decide +kernel⟩,
   ⟨(us (ss false [none,none,none] [{},{},{}]) [(piR 2, HRD_PI_STATUS_PS, 0x60)]), (mm 2), (⟨1,-4,2000⟩), 2, slot, 0, 1, (ss false [none,none,none] [{},{},{}]), by dsimp only; decide +kernel⟩,
   ⟨(us (ss true [none,none,none] [{},ask1,{}]) [(piR 2, HRD_PI_STATUS_PS, 0x90)]), (mm 2), (⟨1,-2,2000⟩), 2, slot, 1, 1, (ss true [none,none,none] [{},ask1,{}]), by dsimp only; decide +kernel⟩,
   ⟨(us (ss true [none,none,none] [{},ask1,{}]) [(piR 2, HRD_PI_STATUS_PS, 0x90)]), (mm 2), (⟨1,-2,0⟩), 2, slot, 0, 1, (ss true [none,none,none] [{},ask1,{}]), by dsimp only; decide +kernel⟩,
   ⟨(us (ss true [none,some G0,none] [{},{},{}]) [(piR 2, HRD_PI_STATUS_PS, 0x90)]), (mm 2), (⟨1,-2,0⟩), 2, slot, 1, (ss true [none,some G0,none] [{},{},{}]), G0, by dsimp only; decide +kernel⟩⟩

theorem witness_SessionsAreNegotiated_T10_1 :
    (∃ (s : State) (n t0 : Nat) (x : Sess) (g : Grant), s.sess? n = some x ∧ x.grants.getD t0 none = some g ∧ g.exp ≤ s.ltc.sec) ∧
    (∃ (s : State) (n t0 : Nat) (x : Sess) (g : Grant), s.sess? n = some x ∧ x.grants.getD t0 none = some g ∧ s.ltc.sec < g.exp) ∧
    (∃ (s : State) (n t0 : Nat) (x : Sess) (g : Grant), 
      let ask := x.asks.getD t0 {}
      s.sess? n = some x ∧ x.grants.getD t0 none = some g ∧ s.wants n x t0 = true ∧ ask.sent = none ∧ ask.retry = none ∧ g.given * 4 + g.dur * 3 ≤ s.ltc.sec * 4) ∧
    (∃ (s : State) (n t0 : Nat) (x : Sess) (g : Grant), 
      let ask := x.asks.getD t0 {}
      s.sess? n = some x ∧ x.grants.getD t0 none = some g ∧ s.wants n x t0 = true ∧ ask.sent = none ∧ ask.retry = none ∧ s.ltc.sec * 4 < g.given * 4 + g.dur * 3) ∧
    (∃ (s : State) (n t0 : Nat) (x : Sess) (w : Nat), 
      let ask := x.asks.getD t0 {}
      s.sess? n = some x ∧ s.wants n x t0 = true ∧ ask.sent = some w ∧ w + 32000 ≤ s.prism.tick) ∧
    (∃ (s : State) (n t0 : Nat) (x : Sess), 
      let ask := x.asks.getD t0 {}
      s.sess? n = some x ∧ s.wants n x t0 = true ∧ ask.sent = none ∧ ask.retry = none ∧ x.grants.getD t0 none = none) :=
  ⟨⟨(us (ss true [none,some G2,none] [{},{},{}]) [(piR 2, HRD_PI_STATUS_PS, 0x90)]), slot, 1, (ss true [none,some G2,none] [{},{},{}]), G2, by decide +kernel⟩,
   ⟨(us (ss true [none,some G0,none] [{},{},{}]) [(piR 2, HRD_PI_STATUS_PS, 0x90)]), slot, 1, (ss true [none,some G0,none] [{},{},{}]), G0, by decide +kernel⟩,
   ⟨(us (ss true [none,some G1,none] [{},{},{}]) [(piR 2, HRD_PI_STATUS_PS, 0x90)]), slot, 1, (ss true [none,some G1,none] [{},{},{}]), G1, by dsimp only; decide +kernel⟩,
   ⟨(us (ss true [none,some G0,none] [{},{},{}]) [(piR 2, HRD_PI_STATUS_PS, 0x90)]), slot, 1, (ss true [none,some G0,none] [{},{},{}]), G0, by dsimp only; decide +kernel⟩,
   ⟨(us (ss true [none,none,none] [{},ask1,{}]) [(piR 2, HRD_PI_STATUS_PS, 0x90)]), slot, 1, (ss true [none,none,none] [{},ask1,{}]), 30000, by dsimp only; decide +kernel⟩,
   ⟨(us (ss true [none,none,none] [{},ask1,{}]) [(piR 2, HRD_PI_STATUS_PS, 0x90)]), slot, 0, (ss true [none,none,none] [{},ask1,{}]), by dsimp only; decide +kernel⟩⟩

theorem witness_SessionsAreNegotiated_T10_2 :
    (∃ (s : State) (port : Nat), s.heraldRuns = true ∧ port < s.nHrd ∧ s.seOn = true ∧ 488 < s.hrd.reads + 1) ∧
    (∃ (s : State) (port : Nat), s.heraldRuns = true ∧ port < s.nHrd ∧ s.seOn = true ∧ s.hrd.reads + 1 ≤ 488) ∧
    (∃ (s : State) (port : Nat), s.heraldRuns = true ∧ port < s.nHrd ∧ s.seOn = true ∧ 488 < s.hrd.reads + 8) ∧
    (∃ (s : State) (port : Nat), s.heraldRuns = true ∧ port < s.nHrd ∧ s.seOn = true ∧ s.hrd.reads + 8 ≤ 488) ∧
    (∃ (s : State) (f : FrameIn) (port : Nat), 
      let mac := s.get (hrpR f.port) HRD_MAC_HI_MAC * 2 ^ 32 + s.get (hrpR f.port) HRD_MAC_LO_MAC
      s.hears f.port f.raw = true ∧ f.etherType ≠ 0x8808 ∧ f.dst ≠ mac ∧ f.dst ≠ 0xFFFFFFFFFFFF ∧ (f.dst / 2 ^ 40 % 2 = 0 ∨ s.on (hrpR f.port) HRD_PORT_CFG_MCHOST = false)) ∧
    (∃ (s : State) (f : FrameIn) (port : Nat) (d : Desc), 
      let mac := s.get (hrpR f.port) HRD_MAC_HI_MAC * 2 ^ 32 + s.get (hrpR f.port) HRD_MAC_LO_MAC
      s.hears f.port f.raw = true ∧ f.etherType ≠ 0x8808 ∧ f.dst = mac ∧ (f.raw.length - 4) * 256 ≤ s.hrd.rxTok ∧ s.dataHalted = false ∧ s.hrd.bufs.find? (fun b => b.ring == s.get (hrpR f.port) HRD_PORT_CFG_RXRING) = some d) :=
  ⟨⟨(hs 5 [] id (fun s => { s with hrd := { s.hrd with reads := 488 } })), 1, by decide +kernel⟩,
   ⟨(hs 0 [(piR 2, HRD_PI_STATUS_PS, 0x40)] id), 1, by decide +kernel⟩,
   ⟨(hs 5 [] id (fun s => { s with hrd := { s.hrd with reads := 488 } })), 1, by decide +kernel⟩,
   ⟨(hs 0 [(piR 2, HRD_PI_STATUS_PS, 0x40)] id), 1, by decide +kernel⟩,
   ⟨(hs 0 [(piR 2, HRD_PI_STATUS_PS, 0x40)] id), (F0 4 5), 1, by dsimp only; decide +kernel⟩,
   ⟨(hs 0 [(hrpR 1, HRD_MAC_LO_MAC, 9)] id (fun s => { s with hrd := { s.hrd with bufs := [D0] } })), (F0 9 5), 1, D0, by dsimp only; decide +kernel⟩⟩

theorem witness_HeraldKeepsItsTimes_T10_0 :
    (∃ (s : State) (k p : Nat) (y : PiSt), 
      let now := s.prism.tick
      s.heraldRuns = true ∧ s.hrd.pis[k]? = some y ∧ y.timedOut = false ∧ p < 4 ∧ s.ps k p = 9 ∧ y.lastEx + s.get (piR k) HRD_PI_IVL_STMO * ivlTicks (y.ivl.getD (s.getI (piR k) HRD_PI_IVL_LSYNC)) ≤ now) ∧
    (∃ (s : State) (k w : Nat) (y : PiSt) (e : EsmcIn), 
      let now := s.prism.tick
      let q := e.frame.port
      s.hrd.pis[k]? = some y ∧ y.quarEnd = some w ∧ w ≤ now + 1 ∧ 65536 ≤ |y.q|) ∧
    (∃ (s : State) (k w : Nat) (y : PiSt) (e : EsmcIn), 
      let now := s.prism.tick
      let q := e.frame.port
      s.hrd.pis[k]? = some y ∧ y.quarEnd = some w ∧ w ≤ now + 1 ∧ |y.q| < 65536) ∧
    (∃ (s : State) (e : EsmcIn), 
      let q := e.frame.port
      s.hears q e.frame.raw = true ∧ s.on (hrpR q) HRD_ESMC_CFG_EN = true ∧ e.valid = false) ∧
    (∃ (s : State) (e : EsmcIn), 
      let q := e.frame.port
      s.hears q e.frame.raw = true ∧ s.on (hrpR q) HRD_ESMC_CFG_EN = true ∧ e.valid = true) ∧
    (∃ (s : State) (p : Nat) (es : EsmcSt), 
      let now := s.prism.tick
      s.heraldRuns = true ∧ p < s.nHrd ∧ s.on (hrpR p) HRD_ESMC_CFG_EN = true ∧ s.hrd.esmc[p]? = some es ∧ es.on = true ∧ s.on (hrpR p) HRD_ESMC_STATUS_TMO = false ∧ es.lastRx + 32000 * s.get (hrpR p) HRD_ESMC_CFG_TMO ≤ now) :=
  ⟨⟨(hs 0 [(piR 2, HRD_PI_STATUS_PS, 0x90), (piR 2, HRD_PI_IVL_STMO, 2)] (fun x => { x with ivl := some 0 })), 2, 1, (Y2 (fun x => { x with ivl := some 0 })), by dsimp only; decide +kernel⟩,
   ⟨(hs 0 [(pjR 2, HRD_PI_JSTAT_QUARN, 1), (pjR 2, HRD_PI_JSTAT_PATHS, 1)] (fun x => { x with q := -70000, quarEnd := some 70000 })), 2, 70000, (Y2 (fun x => { x with q := -70000, quarEnd := some 70000 })), (EI true), by dsimp only; decide +kernel⟩,
   ⟨(hs 0 [(pjR 2, HRD_PI_JSTAT_QUARN, 1), (pjR 2, HRD_PI_JSTAT_PATHS, 1)] (fun x => { x with q := 7000, quarEnd := some 70000 })), 2, 70000, (Y2 (fun x => { x with q := 7000, quarEnd := some 70000 })), (EI true), by dsimp only; decide +kernel⟩,
   ⟨(es [(hrpR 1, HRD_ESMC_STATUS_TMO, 0), (hrpR 1, HRD_ESMC_CFG_TMO, 2)] (fun x => { x with on := true })), (EI false), by dsimp only; decide +kernel⟩,
   ⟨(es [] (fun x => { x with on := true })), (EI true), by dsimp only; decide +kernel⟩,
   ⟨(es [(hrpR 1, HRD_ESMC_STATUS_TMO, 0), (hrpR 1, HRD_ESMC_CFG_TMO, 2)] (fun x => { x with on := true })), 1, ({ on := true }), by dsimp only; decide +kernel⟩⟩

theorem witness_HeraldKeepsItsTimes_T10_1 :
    (∃ (s : State) (p : Nat) (es : EsmcSt), s.heraldRuns = true ∧ p < s.nHrd ∧ s.on (hrpR p) HRD_ESMC_CFG_EN = true ∧ s.hrd.esmc[p]? = some es ∧ es.on = true ∧ s.on (hrpR p) HRD_ESMC_STATUS_TMO = true) ∧
    (∃ (s : State) (p : Nat) (es : EsmcSt), s.heraldRuns = true ∧ p < s.nHrd ∧ s.on (hrpR p) HRD_ESMC_CFG_EN = true ∧ s.hrd.esmc[p]? = some es ∧ es.on = true ∧ s.portLink p = true ∧ es.lastTx ≠ some s.ltc.sec) ∧
    (∃ (s : State) (m : Msg), 
      let n := s.msgCount m
      s.dueMsgs.head? = some m ∧ m.slot = none ∧ 2 * n ≤ s.hrd.tokens.getD m.port 0 ∧ s.hrd.sent + n ≤ s.aggCap ∧ m.kind = 2 ∧ s.piTwoStep m.inst = true) ∧
    (∃ (s : State) (m : Msg), 
      let n := s.msgCount m
      s.dueMsgs.head? = some m ∧ m.slot = none ∧ 2 * n ≤ s.hrd.tokens.getD m.port 0 ∧ s.hrd.sent + n ≤ s.aggCap ∧ m.kind = 0) ∧
    (∃ (s : State) (m : Msg), 
      let n := s.msgCount m
      s.dueMsgs.head? = some m ∧ m.slot = none ∧ 2 * n ≤ s.hrd.tokens.getD m.port 0 ∧ s.hrd.sent + n ≤ s.aggCap ∧ m.kind = 3) ∧
    (∃ (s : State) (m : Msg), 
      let n := s.msgCount m
      s.dueMsgs.head? = some m ∧ m.slot = none ∧ s.hrd.tokens.getD m.port 0 < 2 * n ∧ (∀ x ∈ s.hrd.deferred, x.1 ≠ m)) :=
  ⟨⟨(es [(hrpR 1, HRD_ESMC_STATUS_TMO, 1), (hrpR 1, HRD_ESMC_CFG_EXT, 1)] (fun x => { x with on := true })), 1, ({ on := true }), by decide +kernel⟩,
   ⟨(es [] (fun x => { x with on := true })), 1, ({ on := true }), by decide +kernel⟩,
   ⟨(qs 2 4 []), (ms 2 4), by dsimp only; decide +kernel⟩,
   ⟨(qs 0 2 []), (ms 0 4), by dsimp only; decide +kernel⟩,
   ⟨(qs 3 2 []), (ms 3 4), by dsimp only; decide +kernel⟩,
   ⟨(qs 2 3 []), (ms 2 4), by dsimp only; decide +kernel⟩⟩

theorem witness_HeraldKeepsItsTimes_T10_2 :
    (∃ (s : State) (m : Msg), s.dueMsgs.head? ≠ some m) ∧
    (∃ (s : State) (w : Nat) (m : Msg), 
      let now := s.prism.tick
      (m, w) ∈ s.hrd.deferred ∧ w + 8 ≤ now) ∧
    (∃ (s : State) (p : Nat), p < s.nHrd ∧ 6 ≤ s.mode) :=
  ⟨⟨(hs 0 [(piR 2, HRD_PI_STATUS_PS, 0x40), (piR 2, HRD_PI_IVL_ATMO, 2)] (fun x => { x with ports := x.ports.modify 1 (fun p => { p with since := 5 }) })), (ms 2 0), by decide +kernel⟩,
   ⟨(qs 2 3 [(ms 2 4, 69992)]), 69992, (ms 2 4), by dsimp only; decide +kernel⟩,
   ⟨(hs 0 [(piR 2, HRD_PI_STATUS_PS, 0x40), (piR 2, HRD_PI_IVL_ATMO, 2)] (fun x => { x with ports := x.ports.modify 1 (fun p => { p with since := 5 }) })), 1, by decide +kernel⟩⟩

end Sys2Proof.Tests.T10

namespace Sys2Proof.Tests.T11

set_option Elab.async false

def M (m : Nat) (l : List (Nat × Fld × Nat)) (s : State := State.reset) : State := S ((pwrR, PWR_STATUS_MODE, m) :: l) s
def pk (l : List (Nat × Fld × Nat)) (f : PlkPort → PlkPort) (g : State → State := id) : State :=
  let v := M 8 ([(plkR 1, PLK_PORT_CFG_ROLE, 1), (glb1R, GLB_PLK_CFG_NODE, 5), (glb1R, GLB_PLK_SWAP_FIT, 1)] ++ l)
  g ({ v.setPlk 1 (fun x => f { x with on := true, role := v.get (plkR 1) PLK_PORT_CFG_ROLE }) with ltc := { sec := 1000, ns := 31250 * 5, frac := 7 } , prism := { (State.reset).prism with tick := 70000 } })
def li (v : Bool) (node role : Nat) : LinkIn := ⟨1, if v then (LinkOut.bytes ⟨node, role, false, false, false, false, 4, 0, 3, 0, 255, none, []⟩) else [1#8], [], 999⟩
def th : List (Int × Int) := (List.range 1000).map (fun (i : Nat) => ((i : Int), (100 : Int)))
def jj : Rat := ((pk [] (fun x => { x with before := some 40, rx0 := true, ths := th })).plkJump 1).getD 77
def tf (v : Bool) (origin lat : Nat) : TimeIn := ⟨1, if v then TimeFrame.bytes ⟨origin, 2, 7, 999, 5, 6, lat, 3, 6, 9, 1, 37⟩ else [1#8], 100, [1,2,3,4]⟩
def pt (l : List (Nat × Fld × Nat)) (f : PlkPort → PlkPort) (g : State → State := id) : State := pk ([(plkR 1, PLK_STATUS_LINK, 1), (plkR 1, PLK_STATUS_CAL, 1)] ++ l) f g
def mi (m : Nat) (l : List (Nat × Fld × Nat)) (f : MirSt → MirSt) : State :=
  ({ M m ((mirR, MIR_CFG_EN, 1) :: l) with ltc := { sec := 1000, ns := 31250 * 5, frac := 7 } , prism := { (State.reset).prism with tick := 70000 } }).setMir f
def fr (ep ep2 : Nat) : MirIn := ⟨true, true, false, 8, ep, 0, [.ltc ep 1 2 3 0 (3*32) 0, .refs ep []] ++ (List.range 16).map (fun c => .chan (if c = 3 then ep2 else ep) ((mi 8 [] id).snapChan c))⟩
def co : List (Nat × List Rat) := (List.range 32).map (fun i => (i, []))

theorem witness_LinksComeUpAndSwap_T11_0 :
    (∃ (s : State) (m : LinkIn) (p : Nat), p < s.nPlk ∧
      let x := s.plkP p
      m.port = p ∧ x.on = true ∧ m.valid = false) ∧
    (∃ (s : State) (m : LinkIn) (p : Nat), p < s.nPlk ∧
      let x := s.plkP p
      m.port = p ∧ x.on = true ∧ m.valid = true ∧ m.node ≠ s.plkNode ∧ plkCompatible (s.plkRole p) m.role = true) ∧
    (∃ (s : State) (m : LinkIn) (p : Nat), p < s.nPlk ∧
      let x := s.plkP p
      m.port = p ∧ x.on = true ∧ m.valid = true ∧ (m.node = s.plkNode ∨ plkCompatible (s.plkRole p) m.role = false)) ∧
    (∃ (s : State) (p : Nat), p < s.nPlk ∧
      let x := s.plkP p
      let b := plkR p
      let leads := s.plkRole p = 2 ∨ s.plkRole p ≠ 1 ∧ s.plkNode < s.get b PLK_STATUS_PEER
      x.on = true ∧ s.plkUp p = false ∧ 32 ≤ x.good ∧ leads) ∧
    (∃ (s : State) (p : Nat), p < s.nPlk ∧
      let x := s.plkP p
      let b := plkR p
      let leads := s.plkRole p = 2 ∨ s.plkRole p ≠ 1 ∧ s.plkNode < s.get b PLK_STATUS_PEER
      x.on = true ∧ s.plkUp p = false ∧ 32 ≤ x.good ∧ (¬leads)) ∧
    (∃ (s : State) (p : Nat), p < s.nPlk ∧
      let x := s.plkP p
      x.on = true ∧ s.plkUp p = false ∧ x.good < 32) :=
  ⟨⟨(pk [(plkR 1, PLK_STATUS_LINK, 1)] (fun x => { x with good := 31, miss := 16 })), (li false 5 2), 1, by dsimp only; decide +kernel⟩,
   ⟨(pk [(plkR 1, PLK_STATUS_MISMATCH, 1)] (fun x => { x with good := 31 })), (li true 9 2), 1, by dsimp only; decide +kernel⟩,
   ⟨(pk [(plkR 1, PLK_STATUS_LINK, 1)] (fun x => { x with good := 31 })), (li true 5 2), 1, by dsimp only; decide +kernel⟩,
   ⟨(pk [(plkR 1, PLK_STATUS_PEER, 6), (plkR 1, PLK_PORT_CFG_ROLE, 3)] (fun x => { x with good := 32, miss := 16 })), 1, by dsimp only; decide +kernel⟩,
   ⟨(pk [(plkR 1, PLK_STATUS_PEER, 4), (plkR 1, PLK_PORT_CFG_ROLE, 3)] (fun x => { x with good := 32, miss := 16 })), 1, by dsimp only; decide +kernel⟩,
   ⟨(pk [(plkR 1, PLK_STATUS_MISMATCH, 1)] (fun x => { x with good := 31 })), 1, by dsimp only; decide +kernel⟩⟩

theorem witness_LinksComeUpAndSwap_T11_1 :
    (∃ (s : State) (p : Nat), p < s.nPlk ∧
      let x := s.plkP p
      let b := plkR p
      s.plkUp p = true ∧ 16 ≤ x.miss + 1 ∧ x.got = false ∧ s.on b PLK_STATUS_GAP = false) ∧
    (∃ (s : State) (p : Nat), p < s.nPlk ∧
      let x := s.plkP p
      let b := plkR p
      s.plkUp p = true ∧ (x.miss + 1 < 16 ∨ x.got = true ∨ s.on b PLK_STATUS_GAP = true)) ∧
    (∃ (s : State) (p : Nat), p < s.nPlk ∧
      let x := s.plkP p
      let b := plkR p
      s.on b PLK_STATUS_GAP = true ∧ x.turned = false) ∧
    (∃ (s : State) (p w : Nat), p < s.nPlk ∧
      let x := s.plkP p
      let now := s.prism.tick
      let ended := x.after = some w ∧ w + s.plkFit * 32000 ≤ now + 1
      ended ∧ s.plkCal p = true ∧ s.plkJump p = none) ∧
    (∃ (s : State) (p w : Nat) (j : Rat), p < s.nPlk ∧
      let x := s.plkP p
      let now := s.prism.tick
      let step : Rat := (s.get glb1R GLB_PLK_SWAP_ASTEP : Rat) * 65536 / 10
      let ended := x.after = some w ∧ w + s.plkFit * 32000 ≤ now + 1
      ended ∧ s.plkCal p = true ∧ s.plkJump p = some j ∧ |j - x.dhat| ≤ step) ∧
    (∃ (s : State) (p w : Nat) (j : Rat), p < s.nPlk ∧
      let x := s.plkP p
      let now := s.prism.tick
      let step : Rat := (s.get glb1R GLB_PLK_SWAP_ASTEP : Rat) * 65536 / 10
      let ended := x.after = some w ∧ w + s.plkFit * 32000 ≤ now + 1
      ended ∧ s.plkCal p = true ∧ s.plkJump p = some j ∧ step < |j - x.dhat|) :=
  ⟨⟨(pk [(plkR 1, PLK_STATUS_LINK, 1)] (fun x => { x with good := 31, miss := 16 })), 1, by dsimp only; decide +kernel⟩,
   ⟨(pk [(plkR 1, PLK_STATUS_LINK, 1)] (fun x => { x with good := 31 })), 1, by dsimp only; decide +kernel⟩,
   ⟨(pk [(plkR 1, PLK_STATUS_GAP, 1), (plkR 1, PLK_STATUS_ORIENT, 1), (plkR 1, PLK_PORT_CFG_ROLE, 3)] (fun x => { x with good := 32, miss := 16 })), 1, by dsimp only; decide +kernel⟩,
   ⟨(pk [(plkR 1, PLK_STATUS_CAL, 1)] (fun x => { x with after := some 38000, gap := some 4 })), 1, 38000, by dsimp only; decide +kernel⟩,
   ⟨(pk [(plkR 1, PLK_STATUS_CAL, 1)] (fun x => { x with after := some 38000, gap := some 4, before := some 40, rx0 := true, ths := th })), 1, 38000, jj, by dsimp only; decide +kernel⟩,
   ⟨(pk [(plkR 1, PLK_STATUS_CAL, 1), (glb1R, GLB_PLK_SWAP_ASTEP, 0)] (fun x => { x with after := some 38000, gap := some 4, before := some 40, rx0 := true, ths := th })), 1, 38000, jj, by dsimp only; decide +kernel⟩⟩

theorem witness_LinksComeUpAndSwap_T11_2 :
    (∃ (s : State) (p w : Nat) (j : Rat), p < s.nPlk ∧
      let x := s.plkP p
      let now := s.prism.tick
      let ended := x.after = some w ∧ w + s.plkFit * 32000 ≤ now + 1
      ended ∧ s.plkCal p = false ∧ s.plkJump p = some j) ∧
    (∃ (s : State) (p w : Nat), p < s.nPlk ∧
      let x := s.plkP p
      let now := s.prism.tick
      let ended := x.after = some w ∧ w + s.plkFit * 32000 ≤ now + 1
      ended ∧ s.plkCal p = false ∧ s.plkJump p = none) ∧
    (∃ (s : State) (p : Nat), p < s.nPlk ∧
      let x := s.plkP p
      x.after = none) :=
  ⟨⟨(pk [(plkR 1, PLK_STATUS_CAL, 0)] (fun x => { x with after := some 38000, gap := some 4, before := some 40, rx0 := true, ths := th })), 1, 38000, jj, by dsimp only; decide +kernel⟩,
   ⟨(pk [(plkR 1, PLK_STATUS_CAL, 0)] (fun x => { x with after := some 38000, gap := some 4, rx0 := true, ths := th })), 1, 38000, by dsimp only; decide +kernel⟩,
   ⟨(pk [(plkR 1, PLK_STATUS_MISMATCH, 1)] (fun x => { x with good := 31 })), 1, by dsimp only; decide +kernel⟩⟩

theorem witness_TimeFramesAreTaken_T11_0 :
    (∃ (s : State) (m : TimeIn) (p : Nat), p < s.nPlk ∧
      let x := s.plkP p
      let ready := m.port = p ∧ x.on = true
      ready ∧ m.valid = false) ∧
    (∃ (s : State) (m : TimeIn) (p : Nat), p < s.nPlk ∧
      let x := s.plkP p
      let ready := m.port = p ∧ x.on = true
      let client := s.plkRole p ≠ 2 ∧ s.plkRole p ≠ 4
      ready ∧ m.valid = true ∧ (¬client)) ∧
    (∃ (s : State) (m : TimeIn) (p : Nat), p < s.nPlk ∧
      let x := s.plkP p
      let ready := m.port = p ∧ x.on = true
      let client := s.plkRole p ≠ 2 ∧ s.plkRole p ≠ 4
      let live := s.plkUp p = true ∧ s.inRun = true ∧ s.plkCal p = true
      let hears := ready ∧ m.valid = true ∧ client ∧ live
      hears ∧ m.f.origin = s.plkNode) ∧
    (∃ (s : State) (m : TimeIn) (p : Nat), p < s.nPlk ∧
      let x := s.plkP p
      let ready := m.port = p ∧ x.on = true
      let client := s.plkRole p ≠ 2 ∧ s.plkRole p ≠ 4
      let live := s.plkUp p = true ∧ s.inRun = true ∧ s.plkCal p = true
      let hears := ready ∧ m.valid = true ∧ client ∧ live
      let acc := ((m.f.acclat : Int) + s.plkDrx p).toNat
      let life := s.get glb1R GLB_PLK_CFG1_LIFE * 65536
      hears ∧ m.f.origin ≠ s.plkNode ∧ life < acc) ∧
    (∃ (s : State) (m : TimeIn) (p : Nat), p < s.nPlk ∧
      let b := plkR p
      let x := s.plkP p
      let ready := m.port = p ∧ x.on = true
      let client := s.plkRole p ≠ 2 ∧ s.plkRole p ≠ 4
      let live := s.plkUp p = true ∧ s.inRun = true ∧ s.plkCal p = true
      let hears := ready ∧ m.valid = true ∧ client ∧ live
      let locked := s.on b PLK_STATUS_OLOCK = true ∧ s.get b PLK_ORIGIN_ORIGIN = m.f.origin
      let locks := s.on b PLK_STATUS_OLOCK = false ∧ s.on b PLK_PORT_CFG_OSEL = false
      let acc := ((m.f.acclat : Int) + s.plkDrx p).toNat
      let life := s.get glb1R GLB_PLK_CFG1_LIFE * 65536
      hears ∧ m.f.origin ≠ s.plkNode ∧ acc ≤ life ∧ x.samp = none ∧ (locked ∨ locks)) ∧
    (∃ (s : State) (m : TimeIn) (p : Nat), p < s.nPlk ∧
      let b := plkR p
      let x := s.plkP p
      let ready := m.port = p ∧ x.on = true
      let client := s.plkRole p ≠ 2 ∧ s.plkRole p ≠ 4
      let live := s.plkUp p = true ∧ s.inRun = true ∧ s.plkCal p = true
      let hears := ready ∧ m.valid = true ∧ client ∧ live
      let locked := s.on b PLK_STATUS_OLOCK = true ∧ s.get b PLK_ORIGIN_ORIGIN = m.f.origin
      let locks := s.on b PLK_STATUS_OLOCK = false ∧ s.on b PLK_PORT_CFG_OSEL = false
      let acc := ((m.f.acclat : Int) + s.plkDrx p).toNat
      let life := s.get glb1R GLB_PLK_CFG1_LIFE * 65536
      hears ∧ m.f.origin ≠ s.plkNode ∧ acc ≤ life ∧ (¬locked) ∧ (¬locks)) :=
  ⟨⟨(pt [] id), (tf false 9 100), 1, by dsimp only; decide +kernel⟩,
   ⟨(pt [(plkR 1, PLK_PORT_CFG_ROLE, 4)] id), (tf true 9 100), 1, by dsimp only; decide +kernel⟩,
   ⟨(pt [] id), (tf true 5 100), 1, by dsimp only; decide +kernel⟩,
   ⟨(pt [] id), (tf true 6 (2^40)), 1, by dsimp only; decide +kernel⟩,
   ⟨(pt [] id), (tf true 9 100), 1, by dsimp only; decide +kernel⟩,
   ⟨(pt [(plkR 1, PLK_STATUS_OLOCK, 1), (plkR 1, PLK_ORIGIN_ORIGIN, 77)] (fun x => { x with noSamp := 4, origMiss := 4 })), (tf true 6 (2^4)), 1, by dsimp only; decide +kernel⟩⟩

theorem witness_TimeFramesAreTaken_T11_1 :
    (∃ (s : State) (p : Nat), p < s.nPlk ∧
      let b := plkR p
      let x := s.plkP p
      s.inRun = true ∧ x.lossDone = false ∧ s.get b PLK_PORT_CFG_FLOSS ≤ x.noSamp + 1 ∧ x.samp = none) ∧
    (∃ (s : State) (p : Nat), p < s.nPlk ∧
      let b := plkR p
      let x := s.plkP p
      s.inRun = true ∧ x.lossDone = false ∧ (x.noSamp + 1 < s.get b PLK_PORT_CFG_FLOSS ∨ x.samp ≠ none)) ∧
    (∃ (s : State) (p : Nat), p < s.nPlk ∧
      let b := plkR p
      let x := s.plkP p
      s.on b PLK_STATUS_OLOCK = true ∧ s.on b PLK_PORT_CFG_OSEL = false ∧ s.get b PLK_PORT_CFG_FLOSS ≤ x.origMiss) ∧
    (∃ (s : State) (p : Nat), p < s.nPlk ∧
      let b := plkR p
      let x := s.plkP p
      s.on b PLK_STATUS_OLOCK = true ∧ s.on b PLK_PORT_CFG_OSEL = false ∧ x.origMiss < s.get b PLK_PORT_CFG_FLOSS) ∧
    (∃ (s : State) (p o : Nat), p < s.nPlk ∧ (∃ e ∈ s.plk.origs, e.origin = o ∧ e.tick + 64 ≤ s.prism.tick)) ∧
    (∃ (s : State) (p o : Nat), p < s.nPlk ∧ (∀ e ∈ s.plk.origs, e.origin = o → s.prism.tick < e.tick + 64)) :=
  ⟨⟨(pt [(plkR 1, PLK_STATUS_OLOCK, 1), (plkR 1, PLK_ORIGIN_ORIGIN, 77)] (fun x => { x with noSamp := 4, origMiss := 4 })), 1, by dsimp only; decide +kernel⟩,
   ⟨(pt [] id), 1, by dsimp only; decide +kernel⟩,
   ⟨(pt [(plkR 1, PLK_STATUS_OLOCK, 1), (plkR 1, PLK_ORIGIN_ORIGIN, 77)] (fun x => { x with noSamp := 4, origMiss := 4 })), 1, by dsimp only; decide +kernel⟩,
   ⟨(pt [(plkR 1, PLK_STATUS_OLOCK, 1), (plkR 1, PLK_ORIGIN_ORIGIN, 77)] (fun x => { x with noSamp := 3, origMiss := 3 }) (fun s => { s with plk := { s.plk with origs := [⟨5, [], 7⟩, ⟨6, [], 7⟩] } })), 1, by dsimp only; decide +kernel⟩,
   ⟨(pt [(plkR 1, PLK_STATUS_OLOCK, 1), (plkR 1, PLK_ORIGIN_ORIGIN, 77)] (fun x => { x with noSamp := 3, origMiss := 3 }) (fun s => { s with plk := { s.plk with origs := [⟨5, [], 7⟩, ⟨6, [], 7⟩] } })), 1, 5, by decide +kernel⟩,
   ⟨(pt [] id), 1, 5, by decide +kernel⟩⟩

theorem witness_TheKeyIsClaimedAndTaken_T11_0 :
    (∃ (s : State) (high : Bool), 
      let now := s.prism.tick
      let get := fun (u : State) (f : Fld) => u.get mirR f
      let free := if high then min 7 (get s MIR_KEY_FREE + 1) else 0
      let samples := s.paired = true ∧ 6 ≤ s.mode ∧ s.mir.sampled ≠ some now
      samples ∧ s.hasKey = false ∧ s.standsBy = true ∧ s.on mirR MIR_CFG_NOCLAIM = false ∧ s.mir.holdoff = none ∧ (s.on mirR MIR_STATUS_LINK = true ∨ s.on mirR MIR_CFG_BLIND = false) ∧ (if s.on mirR MIR_KEY_EPRIO then 4 else 5) ≤ free) ∧
    (∃ (s : State) (high : Bool), 
      let now := s.prism.tick
      let get := fun (u : State) (f : Fld) => u.get mirR f
      let free := if high then min 7 (get s MIR_KEY_FREE + 1) else 0
      let samples := s.paired = true ∧ 6 ≤ s.mode ∧ s.mir.sampled ≠ some now
      samples ∧ s.hasKey = false ∧ s.standsBy = true ∧ s.on mirR MIR_CFG_NOCLAIM = false ∧ s.mir.holdoff = none ∧ (s.on mirR MIR_STATUS_LINK = true ∨ s.on mirR MIR_CFG_BLIND = false) ∧ free < (if s.on mirR MIR_KEY_EPRIO then 4 else 5)) ∧
    (∃ (s : State) (high : Bool), 
      let now := s.prism.tick
      let samples := s.paired = true ∧ 6 ≤ s.mode ∧ s.mir.sampled ≠ some now
      samples ∧ s.hasKey = true ∧ high = true ∧ s.mir.highs = 1) ∧
    (∃ (s : State) (high : Bool), 
      let now := s.prism.tick
      let samples := s.paired = true ∧ 6 ≤ s.mode ∧ s.mir.sampled ≠ some now
      samples ∧ s.hasKey = true ∧ high = false) ∧
    (∃ (s : State) (w : Nat), 
      let now := s.prism.tick
      s.mir.holdoff = some w ∧ w ≤ now) ∧
    (∃ (s : State) (w a : Nat), 
      let now := s.prism.tick
      s.mir.ovr = some (a, w) ∧ w ≤ now ∧ s.hasMir = true) :=
  ⟨⟨(mi 11 [(mirR, MIR_KEY_FREE, 4), (mirR, MIR_STATUS_LINK, 1)] id), true, by dsimp only; decide +kernel⟩,
   ⟨(mi 11 [(mirR, MIR_KEY_FREE, 3), (mirR, MIR_STATUS_LINK, 1)] id), true, by dsimp only; decide +kernel⟩,
   ⟨(mi 8 [(mirR, MIR_KEY_HOLD, 1)] (fun m => { m with highs := 1, safeDrv := true, partner := true, holdoff := some 70000 })), true, by dsimp only; decide +kernel⟩,
   ⟨(mi 8 [(mirR, MIR_KEY_HOLD, 1), (mirR, MIR_STATUS_LSTUCK, 1)] (fun m => { m with highs := 1, safeDrv := true, partner := true, ovr := some (3, 70000) })), false, by dsimp only; decide +kernel⟩,
   ⟨(mi 8 [(mirR, MIR_KEY_HOLD, 1)] (fun m => { m with highs := 1, safeDrv := true, partner := true, holdoff := some 70000 })), 70000, by dsimp only; decide +kernel⟩,
   ⟨(mi 8 [(mirR, MIR_KEY_HOLD, 1), (mirR, MIR_STATUS_LSTUCK, 1)] (fun m => { m with highs := 1, safeDrv := true, partner := true, ovr := some (3, 70000) })), 70000, 3, by dsimp only; decide +kernel⟩⟩

theorem witness_TheKeyIsClaimedAndTaken_T11_1 :
    (∃ (s : State) (w : Nat) (h : MirIn) (cur : Nat), 
      let now := s.prism.tick
      let newer := s.mir.epoch = none ∨ s.mir.epoch = some cur ∧ 0 < signed ((h.epoch + 2 ^ 32 - cur) % 2 ^ 32) 32
      let waits := s.standsBy = true ∧ s.mir.recv = some (h, w) ∧ w < now
      waits ∧ newer ∧ s.snapWhole h = true ∧ State.snapBad h = none) ∧
    (∃ (s : State) (w a : Nat) (h : MirIn) (cur : Nat), 
      let now := s.prism.tick
      let newer := s.mir.epoch = none ∨ s.mir.epoch = some cur ∧ 0 < signed ((h.epoch + 2 ^ 32 - cur) % 2 ^ 32) 32
      let waits := s.standsBy = true ∧ s.mir.recv = some (h, w) ∧ w < now
      waits ∧ newer ∧ s.snapWhole h = true ∧ State.snapBad h = some a) ∧
    (∃ (s : State) (w : Nat) (h : MirIn) (cur : Nat), 
      let now := s.prism.tick
      let waits := s.standsBy = true ∧ s.mir.recv = some (h, w) ∧ w < now
      waits ∧ (s.snapWhole h = false ∨ s.mir.epoch = some cur ∧ signed ((h.epoch + 2 ^ 32 - cur) % 2 ^ 32) 32 ≤ 0)) ∧
    (∃ (s : State), (s.mir.recv = none ∨ s.standsBy = false)) ∧
    (∃ (s : State) (e : Nat) (l : List (Nat × List Rat)), s.standsBy = true ∧ s.mir.coll = some (e, l) ∧ 32 ≤ l.length) ∧
    (∃ (s : State), s.on mirR MIR_STATUS_LINK = true ∧ (s.paired = false ∨ s.mirUp = false)) :=
  ⟨⟨(mi 11 [] (fun m => { m with recv := some (fr 50 50, 69999), epoch := some 49 })), 69999, (fr 50 50), 49, by dsimp only; decide +kernel⟩,
   ⟨(mi 11 [] (fun m => { m with recv := some (fr 50 51, 69999), epoch := some 49 })), 69999, 3, (fr 50 51), 49, by dsimp only; decide +kernel⟩,
   ⟨(mi 11 [] (fun m => { m with recv := some (fr 50 50, 69999), epoch := some 50 })), 69999, (fr 50 50), 50, by dsimp only; decide +kernel⟩,
   ⟨(mi 11 [(mirR, MIR_KEY_FREE, 4), (mirR, MIR_STATUS_LINK, 1)] id), by decide +kernel⟩,
   ⟨(mi 11 [(mirR, MIR_STATUS_LINK, 1)] (fun m => { m with coll := some (9, co) })), 9, co, by decide +kernel⟩,
   ⟨(mi 11 [(mirR, MIR_KEY_FREE, 4), (mirR, MIR_STATUS_LINK, 1)] id), by decide +kernel⟩⟩

theorem witness_TheKeyIsClaimedAndTaken_T11_2 :
    (∃ (s : State), (s.on mirR MIR_STATUS_LINK = false ∨ s.paired = true ∧ s.mirUp = true)) ∧
    (∃ (s : State) (w : Nat), 
      let now := s.prism.tick
      s.paired = true ∧ s.mir.claim = some w ∧ w < now) ∧
    (∃ (s : State) (w : Nat), 
      let now := s.prism.tick
      s.paired = true ∧ s.mir.claim = some w ∧ now ≤ w) :=
  ⟨⟨(mi 8 [(mirR, MIR_KEY_HOLD, 1)] (fun m => { m with highs := 1, safeDrv := true, partner := true, holdoff := some 70000 })), by decide +kernel⟩,
   ⟨(mi 11 [(mirR, MIR_STATUS_LINK, 1), (mirR, MIR_KEY_HOLD, 1), (mirR, MIR_CFG_TAKE, 8)] (fun m => { m with claim := some 69999, com := some (fr 50 50), epoch := some 50 })), 69999, by dsimp only; decide +kernel⟩,
   ⟨(mi 11 [(mirR, MIR_STATUS_LINK, 1), (mirR, MIR_KEY_HOLD, 1), (mirR, MIR_CFG_TAKE, 8)] (fun m => { m with claim := some 70000, com := some (fr 50 50), epoch := some 50 })), 70000, by dsimp only; decide +kernel⟩⟩

end Sys2Proof.Tests.T11

namespace Sys2Proof.Tests.T12

set_option Elab.async false

def M (m : Nat) (l : List (Nat × Fld × Nat)) (s : State := State.reset) : State := S ((pwrR, PWR_STATUS_MODE, m) :: l) s
def tm (m : Nat) (l : List (Nat × Fld × Nat)) (g : GranSt → GranSt) (h : TmpSt → TmpSt) : State :=
  let s := M m ([(glbR, GLB_TMP_CFG_EN1, 1), (glbR, GLB_TMP_CFG_SLOPE1, 2), (glbR, GLB_TMP_LOG_FIRST, 400), (glbR, GLB_TMP_LOG_COUNT, 2), (glbR, GLB_TMP_NEXT_NEXT, 63)] ++ l)
  { s with gran := g s.gran, tmp := h s.tmp, ltc := { sec := 1000, ns := 31250 * 5, frac := 7 } , prism := { s.prism with tick := 70000 } }
def gb (m : Nat) (cb : Bool) : State := (tm m [] (fun g => { g with busy := some 401, queue := [(7, true)], dirty := [8], pages := [(401, { curB := cb })], reqs := [⟨401, [401], false, 0, false, true⟩], held := [(401*512, [9#8])], wear := g.wear.set 3 ⟨2^48-2, 5, 2, false⟩ }) (fun x => { x with storing := true, queue := [77] })).sramWrite (401*512+3) [5#8]
def wa (m : Nat) (l : List (Nat × Fld × Nat)) (f : WatchSt → WatchSt) : State := ({ M m l with prism := { (State.reset).prism with tick := 70000 }, ltc := { sec := 1000, ns := 31250 * 5, frac := 7 } }).setWd f
def rr : React := ⟨5, 70000⟩

theorem witness_PagesAreStored_T12_0 :
    (∃ (s : State) (pin hold i : Nat) (rising : Bool), pin < 2 ∧ i < 16 ∧
      let en := s.on glbR (if pin = 0 then GLB_TMP_CFG_EN0 else GLB_TMP_CFG_EN1)
      let sl := s.get glbR (if pin = 0 then GLB_TMP_CFG_SLOPE0 else GLB_TMP_CFG_SLOPE1)
      let accepted := en = true ∧ (sl = 2 ∨ sl = 0 ∧ rising = true ∨ sl = 1 ∧ rising = false) ∧ s.get glbR GLB_TMP_CFG_FILT * 1000 ≤ hold
      (en = false ∨ ¬accepted ∧ s.mode ≠ 1 ∨ s.mode = 0 ∨ s.mode = 2)) ∧
    (∃ (s : State) (pin i : Nat), pin < 2 ∧ i < 16 ∧
      let en := s.on glbR (if pin = 0 then GLB_TMP_CFG_EN0 else GLB_TMP_CFG_EN1)
      en = true ∧ s.mode = 1) ∧
    (∃ (s : State) (pin p i : Nat) (force : Bool) (rest : List (Nat × Bool)), pin < 2 ∧ i < 16 ∧ s.gran.busy = none ∧ 3 ≤ s.mode ∧ s.gran.queue = (p, force) :: rest ∧ p < 1024 ∧ (force = true ∨ s.gran.dirty.contains p = true)) ∧
    (∃ (s : State) (pin i : Nat), pin < 2 ∧ i < 16 ∧ (s.gran.busy ≠ none ∨ s.mode < 3 ∨ s.gran.queue = [])) ∧
    (∃ (s : State) (pin p i : Nat) (ok : Bool), pin < 2 ∧ i < 16 ∧ s.gran.busy = some p ∧ ok = true) ∧
    (∃ (s : State) (pin p i : Nat) (ok : Bool), pin < 2 ∧ i < 16 ∧ s.gran.busy = some p ∧ p < 1024 ∧ ok = false) :=
  ⟨⟨(tm 8 [] id id), 1, 5000, 5, true, by dsimp only; decide +kernel⟩,
   ⟨(tm 1 [] id id), 1, 5, by dsimp only; decide +kernel⟩,
   ⟨(tm 8 [] (fun g => { g with queue := [(7, true), (8, false)], dirty := [8, 7] }) id), 1, 7, 5, true, ([(8, false)]), by decide +kernel⟩,
   ⟨(tm 8 [] id id), 1, 5, by decide +kernel⟩,
   ⟨(gb 8 false), 1, 401, 5, true, by decide +kernel⟩,
   ⟨(gb 8 true), 1, 401, 5, false, by decide +kernel⟩⟩

theorem witness_PagesAreStored_T12_1 :
    (∃ (s : State) (pin p c i : Nat) (worn : Bool), pin < 2 ∧ i < 16 ∧
      let page := s.pageSt p
      let now := if page.curB then page.b else page.a
      let w := s.gran.wear.getD c {}
      0 < w.now ∧ worn = false) ∧
    (∃ (s : State) (pin p c i : Nat), pin < 2 ∧ i < 16 ∧
      let page := s.pageSt p
      let now := if page.curB then page.b else page.a
      let w := s.gran.wear.getD c {}
      w.now = 0) :=
  ⟨⟨(gb 8 false), 1, 401, 3, 5, false, by dsimp only; decide +kernel⟩,
   ⟨(tm 8 [] id id), 1, 7, 3, 5, by dsimp only; decide +kernel⟩⟩

theorem witness_FaultsAreRecorded_T12_0 :
    (∃ (s : State) (n : Nat), 
      let arises := 2 ≤ s.mode ∧ n ≠ 0 ∧ s.wfPresent n = true ∧ State.wfHeld n = false
      let quiet := s.wd.cur = none ∧ s.mode ≠ 13
      arises ∧ s.suppressed n = false ∧ s.latched n = false ∧ quiet ∧ s.on wchR WCH_FIRST_VALID = false ∧ s.effSev n = 3) ∧
    (∃ (s : State) (n : Nat), 
      let arises := 2 ≤ s.mode ∧ n ≠ 0 ∧ s.wfPresent n = true ∧ State.wfHeld n = false
      let quiet := s.wd.cur = none ∧ s.mode ≠ 13
      arises ∧ s.suppressed n = false ∧ s.latched n = false ∧ quiet ∧ s.on wchR WCH_FIRST_VALID = false ∧ s.effSev n < 2) ∧
    (∃ (s : State) (n : Nat), 
      let arises := 2 ≤ s.mode ∧ n ≠ 0 ∧ s.wfPresent n = true ∧ State.wfHeld n = false
      arises ∧ s.suppressed n = false ∧ s.latched n = true) ∧
    (∃ (s : State) (n : Nat), 
      let arises := 2 ≤ s.mode ∧ n ≠ 0 ∧ s.wfPresent n = true ∧ State.wfHeld n = false
      arises ∧ s.suppressed n = true) ∧
    (∃ (s : State) (n k : Nat) (r : React), 
      let now := s.prism.tick
      let idle := fun (m : Nat) => ∀ j, j < 96 → j ≠ m → s.on wchR (State.mapBit WCH_PEND_PEND j) = false
      s.wd.cur = some r ∧ r.ends ≤ now ∧ idle 96 ∧ (n, k, none) ∈ s.wd.supp) ∧
    (∃ (s : State) (k : Nat) (r : React), 
      let now := s.prism.tick
      let idle := fun (m : Nat) => ∀ j, j < 96 → j ≠ m → s.on wchR (State.mapBit WCH_PEND_PEND j) = false
      s.wd.cur = some r ∧ r.ends ≤ now ∧ k < 96 ∧ s.on wchR (State.mapBit WCH_PEND_PEND k) = true ∧ idle k ∧ assocD 0 s.wd.sev k ≤ 3) :=
  ⟨⟨(wa 8 [(wchR, State.sevField 10, 3)] (fun w => { w with missed := 4 })), 10, by dsimp only; decide +kernel⟩,
   ⟨(wa 8 [] id), 10, by dsimp only; decide +kernel⟩,
   ⟨(wa 8 [(wchR, State.sevField 10, 2), (wchR, State.mapBit WCH_LAT_LAT 10, 1)] (fun w => { w with missed := 4 })), 10, by dsimp only; decide +kernel⟩,
   ⟨(wa 8 [(wchR, State.sevField 10, 2), (wchR, State.mapBit WCH_LAT_LAT 10, 1)] (fun w => { w with missed := 4, supp := [(17, 10, none), (17, 11, some 70000)] })), 10, by dsimp only; decide +kernel⟩,
   ⟨(wa 8 [(wchR, WCH_STATUS_RACT, 1), (wchR, WCH_STATUS_RSRC, 17)] (fun w => { w with cur := some rr, missed := 4, supp := [(17, 10, none), (17, 11, some 70000)] })), 17, 10, rr, by dsimp only; decide +kernel⟩,
   ⟨(wa 8 [(wchR, WCH_STATUS_RACT, 1), (wchR, WCH_STATUS_QCNT, 1), (wchR, WCH_STATUS_RSRC, 17), (wchR, State.mapBit WCH_PEND_PEND 40, 1)] (fun w => { w with cur := some rr, sev := [(40, 2)], missed := 4, supp := [(17, 10, none), (17, 11, some 70000)] })), 40, rr, by dsimp only; decide +kernel⟩⟩

theorem witness_FaultsAreRecorded_T12_1 :
    (∃ (s : State) (r : React), 
      let now := s.prism.tick
      (s.wd.cur = none ∨ s.wd.cur = some r ∧ now < r.ends)) ∧
    (∃ (s : State), 
      let now := s.prism.tick
      3 ≤ s.mode ∧ 4 ≤ s.wd.missed ∧ s.wd.barked ≠ some now ∧ s.suppressed 1 = false ∧ (∀ e ∈ s.wd.supp, e.2.1 = 1 → e.2.2 ≠ some now) ∧ s.latched 1 = false ∧ s.wd.cur = none ∧ s.effSev 1 = 2) ∧
    (∃ (s : State), 
      let now := s.prism.tick
      (s.mode < 3 ∨ s.wd.missed < 4 ∨ s.wd.barked = some now)) ∧
    (∃ (s : State) (b : Nat), 
      let now := s.prism.tick
      s.wd.safeAt = some b ∧ b ≤ now ∧ 3 ≤ s.mode ∧ s.mode ≠ 13 ∧ s.mode < 6) ∧
    (∃ (s : State) (b : Nat), 
      let now := s.prism.tick
      s.wd.safeAt = some b ∧ b ≤ now ∧ 3 ≤ s.mode ∧ s.mode ≠ 13 ∧ 6 ≤ s.mode) ∧
    (∃ (s : State) (b : Nat), 
      let now := s.prism.tick
      s.wd.safeAt = some b ∧ b ≤ now ∧ 3 ≤ s.mode ∧ s.mode ≠ 13 ∧ s.hasKey = true) :=
  ⟨⟨(wa 8 [] id), rr, by dsimp only; decide +kernel⟩,
   ⟨(wa 8 [(wchR, State.sevField 10, 3)] (fun w => { w with missed := 4 })), by dsimp only; decide +kernel⟩,
   ⟨(wa 8 [] id), by dsimp only; decide +kernel⟩,
   ⟨(wa 4 [] (fun w => { w with safeAt := some 70000 })), 70000, by dsimp only; decide +kernel⟩,
   ⟨(wa 8 [(mirR, MIR_CFG_EN, 1), (mirR, MIR_KEY_HOLD, 1)] (fun w => { w with safeAt := some 70000 })), 70000, by dsimp only; decide +kernel⟩,
   ⟨(wa 8 [(mirR, MIR_CFG_EN, 1), (mirR, MIR_KEY_HOLD, 1)] (fun w => { w with safeAt := some 70000 })), 70000, by dsimp only; decide +kernel⟩⟩

theorem witness_FaultsAreRecorded_T12_2 :
    ∃ (s : State) (b : Nat), 
      let now := s.prism.tick
      (s.wd.safeAt = none ∨ s.wd.safeAt = some b ∧ now < b) :=
  ⟨(wa 8 [] id), 0, by dsimp only; decide +kernel⟩

end Sys2Proof.Tests.T12

namespace Sys2Proof.Tests.T13

set_option Elab.async false

def M (m : Nat) (l : List (Nat × Fld × Nat)) (s : State := State.reset) : State := S ((pwrR, PWR_STATUS_MODE, m) :: l) s
def pw (m : Nat) (l : List (Nat × Fld × Nat)) (g : State → State := id) : State :=
  g { M m l with ltc := { sec := 1000, ns := 31250 * 5, frac := 7 } , prism := { (State.reset).prism with tick := 70000 } }
def im : List Byte := leBytes 4 4 ++ leBytes 4 (crc32 [1,2,3,4]) ++ leBytes 2 ((State.reset).get glbR GLB_ID_STEP) ++ leBytes 6 0x1234 ++ [1,2,3,4]
def ap (b : List Byte) : State := pw 6 [] (fun s => ({ s with pwr := { s.pwr with starting := false, imageFrom := some 5 } }).sramWrite State.imageBase b)
def rc : List Byte := leBytes 4 (((lomR 1 + LOM_CFG_RETRY.idx) / 1024 * 2^14 + (lomR 1 + LOM_CFG_RETRY.idx) % 1024 * 4)) ++ leBytes 4 0x77

theorem witness_SuppliesFailAndReturn_T13_0 :
    (∃ (s : State) (pin : Bool), 
      let on := fun (t : State) (f : Fld) => t.on pwrR f
      let warned := 2 ≤ s.mode ∧ (pin = true ∨ on s PWR_HOLD_EN = true)
      warned ∧ pin = true) ∧
    (∃ (s : State) (pin : Bool), 
      let on := fun (t : State) (f : Fld) => t.on pwrR f
      let warned := 2 ≤ s.mode ∧ (pin = true ∨ on s PWR_HOLD_EN = true)
      warned ∧ on s PWR_STATUS_PF = false ∧ 6 ≤ s.mode ∧ (∀ q ∈ s.gran.reqs, q.tamper = false)) ∧
    (∃ (s : State) (pin : Bool), 
      let on := fun (t : State) (f : Fld) => t.on pwrR f
      let pages := (List.range 1024).filter (fun p => s.gran.marks.contains p && s.gran.dirty.contains p)
      let warned := 2 ≤ s.mode ∧ (pin = true ∨ on s PWR_HOLD_EN = true)
      warned ∧ on s PWR_STATUS_PF = false ∧ 6 ≤ s.mode ∧ pages ≠ []) ∧
    (∃ (s : State) (pin : Bool), 
      let on := fun (t : State) (f : Fld) => t.on pwrR f
      let warned := 2 ≤ s.mode ∧ (pin = true ∨ on s PWR_HOLD_EN = true)
      warned ∧ on s PWR_STATUS_PF = false ∧ s.mode < 6 ∧ s.pwr.recovered = false) ∧
    (∃ (s : State) (pin : Bool), 
      let on := fun (t : State) (f : Fld) => t.on pwrR f
      let warned := 2 ≤ s.mode ∧ (pin = true ∨ on s PWR_HOLD_EN = true)
      (¬warned)) ∧
    (∃ (s : State), 
      let on := fun (t : State) (f : Fld) => t.on pwrR f
      on s PWR_STATUS_PFW = true ∧ (∀ k, k < 5 → on s (PWR_RAIL_OK.bit k) = true)) :=
  ⟨⟨(pw 8 [] (fun s => { s with gran := { s.gran with marks := [4,7], dirty := [9,7] } })), true, by dsimp only; decide +kernel⟩,
   ⟨(pw 8 [] (fun s => { s with gran := { s.gran with marks := [4,7], dirty := [9,7] } })), true, by dsimp only; decide +kernel⟩,
   ⟨(pw 8 [] (fun s => { s with gran := { s.gran with marks := [4,7], dirty := [9,7] } })), true, by dsimp only; decide +kernel⟩,
   ⟨(pw 3 [(pwrR, PWR_STATUS_PFW, 1)]), true, by dsimp only; decide +kernel⟩,
   ⟨(pw 3 [(pwrR, PWR_RAIL_OK, 0x7FF7)] (fun s => s.setWd (fun w => { w with held := [18] }))), false, by dsimp only; decide +kernel⟩,
   ⟨(pw 3 [(pwrR, PWR_STATUS_PFW, 1)]), by dsimp only; decide +kernel⟩⟩

theorem witness_SuppliesFailAndReturn_T13_1 :
    (∃ (s : State) (r : Nat), 
      let on := fun (t : State) (f : Fld) => t.on pwrR f
      r < 15 ∧ (5 ≤ r ∨ on s PWR_STATUS_PFW = true)) ∧
    (∃ (s : State) (r : Nat), 
      let on := fun (t : State) (f : Fld) => t.on pwrR f
      r < 15 ∧ r < 5 ∧ on s PWR_STATUS_PFW = false ∧ s.wd.held.contains 18 = false ∧ s.suppressed 18 = false) ∧
    (∃ (s : State) (r : Nat), 
      let on := fun (t : State) (f : Fld) => t.on pwrR f
      r < 15 ∧ r < 5 ∧ (∀ k, k < 5 → k ≠ r → on s (PWR_RAIL_OK.bit k) = true)) ∧
    (∃ (r : Nat), 15 ≤ r) ∧
    (∃ (s : State), 2 ≤ s.mode ∧ s.pwr.coreFail = none) ∧
    (∃ (s : State), (s.mode < 2 ∨ s.pwr.coreFail ≠ none)) :=
  ⟨⟨(pw 8 [(pwrR, PWR_HOLD_EN, 1)]), 7, by dsimp only; decide +kernel⟩,
   ⟨(pw 8 [] (fun s => { s with gran := { s.gran with marks := [4,7], dirty := [9,7] } })), 3, by dsimp only; decide +kernel⟩,
   ⟨(pw 8 [] (fun s => { s with gran := { s.gran with marks := [4,7], dirty := [9,7] } })), 3, by dsimp only; decide +kernel⟩,
   ⟨15, by decide +kernel⟩,
   ⟨(pw 8 [] (fun s => { s with gran := { s.gran with marks := [4,7], dirty := [9,7] } })), by decide +kernel⟩,
   ⟨(pw 8 [] (fun s => { s with hearth := { s.hearth with emberDue := true }, pwr := { s.pwr with coreFail := some 69999 } })), by decide +kernel⟩⟩

theorem witness_SuppliesFailAndReturn_T13_2 :
    (∃ (s : State) (w : Nat), s.hearth.emberDue = true ∧ s.pwr.coreFail = some w ∧ w < s.prism.tick ∧ s.hearth.emberOn = false) ∧
    (∃ (s : State) (c1 : Rat), s.hearth.emberOn = true ∧ s.hearth.emberSec < s.ltc.sec ∧ s.hearth.kC1 = some c1) ∧
    (∃ (s : State), s.hearth.emberOn = true ∧ s.hearth.emberSec < s.ltc.sec ∧ s.hearth.kC1 = none) ∧
    (∃ (s : State), (s.hearth.emberOn = false ∨ s.ltc.sec ≤ s.hearth.emberSec)) ∧
    (∃ (s : State), s.mode = 1) ∧
    (∃ (s : State), s.mode ≠ 1) :=
  ⟨⟨(pw 8 [] (fun s => { s with hearth := { s.hearth with emberDue := true }, pwr := { s.pwr with coreFail := some 69999 } })), 69999, by decide +kernel⟩,
   ⟨(pw 1 [] (fun s => { s with hearth := { s.hearth with emberOn := true, emberSec := 990, kC1 := some (1/10^9) } })), (1/10^9), by decide +kernel⟩,
   ⟨(pw 1 [] (fun s => { s with hearth := { s.hearth with emberOn := true, emberSec := 990 } })), by decide +kernel⟩,
   ⟨(pw 8 [] (fun s => { s with gran := { s.gran with marks := [4,7], dirty := [9,7] } })), by decide +kernel⟩,
   ⟨(pw 1 [] (fun s => { s with hearth := { s.hearth with emberOn := true, emberSec := 990, kC1 := some (1/10^9) } })), by decide +kernel⟩,
   ⟨(pw 8 [] (fun s => { s with gran := { s.gran with marks := [4,7], dirty := [9,7] } })), by decide +kernel⟩⟩

theorem witness_ThePartStartsAndResets_T13_0 :
    (∃ (s : State), s.mode = 0) ∧
    (∃ (s : State), s.mode = 1) ∧
    (∃ (s : State), 2 ≤ s.mode) ∧
    (∃ (s : State), s.mode = 2 ∧ s.pwr.rstLow = false) ∧
    (∃ (s : State), (s.mode ≠ 2 ∨ s.pwr.rstLow = true)) ∧
    (∃ (s : State), s.mode < 3) :=
  ⟨⟨(pw 0 []), by decide +kernel⟩,
   ⟨(pw 1 [(ltcR, LTC_STATUS_SET, 1)]), by decide +kernel⟩,
   ⟨(pw 2 [(ltcR, LTC_STATUS_SET, 1)]), by decide +kernel⟩,
   ⟨(pw 2 [(ltcR, LTC_STATUS_SET, 1)]), by decide +kernel⟩,
   ⟨(pw 0 []), by decide +kernel⟩,
   ⟨(pw 0 []), by decide +kernel⟩⟩

theorem witness_ThePartStartsAndResets_T13_1 :
    (∃ (s : State) (f : Nat), f ≤ s.host.nvf ∧ s.host.flr = []) ∧
    (∃ (s : State) (f : Nat), s.host.nvf < f) ∧
    (∃ (s : State) (n : Nat), 3 ≤ s.mode ∧ s.host.nvf ≤ min n 15) ∧
    (∃ (s : State) (f n k : Nat), 3 ≤ s.mode ∧ n < f ∧ f ≤ s.host.nvf ∧ f < 16 ∧ k < 17) ∧
    (∃ (s : State), s.mode = 3) ∧
    (∃ (s : State), s.mode = 4 ∧ s.pwr.recovered = false ∧ s.gran.retained = true) :=
  ⟨⟨(pw 0 []), 0, by decide +kernel⟩,
   ⟨(pw 3 [] (fun s => { s with host := { s.host with nvf := 2 } })), 3, by decide +kernel⟩,
   ⟨(pw 3 [] (fun s => { s with host := { s.host with nvf := 2 } })), 12, by decide +kernel⟩,
   ⟨(pw 8 [(ltcR, LTC_STATUS_SET, 1), (fringR 3 5, GLB_RING_CFG_LOG2SIZE, 4)] (fun s => { s with host := { s.host with nvf := 5 } })), 3, 2, 5, by decide +kernel⟩,
   ⟨(pw 3 [] (fun s => { s with host := { s.host with nvf := 2 } })), by decide +kernel⟩,
   ⟨(pw 4 [] (fun s => { s with gran := { s.gran with retained := true, dirty := [4], sram := [(3, 5#8)] } })), by decide +kernel⟩⟩

theorem witness_ThePartStartsAndResets_T13_2 :
    (∃ (s : State) (n k : Nat), s.mode = 4 ∧ s.pwr.recovered = false ∧ s.gran.retained = false ∧ n < 1024 ∧ k < 512 ∧ (s.pageSt n).a.valid = true ∧ (s.pageSt n).b.valid = false) ∧
    (∃ (s : State) (ver crc : Nat), 
      let step := s.get glbR GLB_ID_STEP
      let img := State.imageCheck step s.granImage
      let loads := s.mode = 4 ∧ s.pwr.recovered = true ∧ s.pwr.tried = false
      loads ∧ s.get pwrR PWR_BOOT_STRAP ≠ 2 ∧ s.get pwrR PWR_BOOT_STRAP ≠ 1 ∧ img = .inr (ver, crc)) ∧
    (∃ (s : State) (n : Nat), 
      let step := s.get glbR GLB_ID_STEP
      let img := State.imageCheck step s.granImage
      let loads := s.mode = 4 ∧ s.pwr.recovered = true ∧ s.pwr.tried = false
      loads ∧ s.get pwrR PWR_BOOT_STRAP = 3 ∧ img = .inl n ∧ n < 8) ∧
    (∃ (s : State), 
      let loads := s.mode = 4 ∧ s.pwr.recovered = true ∧ s.pwr.tried = false
      loads ∧ s.get pwrR PWR_BOOT_STRAP = 2) ∧
    (∃ (s : State), 
      let loads := s.mode = 4 ∧ s.pwr.recovered = true ∧ s.pwr.tried = false
      (¬loads)) ∧
    (∃ (s : State) (crc : Nat), s.mode = 5 ∧ s.gran.lost = [] ∧ crc % 32 = 31) :=
  ⟨⟨(pw 4 [] (fun s => { s with gran := { s.gran with shadow := [(3*512+5, 9#8)], dirty := [4], retained := false, sram := [(3, 5#8)] } })), 3, 5, by decide +kernel⟩,
   ⟨(pw 4 [] (fun s => ({ s with pwr := { s.pwr with recovered := true } }).sramWrite 65536 im)), 0x1234, (crc32 [1,2,3,4]), by dsimp only; decide +kernel⟩,
   ⟨(pw 4 [(pwrR, PWR_BOOT_STRAP, 3)] (fun s => ({ s with pwr := { s.pwr with recovered := true } }))), 1, by dsimp only; decide +kernel⟩,
   ⟨(pw 4 [(pwrR, PWR_BOOT_STRAP, 2)] (fun s => ({ s with pwr := { s.pwr with recovered := true } }))), by dsimp only; decide +kernel⟩,
   ⟨(pw 0 []), by dsimp only; decide +kernel⟩,
   ⟨(pw 5 []), 31, by decide +kernel⟩⟩

theorem witness_ThePartStartsAndResets_T13_3 :
    (∃ (s : State) (crc : Nat), s.mode = 5 ∧ s.gran.lost = [] ∧ crc = 0 ∧ s.suppressed 46 = false) ∧
    (∃ (s : State), s.mode ≠ 5) ∧
    (∃ (s : State), 
      let recN := leNat (s.sramRead State.imageBase 4)
      let applies := s.mode = 6 ∧ s.pwr.imageDone = false ∧ s.pwr.imageFrom ≠ none ∧ s.wd.reeveHold = none ∧ s.pwr.starting = false
      applies ∧ recN = 0) ∧
    (∃ (s : State), 
      let recN := leNat (s.sramRead State.imageBase 4)
      let applies := s.mode = 6 ∧ s.pwr.imageDone = false ∧ s.pwr.imageFrom ≠ none ∧ s.wd.reeveHold = none ∧ s.pwr.starting = false
      applies ∧ 4095 < recN) ∧
    (∃ (s : State), 
      let recN := leNat (s.sramRead State.imageBase 4)
      let applies := s.mode = 6 ∧ s.pwr.imageDone = false ∧ s.pwr.imageFrom ≠ none ∧ s.wd.reeveHold = none ∧ s.pwr.starting = false
      applies ∧ recN = 1 ∧ crc32 (s.sramRead (State.imageBase + 8) 8) = leNat (s.sramRead (State.imageBase + 4) 4)) ∧
    (∃ (s : State), (s.pwr.imageDone = true ∨ s.pwr.imageFrom = none)) :=
  ⟨⟨(pw 5 []), 0, by decide +kernel⟩,
   ⟨(pw 0 []), by decide +kernel⟩,
   ⟨(ap []), by dsimp only; decide +kernel⟩,
   ⟨(ap [0,16]), by dsimp only; decide +kernel⟩,
   ⟨(ap (leBytes 4 1 ++ leBytes 4 (crc32 rc) ++ rc)), by dsimp only; decide +kernel⟩,
   ⟨(pw 0 []), by decide +kernel⟩⟩

theorem witness_ThePartStartsAndResets_T13_4 :
    (∃ (s : State) (w : Nat), 
      let auto := s.pwr.starting = true ∧ s.mode = 6 ∧ s.pwr.autoAt = some w ∧ w ≤ s.prism.tick
      let m := s.get pwrR PWR_AUTO_MODE
      auto ∧ m = 6) ∧
    (∃ (s : State) (w : Nat), 
      let auto := s.pwr.starting = true ∧ s.mode = 6 ∧ s.pwr.autoAt = some w ∧ w ≤ s.prism.tick
      let m := s.get pwrR PWR_AUTO_MODE
      auto ∧ m ≠ 6 ∧ s.paired = false) ∧
    (∃ (s : State) (w : Nat), 
      let auto := s.pwr.starting = true ∧ s.mode = 6 ∧ s.pwr.autoAt = some w ∧ w ≤ s.prism.tick
      let m := s.get pwrR PWR_AUTO_MODE
      auto ∧ 7 ≤ m ∧ m ≤ 10 ∧ s.paired = true) ∧
    (∃ (s : State), (s.pwr.starting = false ∨ s.mode ≠ 6)) :=
  ⟨⟨(pw 6 [(pwrR, PWR_AUTO_MODE, 6), (mirR, MIR_CFG_EN, 1)] (fun s => ({ s with pwr := { s.pwr with starting := true, autoAt := some 70000 } }))), 70000, by dsimp only; decide +kernel⟩,
   ⟨(pw 6 [(pwrR, PWR_AUTO_MODE, 8)] (fun s => ({ s with pwr := { s.pwr with starting := true, autoAt := some 70000 } }))), 70000, by dsimp only; decide +kernel⟩,
   ⟨(pw 6 [(pwrR, PWR_AUTO_MODE, 8), (mirR, MIR_CFG_EN, 1)] (fun s => ({ s with pwr := { s.pwr with starting := true, autoAt := some 70000 } }))), 70000, by dsimp only; decide +kernel⟩,
   ⟨(pw 0 []), by decide +kernel⟩⟩

end Sys2Proof.Tests.T13

namespace Sys2Proof.Tests.T14

set_option Elab.async false

def Wr (who : Who) (k : Nat) (v : Nat) (p : Nat := 0) (be := 15) : Access := ⟨who, k/1024*2^14 + p*4096 + k%1024*4, 4, be, v, 0⟩
def P0 : Who := ⟨0,false,false⟩
def P2 : Who := ⟨2,false,false⟩
def RV : Who := ⟨0,true,false⟩
def M (m : Nat) (l : List (Nat × Fld × Nat)) (s : State := State.reset) : State := S ((pwrR, PWR_STATUS_MODE, m) :: l) s
def mc := milR 1 + MIL_CFG_EN.idx
def F := 2^32-1
def T (a : Access) : Access := a
def lt (l : List (Nat × Fld × Nat)) : State := { M 7 l with ltc := { sec := 2^33+17, ns := 31250*31999 + 5, frac := 99 } }
def ck := ltcR + LTC_CAPTURE_GO.idx
def sk := ltcR + LTC_STEP_CTL_GO.idx
def uk := ltcR + LTC_UTCOFF_OFFSET.idx
def ub (l : Fld) (v : Nat) := v * 2^l.lo
def vk := glbR + GLB_VIOL_INFO_COUNT.idx
def vs : State := M 7 [(glbR, GLB_VIOL_INFO_COUNT, 5), (glbR, GLB_VIOL_ADDR_OFFSET, 5)]
def rb := fringR 2 5
def en (b : Nat) (f : Fld) (v0 v : Nat) (m := 7) : State × Access := (M m [(b, f, v0)], if v = 1 then Wr P0 (b + f.idx) (2^f.lo) 1 else Wr P0 (b + f.idx) (2^f.lo) 2)
def tb : List (Nat × Fld × Nat) := [(priR 1, PRS_MON_EN,1), (ensR 1, GLB_ENS_CFG_EN,1), (milR 1, MIL_CFG_EN,1), (lomR 1, LOM_CFG_EN,1), (bstR 1, LNS_BST_CTL_ARM,1)]
def ok' := outR 9 + OUT_CFG_EN.idx

theorem witness_PersonalitiesWriteScratch :
    ∃ (s : State) (who : Who) (p v : Nat), s.answers who = true ∧ p < 4 ∧ v < 2 ^ 32 :=
  ⟨(M 7 [(glbR, GLB_SCRATCH_DATA, 0x12345678)]), P0, 3, 0xABCD1234, by decide +kernel⟩

theorem witness_WritesMergeByMask :
    ∃ (s : State) (a : Access) (m d : Nat), Presents s a (glbR + GLB_SCRATCH_DATA.idx) m d :=
  ⟨(M 7 [(glbR, GLB_SCRATCH_DATA, 0x12345678)]), (⟨P0, 4 + 2, 2, 3, 0xABCD, 0⟩), (F - 0xFFFF), 0xABCD0000, presents_of (by decide +kernel)⟩

theorem witness_CrossingAccessesAreFlagged :
    (∃ (s : State) (a : Access), s.answers a.who = true ∧ 0 < a.len ∧ 4 < a.off % 4 + a.len ∧ (¬(a.len = 8 ∧ a.off % 8 = 0)) ∧ a.who.rve = false) ∧
    (∃ (s : State) (a : Access), s.answers a.who = true ∧ 0 < a.len ∧ 4 < a.off % 4 + a.len ∧ (¬(a.len = 8 ∧ a.off % 8 = 0)) ∧ s.suppressed 7 = false) :=
  ⟨⟨({ M 7 [] with host := { nvf := 3 } }), (⟨P2, 6, 4, 15, 7, 0⟩), by decide +kernel⟩,
   ⟨({ M 7 [] with host := { nvf := 3 } }), (⟨P2, 6, 4, 15, 7, 0⟩), by decide +kernel⟩⟩

theorem witness_LockedFieldsKeepTheirValue :
    ∃ (s : State) (a : Access) (c m d : Nat), 
      let k := milR c + MIL_CFG_EN.idx
      let w := merged (s.reg k).toNat m d
      c < s.nMil ∧ Presents s a k m d ∧ s.cfgOpen = false ∧ s.on (milR c) MIL_CFG_EN = true ∧ (bitsOf w MIL_CFG_CASC.lo MIL_CFG_CASC.width ≠ s.get (milR c) MIL_CFG_CASC ∨ bitsOf w MIL_CFG_CSRC.lo MIL_CFG_CSRC.width ≠ s.get (milR c) MIL_CFG_CSRC) :=
  ⟨(M 7 [(milR 1, MIL_CFG_EN, 1), (milR 1, MIL_CFG_CSRC, 2)]), (Wr P0 mc (F - 1)), 1, F, (F-1), by decide +kernel, presents_of (by decide +kernel), by decide +kernel, by decide +kernel, by decide +kernel⟩

theorem witness_CaptureLatchesTheLtc :
    ∃ (s : State) (a : Access) (m d : Nat), Presents s a (ltcR + LTC_CAPTURE_GO.idx) m d ∧ m % 2 = 1 ∧ d % 2 = 1 :=
  ⟨(lt []), ({ Wr P0 ck 1 with pos := 5 * 2^32 + 3 }), F, 1, presents_of (by decide +kernel), by decide +kernel, by decide +kernel⟩

theorem witness_StepRequestsArePending :
    (∃ (s : State) (a : Access) (m d : Nat), Presents s a (ltcR + LTC_STEP_CTL_GO.idx) m d ∧ State.privileged a.who = true ∧ m % 2 = 1 ∧ d % 2 = 1 ∧ s.on ltcR LTC_STEP_CTL_GO = false ∧ s.on ltcR LTC_STATUS_STEP_PEND = false) ∧
    (∃ (s : State) (a : Access) (m d : Nat), Presents s a (ltcR + LTC_STEP_CTL_GO.idx) m d ∧ State.privileged a.who = true ∧ m % 2 = 1 ∧ d % 2 = 1 ∧ s.on ltcR LTC_STEP_CTL_GO = false ∧ s.on ltcR LTC_STATUS_STEP_PEND = true) :=
  ⟨⟨(lt [(ltcR, LTC_STEP_S_LO_S_LO, 5), (ltcR, LTC_STEP_S_HI_S_HI, 6), (ltcR, LTC_STEP_NS_NS, 77)]), (Wr P0 sk 1), F, 1, presents_of (by decide +kernel), by decide +kernel, by decide +kernel, by decide +kernel, by decide +kernel, by decide +kernel⟩,
   ⟨(lt [(ltcR, LTC_STATUS_STEP_PEND, 1)]), (Wr RV sk 1), F, 1, presents_of (by decide +kernel), by decide +kernel, by decide +kernel, by decide +kernel, by decide +kernel, by decide +kernel⟩⟩

theorem witness_UtcoffWritesGuardTheLeapBits :
    (∃ (s : State) (a : Access) (m d : Nat), 
      let k := ltcR + LTC_UTCOFF_OFFSET.idx
      let w := merged (s.reg k).toNat m d
      Presents s a k m d ∧ (s.on ltcR LTC_UTCOFF_LEAP61 && s.on ltcR LTC_UTCOFF_LEAP59) = false ∧
      let both := bitsOf w LTC_UTCOFF_LEAP61.lo 1 = 1 ∧ bitsOf w LTC_UTCOFF_LEAP59.lo 1 = 1
      (¬both)) ∧
    (∃ (s : State) (a : Access) (m d : Nat), 
      let k := ltcR + LTC_UTCOFF_OFFSET.idx
      let w := merged (s.reg k).toNat m d
      Presents s a k m d ∧ (s.on ltcR LTC_UTCOFF_LEAP61 && s.on ltcR LTC_UTCOFF_LEAP59) = false ∧
      let both := bitsOf w LTC_UTCOFF_LEAP61.lo 1 = 1 ∧ bitsOf w LTC_UTCOFF_LEAP59.lo 1 = 1
      both) :=
  ⟨⟨(lt [(ltcR, LTC_UTCOFF_LEAP61, 1), (ltcR, LTC_UTCOFF_LEAP_INS, 1)]), (Wr P0 uk (F - ub LTC_UTCOFF_LEAP61 1)), F, (F - ub LTC_UTCOFF_LEAP61 1), presents_of (by decide +kernel), by decide +kernel, by decide +kernel⟩,
   ⟨(lt []), (Wr P0 uk F), F, F, presents_of (by decide +kernel), by decide +kernel, by decide +kernel⟩⟩

theorem witness_ViolationRecordClears :
    (∃ (s : State) (a : Access) (m d : Nat), Presents s a (glbR + GLB_VIOL_INFO_COUNT.idx) m d ∧ State.privileged a.who = true ∧ m < 2 ^ 32 ∧ d < 2 ^ 32 ∧ m = 2 ^ 32 - 1 ∧ d = 2 ^ 32 - 1) ∧
    (∃ (s : State) (a : Access) (m d : Nat), Presents s a (glbR + GLB_VIOL_INFO_COUNT.idx) m d ∧ State.privileged a.who = true ∧ m < 2 ^ 32 ∧ d < 2 ^ 32 ∧ (¬(m = 2 ^ 32 - 1 ∧ d = 2 ^ 32 - 1))) :=
  ⟨⟨vs, (Wr P0 vk F), F, F, presents_of (by decide +kernel), by decide +kernel, by decide +kernel, by decide +kernel, by decide +kernel⟩,
   ⟨vs, (Wr RV vk F 2), F, 0, presents_of (by decide +kernel), by decide +kernel, by decide +kernel, by decide +kernel, by decide +kernel⟩⟩

theorem witness_EnableBitsAreWritten_T14_0 :
    (∃ (s : State) (a : Access) (i : Nat), s.indexPresent i = true ∧ (i < 49 ∨ 56 ≤ i) ∧ writesField s a (priR i) PRS_MON_EN 1) ∧
    (∃ (s : State) (a : Access) (i : Nat), s.indexPresent i = true ∧ (i < 49 ∨ 56 ≤ i) ∧ writesField s a (priR i) PRS_MON_EN 0) ∧
    (∃ (s : State) (a : Access) (i : Nat), i < 8 ∧ writesField s a (ensR i) GLB_ENS_CFG_EN 0) ∧
    (∃ (s : State) (a : Access) (i : Nat), i < s.nMil ∧ writesField s a (milR i) MIL_CFG_EN 1) ∧
    (∃ (s : State) (a : Access) (i : Nat), i < s.nMil ∧ writesField s a (milR i) MIL_CFG_EN 0) ∧
    (∃ (s : State) (a : Access) (i : Nat), i < s.nLom ∧ writesField s a (lomR i) LOM_CFG_EN 1) :=
  ⟨⟨((en (priR 1) PRS_MON_EN 0 1).1), ((en (priR 1) PRS_MON_EN 0 1).2), 1, by decide +kernel, by decide +kernel, writes_of (by decide +kernel)⟩,
   ⟨((en (priR 1) PRS_MON_EN 1 0).1), ((en (priR 1) PRS_MON_EN 1 0).2), 1, by decide +kernel, by decide +kernel, writes_of (by decide +kernel)⟩,
   ⟨((en (ensR 1) GLB_ENS_CFG_EN 1 0).1), ((en (ensR 1) GLB_ENS_CFG_EN 1 0).2), 1, by decide +kernel, writes_of (by decide +kernel)⟩,
   ⟨((en (milR 1) MIL_CFG_EN 0 1).1), ((en (milR 1) MIL_CFG_EN 0 1).2), 1, by decide +kernel, writes_of (by decide +kernel)⟩,
   ⟨((en (milR 1) MIL_CFG_EN 1 0).1), ((en (milR 1) MIL_CFG_EN 1 0).2), 1, by decide +kernel, writes_of (by decide +kernel)⟩,
   ⟨((en (lomR 1) LOM_CFG_EN 0 1).1), ((en (lomR 1) LOM_CFG_EN 0 1).2), 1, by decide +kernel, writes_of (by decide +kernel)⟩⟩

theorem witness_EnableBitsAreWritten_T14_1 :
    (∃ (s : State) (a : Access) (i : Nat), i < s.nLom ∧ writesField s a (lomR i) LOM_CFG_EN 0) ∧
    (∃ (s : State) (a : Access) (i : Nat), i < 2 ∧ writesField s a (bstR i) LNS_BST_CTL_ARM 1) ∧
    (∃ (s : State) (a : Access) (i : Nat), i < 2 ∧ writesField s a (bstR i) LNS_BST_CTL_ARM 0) :=
  ⟨⟨((en (lomR 1) LOM_CFG_EN 1 0).1), ((en (lomR 1) LOM_CFG_EN 1 0).2), 1, by decide +kernel, writes_of (by decide +kernel)⟩,
   ⟨((en (bstR 1) LNS_BST_CTL_ARM 0 1).1), ((en (bstR 1) LNS_BST_CTL_ARM 0 1).2), 1, by decide +kernel, writes_of (by decide +kernel)⟩,
   ⟨((en (bstR 1) LNS_BST_CTL_ARM 1 0).1), ((en (bstR 1) LNS_BST_CTL_ARM 1 0).2), 1, by decide +kernel, writes_of (by decide +kernel)⟩⟩

theorem witness_OutputEnablesAreWritten_T14_0 :
    (∃ (s : State) (a : Access) (o : Nat), o < s.nOut ∧
      let ok := s.withinLimit (o / 8) (s.get (outR o) OUT_CFG_SRC) (s.get (outR o) OUT_CFG_FMT) (s.get (outR o) OUT_DIV_DIV) (s.on (outR o) OUT_CFG_HALF) = true ∨ 9 ≤ s.get (outR o) OUT_CFG_SRC
      writesField s a (outR o) OUT_CFG_EN 1 ∧ ok) ∧
    (∃ (s : State) (a : Access) (o : Nat), o < s.nOut ∧ writesField s a (outR o) OUT_CFG_EN 0) :=
  ⟨⟨(M 7 []), (Wr P0 ok' 1 1), 9, by decide +kernel, writes_of (by decide +kernel), by decide +kernel⟩,
   ⟨(M 7 [(outR 9, OUT_CFG_EN, 1)]), (Wr P0 ok' 1 2), 9, by decide +kernel, writes_of (by decide +kernel)⟩⟩

theorem witness_EnsembleStartsInBoot :
    ∃ (s : State) (a : Access) (e : Nat), e < 8 ∧ (s.ensOf e).on = false ∧ s.on (ensR e) GLB_ENS_CFG_EN = false ∧ writesField s a (ensR e) GLB_ENS_CFG_EN 1 ∧ e < s.ens.length :=
  ⟨(M 7 [(ensR 1, GLB_ENS_STATUS_HANCH, 1)]), (Wr P0 (ensR 1 + GLB_ENS_CFG_EN.idx) (2^GLB_ENS_CFG_EN.lo) 1), 1, by decide +kernel, by decide +kernel, by decide +kernel, writes_of (by decide +kernel), by decide +kernel⟩

theorem witness_LatchRequestsAreNoted :
    (∃ (s : State) (a : Access) (i m d : Nat), i < s.nMil ∧ Presents s a (prcR i + PRS_PL_IDX_IDX.idx) m d ∧ m % 64 ≠ 0) ∧
    (∃ (s : State) (a : Access) (i m d : Nat), i < 8 ∧ Presents s a (ensR i + GLB_ENS_LATCH_SLOT.idx) m d ∧ m % 8 ≠ 0) ∧
    (∃ (s : State) (a : Access) (i m d : Nat), i < s.nMil ∧ Presents s a (milR i + MIL_LATCH_GO.idx) m d ∧ m % 2 = 1 ∧ d % 2 = 1) ∧
    (∃ (s : State) (a : Access) (i m d : Nat), i < s.nMil ∧ Presents s a (milR i + MIL_FRW_HI_FRW.idx) m d ∧ m < 2 ^ 32 ∧ m ≠ 0) ∧
    (∃ (s : State) (a : Access) (m d : Nat), Presents s a (glb1R + GLB_HRT_LATCH_GO.idx) m d ∧ m % 2 = 1 ∧ d % 2 = 1) ∧
    (∃ (s : State) (a : Access) (i m d : Nat), i < s.nLom ∧ Presents s a (lomR i + LOM_BIDX_BIDX.idx) m d ∧ m % 512 ≠ 0) :=
  ⟨⟨(M 7 []), (Wr P0 (prcR 1 + PRS_PL_IDX_IDX.idx) 17), 1, F, 17, by decide +kernel, presents_of (by decide +kernel), by decide +kernel⟩,
   ⟨(M 7 []), (Wr P0 (ensR 1 + GLB_ENS_LATCH_SLOT.idx) 5), 1, F, 5, by decide +kernel, presents_of (by decide +kernel), by decide +kernel⟩,
   ⟨(M 7 []), (Wr P0 (milR 1 + MIL_LATCH_GO.idx) 5), 1, F, 5, by decide +kernel, presents_of (by decide +kernel), by decide +kernel, by decide +kernel⟩,
   ⟨(M 7 [(milR 1, MIL_FRW_LO_FRW, 9)]), (Wr P0 (milR 1 + MIL_FRW_HI_FRW.idx) 0xF0000001), 1, F, 0xF0000001, by decide +kernel, presents_of (by decide +kernel), by decide +kernel, by decide +kernel⟩,
   ⟨(M 7 []), (Wr P0 (glb1R + GLB_HRT_LATCH_GO.idx) 1), F, 1, presents_of (by decide +kernel), by decide +kernel, by decide +kernel⟩,
   ⟨(M 7 []), (Wr P0 (lomR 1 + LOM_BIDX_BIDX.idx) 500), 1, F, 500, by decide +kernel, presents_of (by decide +kernel), by decide +kernel⟩⟩

theorem witness_FcPairsAreLoaded_T14_0 :
    ∃ (s : State) (a : Access) (n m d : Nat), n < s.nLom ∧ Presents s a (lomR n + LOM_FC_HI_FC.idx) m d ∧ m % 2 ^ 14 ≠ 0 ∧
      let hi := merged (s.get (lomR n) LOM_FC_HI_FC) (m % 2 ^ 14) (d % 2 ^ 14)
      let fc := s.get (lomR n) LOM_FC_LO_FC + 2 ^ 32 * hi
      let legal := State.targetOk (s.get (lomR n) LOM_N_N * fc) = true ∧ State.fcOk fc = true
      (¬legal) :=
  ⟨(M 7 [(lomR 1, LOM_FC_LO_FC, 7), (lomR 1, LOM_N_N, 8)]), (Wr P0 (lomR 1 + LOM_FC_HI_FC.idx) 0x10), 1, F, 0x10, by decide +kernel, presents_of (by decide +kernel), by decide +kernel, by decide +kernel⟩

end Sys2Proof.Tests.T14

namespace Sys2Proof.Tests.T16

set_option Elab.async false

def Wr (who : Who) (k : Nat) (v : Nat) (p : Nat := 0) (be := 15) : Access := ⟨who, k/1024*2^14 + p*4096 + k%1024*4, 4, be, v, 0⟩
def P0 : Who := ⟨0,false,false⟩
def P2 : Who := ⟨2,false,false⟩
def RV : Who := ⟨0,true,false⟩
def M (m : Nat) (l : List (Nat × Fld × Nat)) (s : State := State.reset) : State := S ((pwrR, PWR_STATUS_MODE, m) :: l) s
def mc := milR 1 + MIL_CFG_EN.idx
def F := 2^32-1
def T (a : Access) : Access := a
def lt (l : List (Nat × Fld × Nat)) : State := { M 7 l with ltc := { sec := 2^33+17, ns := 31250*31999 + 5, frac := 99 } }
def ck := ltcR + LTC_CAPTURE_GO.idx
def sk := ltcR + LTC_STEP_CTL_GO.idx
def uk := ltcR + LTC_UTCOFF_OFFSET.idx
def ub (l : Fld) (v : Nat) := v * 2^l.lo
def vk := glbR + GLB_VIOL_INFO_COUNT.idx
def vs : State := M 7 [(glbR, GLB_VIOL_INFO_COUNT, 5), (glbR, GLB_VIOL_ADDR_OFFSET, 5)]
def rb := fringR 2 5
def en (b : Nat) (f : Fld) (v0 v : Nat) (m := 7) : State × Access := (M m [(b, f, v0)], if v = 1 then Wr P0 (b + f.idx) (2^f.lo) 1 else Wr P0 (b + f.idx) (2^f.lo) 2)
def tb : List (Nat × Fld × Nat) := [(priR 1, PRS_MON_EN,1), (ensR 1, GLB_ENS_CFG_EN,1), (milR 1, MIL_CFG_EN,1), (lomR 1, LOM_CFG_EN,1), (bstR 1, LNS_BST_CTL_ARM,1)]
def ok' := outR 9 + OUT_CFG_EN.idx

theorem witness_OutputEnablesAreWritten_T16_0 :
    ∃ (s : State) (a : Access) (o : Nat), o < s.nOut ∧
      let ok := s.withinLimit (o / 8) (s.get (outR o) OUT_CFG_SRC) (s.get (outR o) OUT_CFG_FMT) (s.get (outR o) OUT_DIV_DIV) (s.on (outR o) OUT_CFG_HALF) = true ∨ 9 ≤ s.get (outR o) OUT_CFG_SRC
      writesField s a (outR o) OUT_CFG_EN 1 ∧ (¬ok) ∧ s.on (outR o) OUT_CFG_EN = false :=
  ⟨(M 7 [(outR 9, OUT_DIV_DIV, 1)]), (Wr P0 ok' 1 1), 9, by decide +kernel, writes_of (by decide +kernel), by decide +kernel, by decide +kernel⟩

theorem witness_FcPairsAreLoaded_T16_0 :
    ∃ (s : State) (a : Access) (n m d : Nat), n < s.nLom ∧ Presents s a (lomR n + LOM_FC_HI_FC.idx) m d ∧ m % 2 ^ 14 ≠ 0 ∧
      let hi := merged (s.get (lomR n) LOM_FC_HI_FC) (m % 2 ^ 14) (d % 2 ^ 14)
      let fc := s.get (lomR n) LOM_FC_LO_FC + 2 ^ 32 * hi
      let legal := State.targetOk (s.get (lomR n) LOM_N_N * fc) = true ∧ State.fcOk fc = true
      legal :=
  ⟨(M 7 [(lomR 1, LOM_FC_LO_FC, 0x2F900000), (lomR 1, LOM_N_N, 80)]), (Wr P0 (lomR 1 + LOM_FC_HI_FC.idx) 0x950), 1, F, 0x950, by decide +kernel, presents_of (by decide +kernel), by decide +kernel, by decide +kernel⟩

end Sys2Proof.Tests.T16

namespace Sys2Proof.Tests.T17

set_option Elab.async false

def ft : State := { S [(pwrR, PWR_STATUS_MODE, 7),(fringR 0 1, GLB_RING_CFG_LOG2SIZE, 6),(fringR 0 1, GLB_RING_IDX_IDX, 70),(fringR 0 5, GLB_RING_CFG_LOG2SIZE, 6), (fringR 0 1, GLB_RING_CFG_LOG2SIZE, 6), (fringR 0 10, GLB_RING_CFG_LOG2SIZE, 6), (fringR 0 14, GLB_RING_CFG_LOG2SIZE, 6), (fringR 0 10, GLB_RING_CFG_LOG2SIZE, 6), (fringR 0 10, GLB_RING_IDX_IDX, 71)] with host := { rings := [(fringR 0 1, {host := 75, bells := [(75,0)]}),(fringR 0 10, {host := 75, bells := [(75,0)]})]}, ltc := { ns := 62500 } }
def dsc (opc ind fence len : Nat) : List Byte := leBytes 16 (opc + 256*ind + 512*fence + 2^16*7 + 2^48*len + 2^64*50) ++ leBytes 16 0
def ft2 : State := ((ft.put (fringR 0 14) GLB_RING_CFG_LOG2SIZE 6).setRing (fringR 0 14) (fun r => { r with host := 5, bells := [(5,0)] }))

theorem witness_DescriptorsAreFetched_T17_0 :
    ∃ (s u : State) (f cls ring : Nat) (bs : List Byte) (ind : Option (List Byte)), 
      let b := State.classRing f cls ring
      let i := u.ringIdx b
      let kept := (s.ringSt b).far
      let d := (kept.map (fun x => if x.ind then { x with payload := ind } else x)).getD (State.descOf f cls ring i bs ind)
      s.fetchable f cls ring = true ∧ (if kept.isSome then u = s else s.fetchTurn f cls ring = some u) ∧ kept = none ∧ cls = 0 ∧ u.tn + 2 ^ 22 < d.apply :=
  ⟨ft, ((ft.fetchTurn 0 0 1).getD ft), 0, 0, 1, (leBytes 16 (2^16*7 + 2^48*16 + 2^64*(2^23)) ++ leBytes 16 0), none, by dsimp only; decide +kernel⟩

end Sys2Proof.Tests.T17

namespace Sys2Proof.Tests.T19

set_option Elab.async false

def M (m : Nat) (l : List (Nat × Fld × Nat)) (s : State := State.reset) : State := S ((pwrR, PWR_STATUS_MODE, m) :: l) s
def P (n : Nat) (l : List (Nat × Nat × Nat)) : List Byte := leBytes n (l.foldl (fun a x => a + x.2.2 % 2^(8*x.2.1) * 2^(8*x.1)) 0)
def D (tgt : Nat) (l : List (Nat × Nat × Nat)) (n : Nat := 16) (apply := 0) : Desc :=
  { func := 0, cls := 0, ring := 1, idx := 5, opc := 0, ind := n != 16, fence := false, tag := 77, target := tgt, len := n, apply := apply, addr := 0, payload := some (P n l) }
def C (m : Nat) (l : List (Nat × Fld × Nat)) (s : State := State.reset) : State :=
  M m ([(fringR 0 5, GLB_RING_CFG_LOG2SIZE, 6), (fringR 0 1, GLB_RING_CFG_LOG2SIZE, 6), (fringR 0 10, GLB_RING_CFG_LOG2SIZE, 6), (fringR 0 14, GLB_RING_CFG_LOG2SIZE, 6), (fringR 0 5, GLB_RING_IDX_IDX, 71), (fringR 0 5, GLB_RING_BASE_LO_ADDR, 3)] ++ l) { s with ltc := { sec := 3, ns := 31250*7, frac := 99 }, host := { rings := [(fringR 0 5, {host := 65, reserved := 1})] }, prism := { s.prism with tick := 40000 } }
def fcA := 31250000*2^22
def lm (on : Bool) (st : Nat) : State := let s := C 8 [(lomR 2, LOM_STATUS_STATE, st), (lomR 2, LOM_CFG_EN, on.toNat)]; s.setLoom 2 (fun l => { l with on := on })
def pi (en : Nat) : State := C 8 [(piR 3, HRD_PI_CFG_EN, en),(piR 3, HRD_PI_CFG_PORTS, 3)]
def pw (en : Nat) : Desc := D 2 [(0,4,en + 2^9),(12,4,(State.reset.reg (piR 2+3)).toNat),(16,4,7)] 24
def se (n : Nat) : State := C 8 [(hrcR, HRD_SE_CFG_EN, 1), (hrcR, ⟨64, 1, 5⟩, 8), (piR 2, HRD_PI_CFG_PROFILE, 5), (piR 2, HRD_PI_CFG_PORTS, 15)]
def sx : State := C 8 [(hrcR, HRD_SE_CFG_EN, 1), (hrcR, HRD_SE_SIZE_LOG2, 10), (piR 2, HRD_PI_CFG_PROFILE, 5), (piR 2, HRD_PI_CFG_PORTS, 15)]
def ad : Desc := D 0 [(0,1,2+8+32),(8,8,123),(24,8,99),(32,2,0x100)] 64
def oc (ks : List Nat) : State := { sx with hrd := { sx.hrd with sess := (ks).map (fun k => (k, (⟨false, 1, 0, false, k, 0, 0, [], [none,none,none], [{},{},{}], 0⟩ : Sess))) } }
def ac (r : Nat) (c : Int) (tc : Nat) : State := (C 8 [(pjR 2, HRD_PI_JSTAT_REFUSED, r), (glbR, GLB_TIMECHAN_EN, tc), (glbR, GLB_TIMECHAN_CHAN, 3)]).setPi 2 (fun x => { x with c := c, a := 7 })
def pl (up ld : Nat) (cal : Bool) : State := (C 8 [(plkR 1, PLK_STATUS_LINK, up), (plkR 1, PLK_STATUS_LEADER, ld), (plkR 1, PLK_STATUS_CAL, 1)]).setPlk 1 (fun x => { x with calib := cal })
def ky (mode en hold : Nat) (e : Option Nat) : State := (C mode [(mirR, MIR_CFG_EN, en), (mirR, MIR_KEY_HOLD, hold)]).setMir (fun x => { x with ovrEnd := e })

theorem witness_OutputCommandsApply_T19_0 :
    (∃ (s : State) (d : Desc), 
      let pl := d.payload.getD []
      let n := d.target
      let x := s.taken (rowDesc d 0 0)
      Applies s (.loomTune d) ∧
      let sel := fun i => leAt pl 11 1 / 2 ^ i % 2 = 1
      let fc := if sel 0 then leAt pl 0 6 else x.fcReg n
      let nn := if sel 1 then leAt pl 6 1 else x.get (lomR n) LOM_N_N
      (¬(leAt pl 11 1 = 0 ∧ leAt pl 10 1 = 0)) ∧ State.targetOk (nn * fc) = false) ∧
    (∃ (s : State) (d : Desc), 
      let n := d.target
      Applies s (.loomRelock d) ∧
      let en := s.on (lomR n) LOM_CFG_EN
      let runs := (s.loomSt n).on = true ∧ s.loomState n = 1
      en = true ∧ (¬runs)) ∧
    (∃ (s : State) (d : Desc), 
      let pl := d.payload.getD []
      let n := d.target
      let x := s.taken (rowDesc d 0 0)
      Applies s (.outCtl d) ∧
      let sel := fun i => leAt pl 12 1 / 2 ^ i % 2 = 1
      let fl := leAt pl 10 1
      let div := if sel 0 then leAt pl 0 4 else x.get (outR n) OUT_DIV_DIV
      let half : Bool := if sel 0 then fl / 2 % 2 = 1 else x.on (outR n) OUT_CFG_HALF
      let src := if sel 3 then leAt pl 8 1 else x.get (outR n) OUT_CFG_SRC
      let fmt := if sel 4 then leAt pl 9 1 else x.get (outR n) OUT_CFG_FMT
      let en : Bool := if sel 5 then fl % 2 = 1 else x.on (outR n) OUT_CFG_EN
      let bad := (sel 4 ∧ fmt = 2 ∧ x.get (bankR (n / 8)) OUT_BANK_STATUS_VDDO = 1) ∨ (en = true ∧ src ≤ 8 ∧ x.withinLimit (n / 8) src fmt div half = false)
      leAt pl 12 1 ≠ 0 ∧ bad) :=
  ⟨⟨(lm false 0), (D 2 [(6,1,10),(11,1,2)]), applies_of (by decide +kernel), by decide +kernel, by decide +kernel⟩,
   ⟨(lm true 2), (D 2 []), applies_of (by decide +kernel), by decide +kernel, by decide +kernel⟩,
   ⟨(C 8 [(outR 9, OUT_CFG_EN, 1)]), (D 9 [(0,4,1),(12,1,1)]), applies_of (by decide +kernel), by decide +kernel, by decide +kernel⟩⟩

theorem witness_MeasureCommandsApply_T19_0 :
    ∃ (s : State) (d : Desc), Applies s (.sentinelCtl d) :=
  ⟨(C 8 []), (D 0 [(0,4,513),(4,2,1000),(6,2,50),(8,4,5),(12,4,(State.reset.reg (senR + 515)).toNat)]), applies_of (by decide +kernel)⟩

theorem witness_HeraldCommandsApply_T19_0 :
    ∃ (s : State) (d : Desc), 
      let pl := d.payload.getD []
      Applies s (.sessAdd d) ∧
      let b0 := leAt pl 0 1
      let k := bitsOf b0 2 3
      let p := bitsOf b0 5 2
      let x : Sess := { request := bitsOf b0 1 1 = 1, inst := k, port := p, origin := false, addr := leAt pl 8 16, clk := leAt pl 26 8, pnum := leAt pl 24 2, minl := (List.range 3).map (fun i => signed (leAt pl (36 + i) 1) 8) }
      let full := x.request = true ∧ 8 ≤ (s.hrd.sess.filter (fun e => e.2.request && e.2.inst == k && e.2.port == p)).length
      let may := s.seOn = true ∧ s.piUnicast k = true ∧ s.piUses k p = true ∧ s.sessOf k p x.addr = none ∧ ¬full
      (¬may) :=
  ⟨(C 8 []), ad, applies_of (by decide +kernel), by decide +kernel⟩

end Sys2Proof.Tests.T19

namespace Sys2Proof.Tests.T21

set_option Elab.async false

def M (m : Nat) (l : List (Nat × Fld × Nat)) (s : State := State.reset) : State := S ((pwrR, PWR_STATUS_MODE, m) :: l) s
def fcs (l : List Byte) : List Byte := l ++ leBytes 4 (crc32 l)
def pt (clk pnum : Nat) (two : Bool) (ts : Int := 0) (rclk : Nat := 0) (rp : Nat := 2) (corr : Int := 5) : PtpIn := ⟨1, 0, 0, 2, 0, 7, clk, pnum, 3, corr, 2, two, ts, rclk, rp, 1000, fcs (List.replicate 60 0#8)⟩
def hs (prof : Nat) (l : List (Nat × Fld × Nat)) (f : PiSt → PiSt) (g : State → State := id) : State :=
  g (({ M 8 ([(piR 2, HRD_PI_CFG_EN, 1), (piR 2, HRD_PI_CFG_PORTS, 2), (piR 2, HRD_PI_CFG_PROFILE, prof), (hrpR 1, HRD_PORT_STATUS_LINK, 1)] ++ l) with ltc := { sec := 1000, ns := 31250 * 5, frac := 7 } , prism := { tick := 70000 } }).setPi 2 (fun x => f { x with on := true, parent := some ⟨1, 77, 1, none, {}⟩ }))
def dm := (hs 0 [] id)
def P1 : Parent := ⟨1, 77, 1, none, {}⟩
def E := fun (s : State) (m : PtpIn) (d ms t2 y t4 t2p cp : Int) (w : SyncWait) (dq : DelayReq) => (s, m, d, ms, t2, y, t4, t2p, cp, w, dq)
def tI : Int := dm.ingress (pt 77 1 false)
def tr : Nat := dm.get (piR 2) HRD_PI_CFG_TRANS
def mm (two : Bool) (ts : Int := 0) (rclk : Nat := 0) (rp : Nat := 2) (corr : Int := 5) : PtpIn := { pt 77 1 two ts rclk rp corr with trans := tr }
def stp (s : State) : State := { s with ltc := { s.ltc with steps := [1000*10^9] } }
def rq : DelayReq := ⟨1, 3, 4000, none⟩
def rqf : DelayReq := ⟨1, 3, 4000, some (9000, 4100, 8)⟩
def yy : Int := qdiv (600 + (7000 - 4000 - 5)) 2
def idn : Nat := dm.piId 2
def mp (two : Bool) (ts : Int := 0) := { mm two ts idn with dst := 1 }

theorem witness_ExchangesAreFormed_T21_0 :
    ∃ (s : State) (m : PtpIn) (k : Nat) (par : Parent), 
      let x := s.pi k
      let taken := fun (peer : Bool) => s.hears m.port m.raw = true ∧ s.piMatch m peer = some k ∧ s.piUnicast k = false
      let parent := x.parent = some par ∧ par.port = m.port
      let mine := parent ∧ par.clk = m.clk ∧ par.pnum = m.pnum
      taken false ∧ mine ∧ m.twoStep = false ∧ s.stepBetween m.ts (s.ingress m) = true :=
  ⟨(hs 0 [] (fun x => { x with mpd := some 500 }) (fun s => { s with ltc := { s.ltc with atEnd := 10^9 * 2^32, steps := [(10^9 - 5) * 2^32] } })), (mm false ((10^9 - 7000)*65536)), 2, P1, by dsimp only; decide +kernel⟩

end Sys2Proof.Tests.T21

namespace Sys2Proof.Tests.T22

set_option Elab.async false

def M (m : Nat) (l : List (Nat × Fld × Nat)) (s : State := State.reset) : State := S ((pwrR, PWR_STATUS_MODE, m) :: l) s
def hs (prof : Nat) (l : List (Nat × Fld × Nat)) (f : PiSt → PiSt) (g : State → State := id) : State :=
  g (({ M 8 ([(piR 2, HRD_PI_CFG_EN, 1), (piR 2, HRD_PI_CFG_PORTS, 2), (piR 2, HRD_PI_CFG_PROFILE, prof), (hrpR 1, HRD_PORT_STATUS_LINK, 1), (hrcR, HRD_SE_CFG_EN, 1), (hrcR, HRD_SE_SIZE_LOG2, 8)] ++ l) with ltc := { sec := 1000, ns := 31250 * 5, frac := 7 } , prism := { tick := 70000 } }).setPi 2 (fun x => f { x with on := true, parent := some ⟨1, 77, 1, none, {}⟩ }))
def tr : Nat := (hs 0 [] id).get (piR 2) HRD_PI_CFG_TRANS
def fcs (l : List Byte) : List Byte := l ++ leBytes 4 (crc32 l)
def mm (dst : Nat) : PtpIn := ⟨1, tr, dst, 2, 0, 7, 55, 1, 3, 5, 2, false, 0, 0, 2, 1000, fcs (List.replicate 60 0#8)⟩
def F0 (dst ty : Nat) : FrameIn := ⟨1, fcs (beBytes 6 dst ++ List.replicate 6 0#8 ++ beBytes 2 ty ++ List.replicate 46 0#8)⟩
def G0 : Grant := ⟨-2, 1300, 300, 1000, 5, none⟩
def D0 : Desc := ⟨0,1,0,0,0,false,false,0,0,0,0,0,none⟩
def ss (request : Bool) (gr : List (Option Grant)) (asks : List Ask) : Sess := { request := request, inst := 2, port := 1, origin := false, addr := 7, clk := 55, pnum := 1, minl := [0, -3, -4], grants := gr, asks := asks }
def slot : Nat := ((hs 5 [] id).probe 2 1 7).headD 0
def us (x : Sess) (l : List (Nat × Fld × Nat)) : State := hs 5 ([(hrcR, HRD_SE_PCAP_CAP.at 1, 3)] ++ l) (fun p => { p with parent := some ⟨1, 55, 1, some slot, {}⟩ }) (fun s => { s with hrd := { s.hrd with sess := [(slot, x)], cache := [slot] } })
def T := fun (r : SigIn) (x : Sess) => (r, x)
def ask1 : Ask := { sent := some 30000, fails := 2 }
def G1 := { G0 with given := 700 }
def G2 := { G0 with exp := 1000 }
def Y := (hs 0 [] (fun x => { x with ports := x.ports.modify 1 (fun p => { p with since := 5 }) })).pi 2
def EI (v : Bool) : EsmcIn := ⟨v, 2, some 0x21, F0 9 5⟩
def ms (kind : Nat) (q : Nat) : Msg := { kind := kind, inst := 2, port := 1, slot := none, seq := q }
def Y2 (f : PiSt → PiSt) := (hs 0 [] f).pi 2
def es (l : List (Nat × Fld × Nat)) (f : EsmcSt → EsmcSt) := hs 0 ((hrpR 1, HRD_ESMC_CFG_EN, 1) :: l) id (fun s => s.setEsmc 1 f)
def qs (kind : Nat) (tok : Nat) (df : List (Msg × Nat)) := hs 0 [] id (fun s => { s with hrd := { s.hrd with queue := [ms kind 4], tokens := [7, tok, 7, 7], deferred := df, txq := [{ D0 with ring := 3, len := 10, target := 1 }], txTok := 2561 } })
def e0 : State := hs 0 [(piR 2, HRD_PI_STATUS_PS, 0x40), (piR 2, HRD_PI_IVL_ATMO, 1)] (fun x => { x with ports := x.ports.modify 1 (fun p => { p with since := 5 }) })
def e1 : State := hs 0 [] (fun x => { x with q := 7000, quarEnd := some 70001 })
def q2 : State := { qs 2 7 [] with hrd := { (qs 2 7 []).hrd with txTok := 2559 } }

theorem witness_SessionsAreNegotiated_T22_0 :
    ∃ (s : State) (f : FrameIn) (port : Nat), s.hears f.port f.raw = true ∧ f.etherType = 0x8808 :=
  ⟨(hs 0 [(piR 2, HRD_PI_STATUS_PS, 0x40)] id), (F0 4 0x8808), 1, by decide +kernel⟩

theorem witness_HeraldKeepsItsTimes_T22_0 :
    (∃ (s : State) (k p : Nat) (y : PiSt) (z : PiPort), 
      let now := s.prism.tick
      s.heraldRuns = true ∧ s.hrd.pis[k]? = some y ∧ y.on = true ∧ y.ports[p]? = some z ∧ p < 4 ∧ s.ps k p = 4 ∧ z.expired = false ∧ z.since + s.get (piR k) HRD_PI_IVL_ATMO * ivlTicks (s.getI (piR k) HRD_PI_IVL_LANN) ≤ now) ∧
    (∃ (s : State) (p : Nat) (es : EsmcSt), s.heraldRuns = true ∧ p < s.nHrd ∧ s.on (hrpR p) HRD_ESMC_CFG_EN = true ∧ s.hrd.esmc[p]? = some es ∧ es.on = true ∧ es.lastTx = some s.ltc.sec) ∧
    (∃ (s : State) (ring : Nat) (d : Desc), s.hrd.txq.find? (fun x => x.ring == ring) = some d ∧ s.heraldRuns = true ∧ s.portLink d.target = true ∧ s.hrd.txTok < d.len * 256) ∧
    (∃ (s : State), s.mode < 6) :=
  ⟨⟨e0, 2, 1, (e0.pi 2), ({ since := 5 }), by dsimp only; decide +kernel⟩,
   ⟨(es [] (fun x => { x with on := true, lastTx := some 1000 })), 1, ({ on := true, lastTx := some 1000 }), by decide +kernel⟩,
   ⟨q2, 3, ({ D0 with ring := 3, len := 10, target := 1 }), by decide +kernel⟩,
   ⟨(M 5 []), by decide +kernel⟩⟩

end Sys2Proof.Tests.T22

namespace Sys2Proof.Tests.T23

set_option Elab.async false

def M (m : Nat) (l : List (Nat × Fld × Nat)) (s : State := State.reset) : State := S ((pwrR, PWR_STATUS_MODE, m) :: l) s
def pk (l : List (Nat × Fld × Nat)) (f : PlkPort → PlkPort) (g : State → State := id) : State :=
  let v := M 8 ([(plkR 1, PLK_PORT_CFG_ROLE, 1), (glb1R, GLB_PLK_CFG_NODE, 5), (glb1R, GLB_PLK_SWAP_FIT, 1)] ++ l)
  g ({ v.setPlk 1 (fun x => f { x with on := true, role := v.get (plkR 1) PLK_PORT_CFG_ROLE }) with ltc := { sec := 1000, ns := 31250 * 5, frac := 7 } , prism := { (State.reset).prism with tick := 70000 } })
def li (v : Bool) (node role : Nat) : LinkIn := ⟨1, if v then (LinkOut.bytes ⟨node, role, false, false, false, false, 4, 0, 3, 0, 255, none, []⟩) else [1#8], [], 999⟩
def th : List (Int × Int) := (List.range 1000).map (fun (i : Nat) => ((i : Int), (100 : Int)))
def jj : Rat := ((pk [] (fun x => { x with before := some 40, rx0 := true, ths := th })).plkJump 1).getD 77
def tf (v : Bool) (origin lat : Nat) : TimeIn := ⟨1, if v then TimeFrame.bytes ⟨origin, 2, 7, 999, 5, 6, lat, 3, 6, 9, 1, 37⟩ else [1#8], 100, [1,2,3,4]⟩
def pt (l : List (Nat × Fld × Nat)) (f : PlkPort → PlkPort) (g : State → State := id) : State := pk ([(plkR 1, PLK_STATUS_LINK, 1), (plkR 1, PLK_STATUS_CAL, 1)] ++ l) f g
def mi (m : Nat) (l : List (Nat × Fld × Nat)) (f : MirSt → MirSt) : State :=
  ({ M m ((mirR, MIR_CFG_EN, 1) :: l) with ltc := { sec := 1000, ns := 31250 * 5, frac := 7 } , prism := { (State.reset).prism with tick := 70000 } }).setMir f
def fr (ep ep2 : Nat) : MirIn := ⟨true, true, false, 8, ep, 0, [.ltc ep 1 2 3 0 (3*32) 0, .refs ep []] ++ (List.range 16).map (fun c => .chan (if c = 3 then ep2 else ep) ((mi 8 [] id).snapChan c))⟩
def co : List (Nat × List Rat) := (List.range 32).map (fun i => (i, []))

theorem witness_LinksComeUpAndSwap_T23_0 :
    ∃ (s : State) (m : LinkIn) (p : Nat), p < s.nPlk ∧
      let x := s.plkP p
      x.on = false ∧ m.port = p ∧ s.plkRole p ≠ 4 :=
  ⟨(pk [] (fun x => { x with on := false })), (li true 9 2), 1, by dsimp only; decide +kernel⟩

theorem witness_TimeFramesAreTaken_T23_0 :
    (∃ (s : State) (m : TimeIn) (p : Nat), p < s.nPlk ∧
      let x := s.plkP p
      let client := s.plkRole p ≠ 2 ∧ s.plkRole p ≠ 4
      let live := s.plkUp p = true ∧ s.inRun = true ∧ s.plkCal p = true
      (x.on = false ∨ m.valid = true ∧ client ∧ ¬live) ∧ m.port = p) ∧
    (∃ (s : State) (p : Nat), p < s.nPlk ∧
      let b := plkR p
      s.on b PLK_PORT_CFG_OSEL = true) :=
  ⟨⟨(pk [] (fun x => { x with on := false })), (tf true 9 100), 1, by dsimp only; decide +kernel⟩,
   ⟨(pt [(plkR 1, PLK_PORT_CFG_OSEL, 1)] id), 1, by dsimp only; decide +kernel⟩⟩

theorem witness_TheKeyIsClaimedAndTaken_T23_0 :
    (∃ (s : State) (w : Nat), 
      let now := s.prism.tick
      s.mir.holdoff = some w ∧ now < w) ∧
    (∃ (s : State) (w a : Nat), 
      let now := s.prism.tick
      s.mir.ovr = some (a, w) ∧ now < w) ∧
    (∃ (s : State) (e : Nat) (l : List (Nat × List Rat)), s.standsBy = true ∧ s.mir.coll = some (e, l) ∧ l.length < 32) :=
  ⟨⟨(mi 8 [(mirR, MIR_KEY_HOLD, 1)] (fun m => { m with holdoff := some 70001 })), 70001, by dsimp only; decide +kernel⟩,
   ⟨(mi 8 [(mirR, MIR_KEY_HOLD, 1)] (fun m => { m with ovr := some (69999, 70001) })), 70001, 69999, by dsimp only; decide +kernel⟩,
   ⟨(mi 11 [] (fun m => { m with coll := some (3, [(1, [])]) })), 3, ([(1, [])]), by decide +kernel⟩⟩

end Sys2Proof.Tests.T23

namespace Sys2Proof.Tests.T24

set_option Elab.async false

def M (m : Nat) (l : List (Nat × Fld × Nat)) (s : State := State.reset) : State := S ((pwrR, PWR_STATUS_MODE, m) :: l) s
def tm (m : Nat) (l : List (Nat × Fld × Nat)) (g : GranSt → GranSt) (h : TmpSt → TmpSt) : State :=
  let s := M m ([(glbR, GLB_TMP_CFG_EN1, 1), (glbR, GLB_TMP_CFG_SLOPE1, 2), (glbR, GLB_TMP_LOG_FIRST, 400), (glbR, GLB_TMP_LOG_COUNT, 2), (glbR, GLB_TMP_NEXT_NEXT, 63)] ++ l)
  { s with gran := g s.gran, tmp := h s.tmp, ltc := { sec := 1000, ns := 31250 * 5, frac := 7 } , prism := { s.prism with tick := 70000 } }
def gb (m : Nat) (cb : Bool) : State := (tm m [] (fun g => { g with busy := some 401, queue := [(7, true)], dirty := [8], pages := [(401, { curB := cb })], reqs := [⟨401, [401], false, 0, false, true⟩], held := [(401*512, [9#8])], wear := g.wear.set 3 ⟨2^48-2, 5, 2, false⟩ }) (fun x => { x with storing := true, queue := [77] })).sramWrite (401*512+3) [5#8]
def wa (m : Nat) (l : List (Nat × Fld × Nat)) (f : WatchSt → WatchSt) : State := ({ M m l with prism := { (State.reset).prism with tick := 70000 }, ltc := { sec := 1000, ns := 31250 * 5, frac := 7 } }).setWd f
def rr : React := ⟨5, 70000⟩

theorem witness_FaultsAreRecorded_T24_0 :
    ∃ (s : State), s.mode < 2 :=
  ⟨(wa 1 [] id), by decide +kernel⟩

end Sys2Proof.Tests.T24

namespace Sys2Proof.Tests.T25

set_option Elab.async false

def M (m : Nat) (l : List (Nat × Fld × Nat)) (s : State := State.reset) : State := S ((pwrR, PWR_STATUS_MODE, m) :: l) s
def pw (m : Nat) (l : List (Nat × Fld × Nat)) (g : State → State := id) : State :=
  g { M m l with ltc := { sec := 1000, ns := 31250 * 5, frac := 7 } , prism := { (State.reset).prism with tick := 70000 } }
def im : List Byte := leBytes 4 4 ++ leBytes 4 (crc32 [1,2,3,4]) ++ leBytes 2 ((State.reset).get glbR GLB_ID_STEP) ++ leBytes 6 0x1234 ++ [1,2,3,4]
def ap (b : List Byte) : State := pw 6 [] (fun s => ({ s with pwr := { s.pwr with starting := false, imageFrom := some 5 } }).sramWrite State.imageBase b)
def rc : List Byte := leBytes 4 (((lomR 1 + LOM_CFG_RETRY.idx) / 1024 * 2^14 + (lomR 1 + LOM_CFG_RETRY.idx) % 1024 * 4)) ++ leBytes 4 0x77

theorem witness_SuppliesFailAndReturn_T25_0 :
    (∃ (s : State) (r : Nat), 
      let on := fun (t : State) (f : Fld) => t.on pwrR f
      on s PWR_STATUS_PFW = true ∧ r < 5 ∧ on s (PWR_RAIL_OK.bit r) = false ∧ s.wd.held.contains 18 = false ∧ s.suppressed 18 = false) ∧
    (∃ (s : State) (w : Nat), s.hearth.emberDue = true ∧ s.pwr.coreFail = some w ∧ s.prism.tick ≤ w) :=
  ⟨⟨(pw 8 [(pwrR, PWR_STATUS_PFW, 1), (pwrR, PWR_RAIL_OK, 0x7FFE)]), 0, by dsimp only; decide +kernel⟩,
   ⟨(pw 8 [] (fun s => { s with hearth := { s.hearth with emberDue := true }, pwr := { s.pwr with coreFail := some 70000 } })), 70000, by decide +kernel⟩⟩

end Sys2Proof.Tests.T25

namespace Sys2Proof.Tests.T26

set_option Elab.async false

def M (m : Nat) (l : List (Nat × Fld × Nat)) (s : State := State.reset) : State := S ((pwrR, PWR_STATUS_MODE, m) :: l) s
def P (n : Nat) (l : List (Nat × Nat × Nat)) : List Byte := leBytes n (l.foldl (fun a x => a + x.2.2 % 2^(8*x.2.1) * 2^(8*x.1)) 0)
def D (tgt : Nat) (l : List (Nat × Nat × Nat)) (n : Nat := 16) (apply := 0) : Desc :=
  { func := 0, cls := 0, ring := 1, idx := 5, opc := 0, ind := n != 16, fence := false, tag := 77, target := tgt, len := n, apply := apply, addr := 0, payload := some (P n l) }
def C (m : Nat) (l : List (Nat × Fld × Nat)) (s : State := State.reset) : State :=
  M m ([(fringR 0 5, GLB_RING_CFG_LOG2SIZE, 6), (fringR 0 1, GLB_RING_CFG_LOG2SIZE, 6), (fringR 0 10, GLB_RING_CFG_LOG2SIZE, 6), (fringR 0 14, GLB_RING_CFG_LOG2SIZE, 6), (fringR 0 5, GLB_RING_IDX_IDX, 71), (fringR 0 5, GLB_RING_BASE_LO_ADDR, 3)] ++ l) { s with ltc := { sec := 3, ns := 31250*7, frac := 99 }, host := { rings := [(fringR 0 5, {host := 65, reserved := 1})] }, prism := { s.prism with tick := 40000 } }
def bu (st : Nat) : State := C 8 [(bstR 1, LNS_BST_STATUS_STATE, st)]
def bu6 (st : Nat) : State := C 6 [(bstR 1, LNS_BST_STATUS_STATE, st)]
def wa (m : Nat) (l : List (Nat × Fld × Nat)) (f : WatchSt → WatchSt) : State := ({ M m l with prism := { (State.reset).prism with tick := 70000 }, ltc := { sec := 1000, ns := 31250 * 5, frac := 7 } }).setWd f
def rr : React := ⟨5, 70000⟩
def senS (f : SenSt → SenSt) (g : TallySt → TallySt := id) : State := ((({ M 8 [(senR, TLY_SEN_CFG_EN, 1), (senR, TLY_SEN_CFG_IN, 1), (senR, TLY_SEN_GATE_GATE, 4)] with ltc := { sec := 1000 } }).setTally (fun t => g { t with sen := f t.sen })))

theorem witness_MeasureCommandsApply_T26_0 :
    (∃ (s : State) (d : Desc), 
      let pl := d.payload.getD []
      let n := d.target
      let act := leAt pl 0 1
      Applies s (.lensArm d) ∧ act = 1 ∧ s.unitState n = 0 ∧ s.lensRuns = false) ∧
    (∃ (s : State) (d : Desc), 
      let pl := d.payload.getD []
      let n := d.target
      let act := leAt pl 0 1
      Applies s (.lensArm d) ∧ act = 1 ∧ s.unitState n = 0 ∧ s.lensRuns = true) ∧
    (∃ (s : State) (d : Desc), 
      let pl := d.payload.getD []
      let n := d.target
      let act := leAt pl 0 1
      Applies s (.lensArm d) ∧ act = 2 ∧ s.unitState n < 2 ∧ s.lensRuns = false) :=
  ⟨⟨(bu6 0), (D 1 [(0,1,1)]), applies_of (by decide +kernel), by decide +kernel, by decide +kernel, by decide +kernel⟩,
   ⟨(bu 0), (D 1 [(0,1,1)]), applies_of (by decide +kernel), by decide +kernel, by decide +kernel, by decide +kernel⟩,
   ⟨(bu6 0), (D 1 [(0,1,2)]), applies_of (by decide +kernel), by decide +kernel, by decide +kernel, by decide +kernel⟩⟩

end Sys2Proof.Tests.T26

namespace Sys2Proof.Tests.T27

set_option Elab.async false

def ft : State := { S [(pwrR, PWR_STATUS_MODE, 7),(fringR 0 1, GLB_RING_CFG_LOG2SIZE, 6),(fringR 0 1, GLB_RING_IDX_IDX, 70),(fringR 0 5, GLB_RING_CFG_LOG2SIZE, 6), (fringR 0 1, GLB_RING_CFG_LOG2SIZE, 6), (fringR 0 10, GLB_RING_CFG_LOG2SIZE, 6), (fringR 0 14, GLB_RING_CFG_LOG2SIZE, 6), (fringR 0 10, GLB_RING_CFG_LOG2SIZE, 6), (fringR 0 10, GLB_RING_IDX_IDX, 71)] with host := { rings := [(fringR 0 1, {host := 75, bells := [(75,0)]}),(fringR 0 10, {host := 75, bells := [(75,0)]})]}, ltc := { ns := 62500 } }
def dsc (opc ind fence len : Nat) : List Byte := leBytes 16 (opc + 256*ind + 512*fence + 2^16*7 + 2^48*len + 2^64*50) ++ leBytes 16 0
def ft2 : State := ((ft.put (fringR 0 14) GLB_RING_CFG_LOG2SIZE 6).setRing (fringR 0 14) (fun r => { r with host := 5, bells := [(5,0)] }))
def ft1 : State := ft.setRing (fringR 0 1) (fun r => { r with host := 70 })
def ft3 : State := (ft2.setRing (fringR 0 1) (fun r => { r with host := 70 })).setRing (fringR 0 10) (fun r => { r with host := 71 })
def M (m : Nat) (l : List (Nat × Fld × Nat)) (s : State := State.reset) : State := S ((pwrR, PWR_STATUS_MODE, m) :: l) s
def P (n : Nat) (l : List (Nat × Nat × Nat)) : List Byte := leBytes n (l.foldl (fun a x => a + x.2.2 % 2^(8*x.2.1) * 2^(8*x.1)) 0)
def D (tgt : Nat) (l : List (Nat × Nat × Nat)) (n : Nat := 16) (apply := 0) : Desc :=
  { func := 0, cls := 0, ring := 1, idx := 5, opc := 0, ind := n != 16, fence := false, tag := 77, target := tgt, len := n, apply := apply, addr := 0, payload := some (P n l) }
def C (m : Nat) (l : List (Nat × Fld × Nat)) (s : State := State.reset) : State :=
  M m ([(fringR 0 5, GLB_RING_CFG_LOG2SIZE, 6), (fringR 0 1, GLB_RING_CFG_LOG2SIZE, 6), (fringR 0 10, GLB_RING_CFG_LOG2SIZE, 6), (fringR 0 14, GLB_RING_CFG_LOG2SIZE, 6), (fringR 0 5, GLB_RING_IDX_IDX, 71), (fringR 0 5, GLB_RING_BASE_LO_ADDR, 3)] ++ l) { s with ltc := { sec := 3, ns := 31250*7, frac := 99 }, host := { rings := [(fringR 0 5, {host := 65, reserved := 1})] }, prism := { s.prism with tick := 40000 } }
def ch (on : Bool) (force st : Nat) (l : List (Nat × Fld × Nat) := []) : State := let s := C 8 ([(milR 3, MIL_STATUS_FORCE, force), (milR 3, MIL_STATUS_STATE, st), (milR 3, MIL_STATUS_LSEEN, 1)] ++ l); let s := s.setChan 3 (fun x => { x with on := on, ref := some 4 }); { s with milBak := s.mil }
def Cl (l : List (Nat × Fld × Nat)) : State := let s := C 6 l; { s with ltc := { s.ltc with landed := true } }
def ac (r : Nat) (c : Int) (tc : Nat) : State := (C 8 [(pjR 2, HRD_PI_JSTAT_REFUSED, r), (glbR, GLB_TIMECHAN_EN, tc), (glbR, GLB_TIMECHAN_CHAN, 3)]).setPi 2 (fun x => { x with c := c, a := 7 })
def al (s : State) (sec : Nat) (b : Bool) : State := { s with ltc := { s.ltc with sec := sec, landed := b } }
def tc (align valid : Nat) (done : Bool) (prev : Option (Int × Nat)) (src : Nat := 0) : State := { M 8 [(prsR, PRS_TC_CFG_EN, 1), (prsR, PRS_TC_CFG_SRC, src), (prsR, PRS_TC_CFG_ALIGN, align), (prsR, PRS_TC_CFG_IN, 3), (priR 3, PRS_IN_CFG_KIND, 2), (priR 3, PRS_IN_CFG_FMT, 1), (ltcR, LTC_UTCOFF_VALID, valid)] with ltc := { sec := 1000, ns := 500000000 }, prism := { tc := { done := done, edge := some (1000, 10, 37, false), prev := prev } } }
def td (ck wf rmc act : Bool) (sec : Nat := 5) : TodIn := ⟨true, rmc, ck, act, wf, 1970, 1, 1, 0, 16, sec, 1000, []⟩
def ig (p w : Bool) (code : Nat := 4) (sec : Nat := 3): IrigIn := ⟨false, false, code, p, w, 1970, 1, 0, 16, sec, true, false, 1, 7, true, 963⟩
def te (s : State) (e : Option (Nat × Nat × Int × Bool)) : State := { s with prism := { s.prism with tc := { s.prism.tc with edge := e } } }
def lm (l : List (Nat × Fld × Nat)) (f : LoomSt → LoomSt) (tk : Nat := 100) (g : State → State := id) : State := g ({ (M 8 l).setLoom 1 (fun x => f { x with on := true }) with prism := { tick := tk } })
def ou (s : State) : State := ((S [(outR 1, OUT_CFG_SRC, 1), (outR 2, OUT_CFG_SRC, 1), (outR 1, OUT_STATUS_STATE, 2), (outR 2, OUT_STATUS_STATE, 2), (outR 1, OUT_DIV_DIV, 1), (outR 1, OUT_CFG_FMT, 4)] s).setOut 1 (fun x => { x with en := true })).setOut 2 (fun x => { x with en := true })
def hs (prof : Nat) (l : List (Nat × Fld × Nat)) (f : PiSt → PiSt) (g : State → State := id) : State :=
  g (({ M 8 ([(piR 2, HRD_PI_CFG_EN, 1), (piR 2, HRD_PI_CFG_PORTS, 2), (piR 2, HRD_PI_CFG_PROFILE, prof), (hrpR 1, HRD_PORT_STATUS_LINK, 1), (hrcR, HRD_SE_CFG_EN, 1), (hrcR, HRD_SE_SIZE_LOG2, 8)] ++ l) with ltc := { sec := 1000, ns := 31250 * 5, frac := 7 } , prism := { tick := 70000 } }).setPi 2 (fun x => f { x with on := true, parent := some ⟨1, 77, 1, none, {}⟩ }))
def tr : Nat := (hs 0 [] id).get (piR 2) HRD_PI_CFG_TRANS
def fcs (l : List Byte) : List Byte := l ++ leBytes 4 (crc32 l)
def mm (dst : Nat) : PtpIn := ⟨1, tr, dst, 2, 0, 7, 55, 1, 3, 5, 2, false, 0, 0, 2, 1000, fcs (List.replicate 60 0#8)⟩
def F0 (dst ty : Nat) : FrameIn := ⟨1, fcs (beBytes 6 dst ++ List.replicate 6 0#8 ++ beBytes 2 ty ++ List.replicate 46 0#8)⟩
def D0 : Desc := ⟨0,1,0,0,0,false,false,0,0,0,0,0,none⟩
def EI (v : Bool) : EsmcIn := ⟨v, 2, some 0x21, F0 9 5⟩
def ms (kind : Nat) (q : Nat) : Msg := { kind := kind, inst := 2, port := 1, slot := none, seq := q }
def Y2 (f : PiSt → PiSt) := (hs 0 [] f).pi 2
def qs (kind : Nat) (tok : Nat) (df : List (Msg × Nat)) := hs 0 [] id (fun s => { s with hrd := { s.hrd with queue := [ms kind 4], tokens := [7, tok, 7, 7], deferred := df, txq := [{ D0 with ring := 3, len := 10, target := 1 }], txTok := 2561 } })
def qh : State := { qs 0 7 [] with hrd := { (qs 0 7 []).hrd with queue := [] } }
def mi (m : Nat) (l : List (Nat × Fld × Nat)) (f : MirSt → MirSt) : State :=
  ({ M m ((mirR, MIR_CFG_EN, 1) :: l) with ltc := { sec := 1000, ns := 31250 * 5, frac := 7 } , prism := { (State.reset).prism with tick := 70000 } }).setMir f
def tm (m : Nat) (l : List (Nat × Fld × Nat)) (g : GranSt → GranSt) (h : TmpSt → TmpSt) : State :=
  let s := M m ([(glbR, GLB_TMP_CFG_EN1, 1), (glbR, GLB_TMP_CFG_SLOPE1, 2), (glbR, GLB_TMP_LOG_FIRST, 400), (glbR, GLB_TMP_LOG_COUNT, 2), (glbR, GLB_TMP_NEXT_NEXT, 63)] ++ l)
  { s with gran := g s.gran, tmp := h s.tmp, ltc := { sec := 1000, ns := 31250 * 5, frac := 7 } , prism := { s.prism with tick := 70000 } }

theorem witness_ControlCommandsApply_T27_0 :
    (∃ (s : State) (d : Desc), 
      let pl := d.payload.getD []
      Applies s (.ltcStep d) ∧
      let amt := leAt pl 0 6 * 1000000000 + leAt pl 8 4
      s.ltc.landed = false ∧ amt = 0) ∧
    (∃ (s : State) (d : Desc), Applies s (.ltcStep d) ∧ s.ltc.landed = true) :=
  ⟨⟨(C 6 []), (D 0 [(0,6,0),(8,4,0)]), applies_of (by decide +kernel), by decide +kernel, by decide +kernel⟩,
   ⟨(Cl []), (D 0 [(0,6,5),(8,4,7)]), applies_of (by decide +kernel), by decide +kernel⟩⟩

theorem witness_HeraldCommandsApply_T27_0 :
    (∃ (s : State) (d : Desc) (c : Nat), 
      let pl := d.payload.getD []
      let n := d.target
      Applies s (.acceptStep d) ∧
      let act := leAt pl 0 1
      let refused := s.on (pjR n) HRD_PI_JSTAT_REFUSED
      refused = true ∧ act = 0 ∧ s.timeChan = some c ∧ 0 < (s.pi n).c ∧ s.ltc.landed = true) ∧
    (∃ (s : State) (d : Desc) (c : Nat), 
      let pl := d.payload.getD []
      let n := d.target
      Applies s (.acceptStep d) ∧
      let act := leAt pl 0 1
      let refused := s.on (pjR n) HRD_PI_JSTAT_REFUSED
      refused = true ∧ act = 0 ∧ s.timeChan = some c ∧ 0 < (s.pi n).c ∧
      let amt := ((s.pi n).c / 65536).toNat
      let quiet := s.ltc.due = [] ∧ s.host.staged.all (fun x => Decidable.decide ((s.ltc.sec * 1000000000 + s.ltc.ns + amt) / 31250 < max x.d.apply x.ready)) = true
      s.ltc.landed = false ∧ s.ltc.sec + amt / 1000000000 + (s.ltc.ns + amt % 1000000000) / 1000000000 < 2 ^ 48 ∧ quiet) ∧
    (∃ (s : State) (d : Desc) (c : Nat), 
      let pl := d.payload.getD []
      let n := d.target
      Applies s (.acceptStep d) ∧
      let act := leAt pl 0 1
      let refused := s.on (pjR n) HRD_PI_JSTAT_REFUSED
      refused = true ∧ act = 0 ∧ s.timeChan = some c ∧ 0 < (s.pi n).c ∧
      let amt := ((s.pi n).c / 65536).toNat
      s.ltc.landed = false ∧ 2 ^ 48 ≤ s.ltc.sec + amt / 1000000000 + (s.ltc.ns + amt % 1000000000) / 1000000000) :=
  ⟨⟨(al (ac 1 (65536*3000000000) 1) 3 true), (D 2 [(0,1,0)]), 3, applies_of (by decide +kernel), by decide +kernel, by decide +kernel, by decide +kernel, by decide +kernel, by decide +kernel⟩,
   ⟨(al (ac 1 (65536*3000000000) 1) 3 false), (D 2 [(0,1,0)]), 3, applies_of (by decide +kernel), by decide +kernel, by decide +kernel, by decide +kernel, by decide +kernel, by decide +kernel, by decide +kernel, by decide +kernel⟩,
   ⟨(al (ac 1 (65536*3000000000) 1) (2^48-2) false), (D 2 [(0,1,0)]), 3, applies_of (by decide +kernel), by decide +kernel, by decide +kernel, by decide +kernel, by decide +kernel, by decide +kernel, by decide +kernel⟩⟩

theorem witness_TimecodesAreRead_T27_0 :
    (∃ (s : State) (x0 : TodIn), 
      let x := { x0 with edges := [] }
      let tc := s.prism.tc
      let tod := s.on prsR PRS_TC_CFG_EN = true ∧ s.on prsR PRS_TC_CFG_SRC = false ∧ x.known = true
      let good := x.cksum = true ∧ x.wellFormed = true ∧ (x.rmc = true → x.active = true)
      tod ∧ good ∧ s.on prsR PRS_TC_CFG_ALIGN = false ∧ tc.edge = none) ∧
    (∃ (s : State) (x0 : TodIn) (sec at2 : Nat) (off : Int) (li : Bool), 
      let x := { x0 with edges := [] }
      let tc := s.prism.tc
      let tod := s.on prsR PRS_TC_CFG_EN = true ∧ s.on prsR PRS_TC_CFG_SRC = false ∧ x.known = true
      let good := x.cksum = true ∧ x.wellFormed = true ∧ (x.rmc = true → x.active = true)
      let now := s.ltc.sec * 1000000000 + s.ltc.ns + x.ends
      let inTime := now * 500 ≤ sec * 500000000000 + at2 + 450000000000
      tod ∧ good ∧ s.on prsR PRS_TC_CFG_ALIGN = false ∧ tc.edge = some (sec, at2, off, li) ∧ (¬inTime)) ∧
    (∃ (s : State) (x0 : TodIn) (sec at2 : Nat) (off : Int) (li : Bool), 
      let x := { x0 with edges := [] }
      let tc := s.prism.tc
      let waits := tc.edge = some (sec, at2, off, li) ∧ tc.done = false
      let tod := s.on prsR PRS_TC_CFG_EN = true ∧ s.on prsR PRS_TC_CFG_SRC = false ∧ x.known = true
      let good := x.cksum = true ∧ x.wellFormed = true ∧ (x.rmc = true → x.active = true)
      let now := s.ltc.sec * 1000000000 + s.ltc.ns + x.ends
      let inTime := now * 500 ≤ sec * 500000000000 + at2 + 450000000000
      tod ∧ good ∧ s.on prsR PRS_TC_CFG_ALIGN = false ∧ waits ∧ inTime ∧ x.sec = 60 ∧ li = false) :=
  ⟨⟨(te (tc 0 1 false (some (1001, 1))) none), (td true true true true), by dsimp only; decide +kernel⟩,
   ⟨(te (tc 0 1 false (some (1001, 1))) (some (900, 10, 37, false))), (td true true true true), 900, 10, 37, false, by dsimp only; decide +kernel⟩,
   ⟨(tc 0 1 false (some (1001, 1))), (td true true true true 60), 1000, 10, 37, false, by dsimp only; decide +kernel⟩⟩

theorem witness_LoomsSearchAndLock_T27_0 :
    ∃ (s : State) (n r cb k w : Nat), n < s.nLom ∧
      let l := s.loomSt n
      let now := s.prism.tick
      s.loomUsable n = false ∧ l.search = some ⟨k, cb, .check w r⟩ ∧ now + 8 < w :=
  ⟨(lm [(lomR 1, LOM_STATUS_STATE, 1)] (fun x => { x with search := some ⟨60, 300, .check 100 2⟩ }) 90 ou), 1, 2, 300, 60, 100, by dsimp only; decide +kernel⟩

theorem witness_HeraldKeepsItsTimes_T27_0 :
    (∃ (s : State) (k w : Nat) (y : PiSt), 
      let now := s.prism.tick
      s.hrd.pis[k]? = some y ∧ y.quarEnd = some w ∧ now + 1 < w) ∧
    (∃ (s : State) (ring : Nat) (d : Desc), s.hrd.txq.find? (fun x => x.ring == ring) = some d ∧ s.heraldRuns = true ∧ s.portLink d.target = true ∧ d.len * 256 ≤ s.hrd.txTok ∧ (∀ x ∈ s.dueMsgs, x.port ≠ d.target)) :=
  ⟨⟨(hs 0 [(pjR 2, HRD_PI_JSTAT_QUARN, 1)] (fun x => { x with q := -70000, quarEnd := some 70002 })), 2, 70002, (Y2 (fun x => { x with q := -70000, quarEnd := some 70002 })), by dsimp only; decide +kernel⟩,
   ⟨qh, 3, ({ D0 with ring := 3, len := 10, target := 1 }), by decide +kernel⟩⟩

theorem witness_TheKeyIsClaimedAndTaken_T27_0 :
    ∃ (s : State), 
      let now := s.prism.tick
      let samples := s.paired = true ∧ 6 ≤ s.mode ∧ s.mir.sampled ≠ some now
      (¬samples) :=
  ⟨(mi 8 [] (fun m => { m with sampled := some 70000 })), by dsimp only; decide +kernel⟩

theorem witness_PagesAreStored_T27_0 :
    (∃ (s : State) (pin hold i : Nat) (rising : Bool), pin < 2 ∧ i < 16 ∧
      let en := s.on glbR (if pin = 0 then GLB_TMP_CFG_EN0 else GLB_TMP_CFG_EN1)
      let sl := s.get glbR (if pin = 0 then GLB_TMP_CFG_SLOPE0 else GLB_TMP_CFG_SLOPE1)
      let accepted := en = true ∧ (sl = 2 ∨ sl = 0 ∧ rising = true ∨ sl = 1 ∧ rising = false) ∧ s.get glbR GLB_TMP_CFG_FILT * 1000 ≤ hold
      let n := 32 * s.get glbR GLB_TMP_LOG_COUNT
      accepted ∧ 3 ≤ s.mode ∧ n = 0) ∧
    (∃ (s : State) (pin hold i : Nat) (rising : Bool), pin < 2 ∧ i < 16 ∧
      let en := s.on glbR (if pin = 0 then GLB_TMP_CFG_EN0 else GLB_TMP_CFG_EN1)
      let sl := s.get glbR (if pin = 0 then GLB_TMP_CFG_SLOPE0 else GLB_TMP_CFG_SLOPE1)
      let accepted := en = true ∧ (sl = 2 ∨ sl = 0 ∧ rising = true ∨ sl = 1 ∧ rising = false) ∧ s.get glbR GLB_TMP_CFG_FILT * 1000 ≤ hold
      let n := 32 * s.get glbR GLB_TMP_LOG_COUNT
      accepted ∧ 3 ≤ s.mode ∧ 0 < n ∧ s.tmp.storing = false) ∧
    (∃ (s : State) (pin hold i : Nat) (rising : Bool), pin < 2 ∧ i < 16 ∧
      let en := s.on glbR (if pin = 0 then GLB_TMP_CFG_EN0 else GLB_TMP_CFG_EN1)
      let sl := s.get glbR (if pin = 0 then GLB_TMP_CFG_SLOPE0 else GLB_TMP_CFG_SLOPE1)
      let accepted := en = true ∧ (sl = 2 ∨ sl = 0 ∧ rising = true ∨ sl = 1 ∧ rising = false) ∧ s.get glbR GLB_TMP_CFG_FILT * 1000 ≤ hold
      let n := 32 * s.get glbR GLB_TMP_LOG_COUNT
      accepted ∧ 3 ≤ s.mode ∧ 0 < n ∧ s.tmp.storing = true ∧ s.tmp.queue.length < 16) ∧
    (∃ (s : State) (pin hold i : Nat) (rising : Bool), pin < 2 ∧ i < 16 ∧
      let en := s.on glbR (if pin = 0 then GLB_TMP_CFG_EN0 else GLB_TMP_CFG_EN1)
      let sl := s.get glbR (if pin = 0 then GLB_TMP_CFG_SLOPE0 else GLB_TMP_CFG_SLOPE1)
      let accepted := en = true ∧ (sl = 2 ∨ sl = 0 ∧ rising = true ∨ sl = 1 ∧ rising = false) ∧ s.get glbR GLB_TMP_CFG_FILT * 1000 ≤ hold
      let n := 32 * s.get glbR GLB_TMP_LOG_COUNT
      accepted ∧ 3 ≤ s.mode ∧ 0 < n ∧ s.tmp.storing = true ∧ 16 ≤ s.tmp.queue.length) :=
  ⟨⟨(tm 8 [(glbR, GLB_TMP_LOG_COUNT, 0)] id id), 1, 255000, 5, true, by dsimp only; decide +kernel⟩,
   ⟨(tm 8 [] id id), 1, 255000, 5, true, by dsimp only; decide +kernel⟩,
   ⟨(tm 8 [] id (fun x => { x with storing := true, queue := List.replicate 15 7 })), 1, 255000, 5, true, by dsimp only; decide +kernel⟩,
   ⟨(tm 8 [] id (fun x => { x with storing := true, queue := List.replicate 16 7 })), 1, 255000, 5, true, by dsimp only; decide +kernel⟩⟩

end Sys2Proof.Tests.T27
end

section
/-! PROOF. The leap second of a tick (R82, R83, R85): which leap is due, and what it does to `LTC_UTCOFF`. -/

namespace Sys2Proof

/-- A signed field holds every integer of its range. -/
theorem signed_unsigned {x : Int} {w : Nat} (hw : 0 < w) (hlo : -(2 ^ (w - 1) : Nat) ≤ x) (hhi : x < (2 ^ (w - 1) : Nat)) :
    signed (unsigned x w % 2 ^ w) w = x := by
  obtain ⟨n, rfl⟩ : ∃ n, w = n + 1 := ⟨w - 1, by omega⟩
  simp only [Nat.add_sub_cancel] at hlo hhi
  have hp : (2 : Nat) ^ (n + 1) = 2 * 2 ^ n := by ring
  have hz : (2 : Int) ^ (n + 1) = 2 * ((2 ^ n : Nat) : Int) := by push_cast; ring
  have hu : unsigned x (n + 1) < 2 ^ (n + 1) := by
    have := Int.emod_lt_of_pos x (b := ((2 * 2 ^ n : Nat) : Int)) (by omega)
    unfold unsigned; rw [hp]; omega
  rw [Nat.mod_eq_of_lt hu]
  simp only [signed, unsigned, Nat.add_sub_cancel, hz, hp]
  rcases Int.lt_or_le x 0 with hneg | hpos
  · have : x % ((2 * 2 ^ n : Nat) : Int) = x + (2 * 2 ^ n : Nat) := by
      rw [← Int.add_emod_right, Int.emod_eq_of_lt] <;> omega
    rw [this, if_neg (by omega)]; omega
  · rw [Int.emod_eq_of_lt hpos (by omega), if_pos (by omega)]; omega

namespace Machine.State

variable (s : State)

theorem getI_putI_same (b : Nat) (f : Fld) (v : Int) (h : f.lo + f.width ≤ 32) (hw : 0 < f.width)
    (hlo : -(2 ^ (f.width - 1) : Nat) ≤ v) (hhi : v < (2 ^ (f.width - 1) : Nat)) : (s.putI b f v).getI b f = v := by
  rw [State.getI, putI_eq, get_put_same s b f _ h, signed_unsigned hw hlo hhi]

/-! ## Applying a leap -/

/-- The bit that announces a leap (R82). -/
def leapBit (deletion : Bool) : Fld := if deletion then LTC_UTCOFF_LEAP59 else LTC_UTCOFF_LEAP61

/-- What a leap adds to OFFSET (R83). -/
def leapShift (deletion : Bool) : Int := if deletion then -1 else 1

theorem leapApply_eq (x : Bool) : s.leapApply x =
    (((s.putI ltcR LTC_UTCOFF_OFFSET (s.getI ltcR LTC_UTCOFF_OFFSET + leapShift x)).putB ltcR (leapBit x) false).putB ltcR
      LTC_UTCOFF_LEAP_INS false).raise 72 0 x.toNat := by
  cases x <;> rfl

/-- The fields of `LTC_UTCOFF` after a leap: OFFSET moved, the bit of the leap and LEAP_INS cleared, the other bit kept. -/
theorem leapApply_fields (x : Bool)
    (hlo : -32768 ≤ s.getI ltcR LTC_UTCOFF_OFFSET + leapShift x) (hhi : s.getI ltcR LTC_UTCOFF_OFFSET + leapShift x < 32768) :
    (s.leapApply x).getI ltcR LTC_UTCOFF_OFFSET = s.getI ltcR LTC_UTCOFF_OFFSET + leapShift x ∧
    (s.leapApply x).on ltcR (leapBit x) = false ∧ (s.leapApply x).on ltcR LTC_UTCOFF_LEAP_INS = false ∧
    (s.leapApply x).get ltcR (leapBit !x) = s.get ltcR (leapBit !x) := by
  have apart : (leapBit x).lo + (leapBit x).width ≤ 32 ∧ 16 ≤ (leapBit x).lo ∧ 0 < (leapBit x).width ∧
      (leapBit x).lo + (leapBit x).width ≤ 20 ∧ 16 ≤ (leapBit !x).lo ∧ (leapBit !x).lo + (leapBit !x).width ≤ 20 ∧
      ((leapBit !x).lo + (leapBit !x).width ≤ (leapBit x).lo ∨ (leapBit x).lo + (leapBit x).width ≤ (leapBit !x).lo) := by
    cases x <;> decide
  obtain ⟨hb, hb16, hbw, hb20, ho16, ho20, hne⟩ := apart
  rw [leapApply_eq]
  simp only [raise_getI, raise_on, raise_get]
  refine ⟨?_, ?_, on_putB_same _ _ _ _ (by decide) (by decide), ?_⟩
  · rw [State.getI, putB_eq, get_put_ne _ _ _ _ _ _ (by decide) (by decide), putB_eq,
      get_put_ne _ _ _ _ LTC_UTCOFF_OFFSET _ hb (.inr (.inl hb16))]
    exact getI_putI_same _ _ _ _ (by decide) (by decide) hlo (by exact hhi)
  · rw [on_eq_get, putB_eq, get_put_ne _ _ _ _ _ _ (by decide) (.inr (.inl hb20)), ← on_eq_get]
    exact on_putB_same _ _ _ _ hb hbw
  · rw [putB_eq, get_put_ne _ _ _ _ _ _ (by decide) (.inr (.inl ho20)), putB_eq, get_put_ne _ _ _ _ _ _ hb (.inr hne), putI_eq,
      get_put_ne _ _ _ LTC_UTCOFF_OFFSET _ _ (by decide) (.inr (.inr ho16))]

/-- A leap writes `LTC_UTCOFF` and raises EV072; nothing else moves. -/
theorem leapApply_frame (x : Bool) :
    (s.leapApply x).ltc = s.ltc ∧ (s.leapApply x).host = (s.raise 72 0 x.toNat).host ∧
    s.others (s.leapApply x) [ltcR + LTC_UTCOFF_OFFSET.idx] ∧
    { s.leapApply x with regs := s.regs, host := s.host } = s := by
  have hr : RegsOf s (((s.putI ltcR LTC_UTCOFF_OFFSET (s.getI ltcR LTC_UTCOFF_OFFSET + leapShift x)).putB ltcR (leapBit x)
      false).putB ltcR LTC_UTCOFF_LEAP_INS false) :=
    (((RegsOf.refl s).put _ _ _).putB _ _ _).putB _ _ _
  rw [leapApply_eq]
  refine ⟨by simp, ?_, fun k hk => ?_, ?_⟩
  · obtain ⟨q, hq⟩ := hr
    rw [hq]; rfl
  · have hk' : k ≠ ltcR + LTC_UTCOFF_OFFSET.idx := by simpa using hk
    have hb : (leapBit x).idx = LTC_UTCOFF_OFFSET.idx := by cases x <;> rfl
    rw [raise_reg, putB_eq, reg_put_ne _ _ LTC_UTCOFF_LEAP_INS _ hk', putB_eq, reg_put_ne _ _ _ _ (by rw [hb]; exact hk'),
      putI_eq, reg_put_ne _ _ _ _ hk']
  · obtain ⟨q, hq⟩ := hr
    rw [hq]; rfl

/-! ## Which leap is due -/

/-- The running tick begins a second, no step has landed in it, and TICK_BOUNDARY has not taken its leap. -/
structure SecondStarts : Prop where
  unseen : s.ltc.leapSeen = false
  noJump : s.ltc.leapJump = none
  notLanded : s.ltc.landed = false
  first : s.ltc.ns < 31250

/-- The second of the day, in UTC, that the running tick is in. -/
def utcSecond : Int := ((s.ltc.sec : Int) - s.getI ltcR LTC_UTCOFF_OFFSET) % 86400

theorem leapDue_of_passed {x : Bool} (hj : s.ltc.leapJump = some x) (ha : s.on ltcR (leapBit x) = true) :
    s.leapDue = some x := by
  have hp : s.leapPassed = some x := by
    rw [leapPassed, hj]; exact Option.filter_some_pos ha
  rw [leapDue, hp]

namespace SecondStarts

variable {s} (h : s.SecondStarts)
include h

theorem leapPassed_eq : s.leapPassed = none := by rw [leapPassed, h.noJump]; rfl

theorem leapDue_eq : s.leapDue =
    if s.on ltcR LTC_UTCOFF_LEAP_INS && s.on ltcR LTC_UTCOFF_LEAP61 then some false
    else if s.on ltcR LTC_UTCOFF_LEAP59 && s.utcSecond = 86399 then some true else none := by
  rw [leapDue, h.leapPassed_eq]
  dsimp only
  rw [if_neg (by simp [h.notLanded, h.first])]
  rfl

theorem leapInsDue_eq : s.leapInsDue =
    (s.on ltcR LTC_UTCOFF_LEAP61 && !s.on ltcR LTC_UTCOFF_LEAP_INS && Decidable.decide (s.utcSecond = 0)) := by
  simp [leapInsDue, h.leapPassed_eq, h.first, utcSecond]

theorem leapInsOver_eq : s.leapInsOver = (s.on ltcR LTC_UTCOFF_LEAP_INS && !s.on ltcR LTC_UTCOFF_LEAP61) := by
  simp [leapInsOver, h.notLanded, h.first]

end SecondStarts

/-! ## LEAP_SECOND -/

/-- The LTC once the leap of the tick has been taken. -/
def leapTaken : Ltc := { s.ltc with leapJump := none, leapSeen := true }

theorem leapStep_of_due {x : Bool} (hd : s.leapDue = some x) : s.leapStep = ({ s with ltc := s.leapTaken }).leapApply x := by
  simp only [leapStep, hd]; rfl

theorem leapStep_of_none (hd : s.leapDue = none) : s.leapStep =
    if s.leapInsDue then ({ s with ltc := s.leapTaken }).putB ltcR LTC_UTCOFF_LEAP_INS true
    else if s.leapInsOver then ({ s with ltc := s.leapTaken }).putB ltcR LTC_UTCOFF_LEAP_INS false
    else { s with ltc := s.leapTaken } := by
  simp only [leapStep, hd]; rfl

theorem exec_leapSecond (hs : s.ltc.leapSeen = false) : exec .leapSecond s = .next s.leapStep := by
  change Host.Outcome.next s.leapSecond = _
  rw [leapSecond, hs]; rfl

/-- A leap that is due is applied, whichever it is. -/
theorem exec_leapSecond_due {x : Bool} (hs : s.ltc.leapSeen = false) (hd : s.leapDue = some x)
    (hlo : -32768 ≤ s.getI ltcR LTC_UTCOFF_OFFSET + leapShift x) (hhi : s.getI ltcR LTC_UTCOFF_OFFSET + leapShift x < 32768) :
    ∃ t, exec .leapSecond s = .next t ∧ t.getI ltcR LTC_UTCOFF_OFFSET = s.getI ltcR LTC_UTCOFF_OFFSET + leapShift x ∧
      t.on ltcR (leapBit x) = false ∧ t.on ltcR LTC_UTCOFF_LEAP_INS = false ∧
      t.get ltcR (leapBit !x) = s.get ltcR (leapBit !x) ∧ t.ltc = s.leapTaken ∧
      t.host = (s.raise 72 0 x.toNat).host ∧ s.others t [ltcR + LTC_UTCOFF_OFFSET.idx] ∧
      { t with regs := s.regs, ltc := s.ltc, host := s.host } = s := by
  obtain ⟨hoff, hbit, hins, hother⟩ := leapApply_fields { s with ltc := s.leapTaken } x hlo hhi
  obtain ⟨hltc, hhost, hregs, hrest⟩ := leapApply_frame { s with ltc := s.leapTaken } x
  refine ⟨_, (exec_leapSecond s hs).trans (congrArg _ (leapStep_of_due s hd)), hoff, hbit, hins, hother, hltc, hhost, hregs, ?_⟩
  exact congrArg (fun t : State => { t with ltc := s.ltc }) hrest

/-- LEAP_INS alone is written where an inserted second begins, or a cancelled one is over. -/
theorem exec_leapSecond_ins {v : Bool} (hs : s.ltc.leapSeen = false)
    (hl : s.leapStep = ({ s with ltc := s.leapTaken }).putB ltcR LTC_UTCOFF_LEAP_INS v) :
    ∃ t, exec .leapSecond s = .next t ∧ (t.reg (ltcR + LTC_UTCOFF_OFFSET.idx)).toNat =
        putBits (s.reg (ltcR + LTC_UTCOFF_OFFSET.idx)).toNat LTC_UTCOFF_LEAP_INS.lo 1 v.toNat ∧
      t.ltc = s.leapTaken ∧ s.others t [ltcR + LTC_UTCOFF_OFFSET.idx] ∧ { t with regs := s.regs, ltc := s.ltc } = s := by
  refine ⟨_, (exec_leapSecond s hs).trans (congrArg _ hl), ?_, by simp, fun k hk => ?_, ?_⟩
  · exact reg_put_toNat _ _ LTC_UTCOFF_LEAP_INS _ (by decide)
  · have hk' : k ≠ ltcR + LTC_UTCOFF_OFFSET.idx := by simpa using hk
    exact reg_put_ne _ _ LTC_UTCOFF_LEAP_INS _ hk'
  · obtain ⟨q, hq⟩ := (RegsOf.refl { s with ltc := s.leapTaken }).putB ltcR LTC_UTCOFF_LEAP_INS v
    rw [hq]

end Machine.State

open Machine

/-- Settles O22: at the start of a second the bits of `LTC_UTCOFF` say which leap is due; one that a step has passed over is
due by itself. -/
theorem leapSecondsMoveTheOffset : Obligations.LeapSecondsMoveTheOffset := by
  intro s d r k starts passed seen inserted deleted
  have hd : -32768 ≤ d ∧ d < 32768 := by
    have hlt := s.get_lt ltcR LTC_UTCOFF_OFFSET
    have e : d = signed (s.get ltcR LTC_UTCOFF_OFFSET) 16 := rfl
    simp only [LTC_UTCOFF_OFFSET] at hlt e
    rw [e]; unfold signed; split <;> omega
  have ins : s.ltc.leapSeen = false → s.leapDue = some false → d < 32767 → inserted := fun hs hdue h =>
    s.exec_leapSecond_due hs hdue (by change -32768 ≤ d + 1; omega) (by change d + 1 < 32768; omega)
  have del : s.ltc.leapSeen = false → s.leapDue = some true → -32768 < d → deleted := fun hs hdue h =>
    s.exec_leapSecond_due hs hdue (by change -32768 ≤ d + -1; omega) (by change d + -1 < 32768; omega)
  have start : starts → s.SecondStarts := fun ⟨h1, h2, h3, h4⟩ => ⟨h1, h2, h3, h4⟩
  have hr : s.utcSecond = r := rfl
  refine ⟨fun hs => ?_, fun hst hi h61 h59 h0 => ?_, fun hst hi h61 => ?_, fun hst hi h61 h59 => ?_, fun hst hi h59 h0 => ?_,
    fun ⟨hs, hj⟩ h61 => ?_, fun ⟨hs, hj⟩ h59 => ?_, fun hst hi h61 h59 => ?_⟩
  · change Host.Outcome.next s.leapSecond = _
    rw [State.leapSecond, if_pos hs]
  · have hst := start hst
    have hdue : s.leapDue = none := by simp [hst.leapDue_eq, hi, h59]
    exact s.exec_leapSecond_ins (v := true) hst.unseen
      (by rw [s.leapStep_of_none hdue, if_pos (by simp [hst.leapInsDue_eq, h61, hi, hr, h0])])
  · have hst := start hst
    exact ins hst.unseen (by simp [hst.leapDue_eq, hi, h61])
  · have hst := start hst
    have hdue : s.leapDue = none := by rcases h59 with h | h <;> simp [hst.leapDue_eq, hi, h61, hr, h]
    exact s.exec_leapSecond_ins (v := false) hst.unseen
      (by rw [s.leapStep_of_none hdue, if_neg (by simp [hst.leapInsDue_eq, h61]), if_pos (by simp [hst.leapInsOver_eq, hi, h61])])
  · have hst := start hst
    exact del hst.unseen (by rcases hi with h | h <;> simp [hst.leapDue_eq, h, h59, hr, h0])
  · exact ins hs (s.leapDue_of_passed hj h61)
  · exact del hs (s.leapDue_of_passed hj h59)
  · have hst := start hst
    have hdue : s.leapDue = none := by rcases h59 with h | h <;> simp [hst.leapDue_eq, hi, hr, h]
    have hins : s.leapInsDue = false := by rcases h61 with h | h <;> simp [hst.leapInsDue_eq, hr, h]
    rw [s.exec_leapSecond hst.unseen, s.leapStep_of_none hdue, if_neg (by simp [hins]), if_neg (by simp [hst.leapInsOver_eq, hi])]
    rfl

end Sys2Proof
end

section
/-! PROOF. The commands of the time counter (R76, R82, R87, R88): LTC_CAPTURE, LTC_STEP_REQUEST and the write of `LTC_UTCOFF`. -/

namespace Sys2Proof

/-- A field inside the replaced part of a word is that field of the new value. -/
theorem bitsOf_putBits_within (v lo width x lo' width' : Nat) (hlo : lo ≤ lo') (hhi : lo' + width' ≤ lo + width) :
    bitsOf (putBits v lo width x) lo' width' = bitsOf x (lo' - lo) width' := by
  apply Nat.eq_of_testBit_eq
  intro i
  rw [testBit_bitsOf, testBit_bitsOf, testBit_putBits]
  by_cases hi : i < width'
  · rw [if_pos (by omega), show lo' + i - lo = lo' - lo + i by omega]
  · simp [hi]

/-- A field put back to what it held gives the word back. -/
theorem putBits_back (v lo width x : Nat) : putBits (putBits v lo width x) lo width (bitsOf v lo width) = v := by
  apply Nat.eq_of_testBit_eq
  intro i
  rw [testBit_putBits, testBit_putBits, testBit_bitsOf]
  split
  · rename_i h
    simp [show i - lo < width by omega, show lo + (i - lo) = i by omega]
  · rfl

theorem putBits_low_self (v width : Nat) : putBits v 0 width v = v := by
  have := Machine.putBits_bitsOf v 0 width
  rwa [show bitsOf v 0 width = v % 2 ^ width by simp [bitsOf], show putBits v 0 width (v % 2 ^ width) = putBits v 0 width v by
    simp [putBits]] at this

namespace Machine

theorem merged_zero (old d : Nat) : merged old 0 d = old := by simp [merged]

namespace State

variable (s : State)

/-! ## Writes of the LTC window -/

theorem ltc_window {i : Nat} (hi : i < 1024) :
    (ltcR + i) % 1048576 / 1024 = 4 ∧ ltcR + i < 1048576 ∧ (ltcR + i) % 1024 = i := by
  simp only [ltcR]; omega

theorem ltc_present {i : Nat} (hi : i < 1024) : s.regAbsent (ltcR + i) = false := by
  obtain ⟨hw, -, hm⟩ := ltc_window hi
  simp [regAbsent, hw]

theorem ltc_not_ringDenied {i : Nat} (hi : i < 1024) (who : Who) : s.ringDenied who (ltcR + i) = false := by
  obtain ⟨hw, hk, -⟩ := ltc_window hi
  exact not_ringDenied s who hk hw (by decide)

theorem ltc_not_apart {i : Nat} (hi : i < 1024) : apartReg (ltcR + i) = false := by
  obtain ⟨hw, hk, -⟩ := ltc_window hi
  exact not_apart hk hw (by decide) (not_pop hk hw (by decide) (by decide))

theorem ltc_not_strobe {i : Nat} (hi : i < 1024) (who : Who) (m d : Nat) (l : Bool) :
    s.strobeRefused who (ltcR + i) m d l = false :=
  not_strobe s who m d l (ltc_window hi).1 (by decide) (by decide) (by decide) (by decide)

/-- A write of the LTC window that nothing refuses. -/
theorem regWrite_ltc {a : Access} {i m d w : Nat} {fs : List FieldSpec} (hi : i < 1024) (h : Presents s a (ltcR + i) m d)
    (hm : m ≠ 0) (hl : RegMap.lookup (ltcR + i) = some (ltcR, fs))
    (hf : s.quiet.fieldsWrite a.who (ltcR + i) ltcR fs m d (s.reg (ltcR + i)).toNat = (w, [])) :
    s.regWrite a = (s.quiet.setReg (ltcR + i) (BitVec.ofNat 32 w)).written a.who (ltcR + i) ltcR m d
      (s.reg (ltcR + i)).toNat w a.pos :=
  regWrite_low s h hm (ltc_window hi).2.1 hl (s.ltc_present hi) (s.ltc_not_ringDenied hi a.who) (ltc_not_apart hi)
    (s.quiet.ltc_not_strobe hi a.who m d) hf

/-- The word `w` with the fields of `l` back at what they hold in `old`. -/
def backTo (old : Nat) (l : List Fld) (w : Nat) : Nat := l.foldl (fun w f => putBits w f.lo f.width (fOf old f)) w

theorem backTo_nil (old w : Nat) : backTo old [] w = w := rfl
theorem backTo_cons (old w : Nat) (f : Fld) (l : List Fld) :
    backTo old (f :: l) w = backTo old l (putBits w f.lo f.width (fOf old f)) := rfl

/-- Putting fields back leaves that word; it is flagged with cause 2 alone, and only where it changes something. -/
theorem foldl_putBack (old : Nat) (l : List Fld) (acc : Nat × List Nat) :
    let r := l.foldl (fun (acc : Nat × List Nat) (f : Fld) =>
      if fOf acc.1 f = fOf old f then acc else (putBits acc.1 f.lo f.width (fOf old f), acc.2 ++ [2])) acc
    r.1 = backTo old l acc.1 ∧ (∀ c ∈ r.2, c ∈ acc.2 ∨ c = 2) ∧ (2 ∈ acc.2 → 2 ∈ r.2) ∧ (2 ∈ r.2 ∨ r.1 = acc.1) := by
  induction l generalizing acc with
  | nil => exact ⟨rfl, fun c hc => .inl hc, id, .inr rfl⟩
  | cons f l ih =>
    simp only [List.foldl_cons, backTo]
    split
    · rename_i hsame
      obtain ⟨hword, honly, hkeep, hflag⟩ := ih acc
      refine ⟨?_, honly, hkeep, hflag⟩
      rw [← hsame, fOf, putBits_bitsOf]; exact hword
    · obtain ⟨hword, honly, hkeep, -⟩ := ih (putBits acc.1 f.lo f.width (fOf old f), acc.2 ++ [2])
      refine ⟨hword, fun c hc => ?_, fun _ => hkeep (by simp), .inl (hkeep (by simp))⟩
      rcases honly c hc with h | h
      · simpa using h
      · exact .inr h

/-- A write of the LTC window of which some fields are put back: the rest is taken, and it is flagged with cause 2. -/
theorem regWrite_ltc_back {a : Access} {i m d w : Nat} {fs : List FieldSpec} {l : List Fld} (hi : i < 1024)
    (h : Presents s a (ltcR + i) m d) (hm : m ≠ 0) (hl : RegMap.lookup (ltcR + i) = some (ltcR, fs))
    (hf : ∀ f ∈ fs, s.quiet.fieldWrite a.who (ltcR + i) ltcR f m d (s.reg (ltcR + i)).toNat = (bitsOf w f.lo f.width, []))
    (hw : ∀ j, fs.any (fun f => Decidable.decide (f.lo ≤ j ∧ j < f.lo + f.width)) = false →
      w.testBit j = (s.reg (ltcR + i)).toNat.testBit j)
    (ht : s.quiet.together (ltcR + i) ltcR (s.reg (ltcR + i)).toNat w (wanted fs m d (s.reg (ltcR + i)).toNat) = l)
    (hne : backTo (s.reg (ltcR + i)).toNat l w ≠ w) :
    s.regWrite a = ((s.quiet.setReg (ltcR + i) (BitVec.ofNat 32 (backTo (s.reg (ltcR + i)).toNat l w))).written a.who
      (ltcR + i) ltcR m d (s.reg (ltcR + i)).toNat (backTo (s.reg (ltcR + i)).toNat l w) a.pos).flag a.who a.off 2 := by
  have hfold := fieldsWrite_back s.quiet hf hw
  rw [ht] at hfold
  obtain ⟨hword, honly, -, hflag⟩ := foldl_putBack (s.reg (ltcR + i)).toNat l (w, [])
  have h2 := hflag.resolve_right (fun e => hne (hword.symm.trans e))
  have hc : ∀ c, c ≠ 2 → c ∉ _ := fun c hc hm => hc ((honly c hm).resolve_left (by simp))
  exact regWrite_refused s h hm (ltc_window hi).2.1 hl (s.ltc_present hi) (s.ltc_not_ringDenied hi a.who) (ltc_not_apart hi)
    (s.quiet.ltc_not_strobe hi a.who m d) (hfold.trans (Prod.ext hword rfl)) h2 (.inr (.inr ⟨rfl, hc 1 (by decide), hc 0 (by decide)⟩))

/-- A read-write field of the LTC window takes what the write asks: none has a lock or a range. -/
theorem fieldWrite_ltc {who : Who} {i m d old : Nat} {f : FieldSpec} (hi : i < 1024)
    (ha : f.acc = .rw ∨ f.acc = .rwd ∨ f.acc = .pfo) (hp : f.acc = .pfo → privileged who = true) (hl : f.lock = .free)
    (hr : f.ok = []) :
    s.fieldWrite who (ltcR + i) ltcR f m d old = (bitsOf (merged old m d) f.lo f.width, []) := by
  obtain ⟨hw, hk, -⟩ := ltc_window hi
  have hring := not_ring hw (by decide)
  refine fieldWrite_take s ha hp (not_fieldAbsent s f.lo hk hw (by decide) (by decide)) ?_ (.inl hr) ?_
  · rw [hl]; exact lockCause_free s ltcR f.lo hring
  · simp [valueOk, hring, hw]

/-! ## What these writes set going -/

theorem written_capture {who : Who} {m d old new pos : Nat} :
    s.written who (ltcR + LTC_CAPTURE_GO.idx) ltcR m d old new pos =
      if bitsOf (m &&& d) 0 1 != 0 then s.ltcCapture pos else s := rfl

theorem written_stepCtl {who : Who} {m d old new pos : Nat} :
    s.written who (ltcR + LTC_STEP_CTL_GO.idx) ltcR m d old new pos =
      if fOf new LTC_STEP_CTL_GO = 1 then (s.putB ltcR LTC_STEP_CTL_GO false).stepRequest else s := by
  change (if (Decidable.decide (fOf new LTC_STEP_CTL_GO = 1)) = true then _ else _) = _
  simp only [decide_eq_true_eq]

theorem written_utcoff {who : Who} {m d old new pos : Nat} :
    s.written who (ltcR + LTC_UTCOFF_OFFSET.idx) ltcR m d old new pos = s := rfl

/-! ## Reading afterwards -/

/-- A register whose word is written back as it stands reads as before. -/
theorem reg_setReg_self (k j : Nat) : (s.setReg k (BitVec.ofNat 32 (s.reg k).toNat)).reg j = s.reg j := by
  rw [reg_setReg, BitVec.ofNat_toNat, BitVec.setWidth_eq]
  split
  · rename_i h; rw [h]
  · rfl

/-- A field reads as before where its register does. -/
theorem get_of_reg {s t : State} {b : Nat} {f : Fld} (h : t.reg (b + f.idx) = s.reg (b + f.idx)) : t.get b f = s.get b f := by
  rw [State.get, State.get, h]

/-- A field of a register is that field of the word it holds. -/
theorem get_of_word {t : State} {b k v : Nat} {f : Fld} (hk : b + f.idx = k) (h : (t.reg k).toNat = v) :
    t.get b f = bitsOf v f.lo f.width := by
  subst hk h; rfl

/-- A register file of its own is all that a change of registers leaves behind. -/
theorem RegsOf.regsOnly {s t : State} (h : RegsOf s.quiet t) : s.regsOnly t := by
  obtain ⟨q, rfl⟩ := h; rfl

/-- What a flagged access leaves of the time counter: its registers and the counter as they stood, the cause recorded. -/
theorem flag_ltc {who : Who} {off c : Nat} (hc : c < 8) (ho : off < 2 ^ 22) :
    (s.flag who off c).ltc = s.ltc ∧ (s.flag who off c).get glbR GLB_VIOL_INFO_CAUSE = c ∧
    ∀ i, i < 1024 → (s.flag who off c).reg (ltcR + i) = s.reg (ltcR + i) := by
  obtain ⟨-, hcause, -, -, -, -, hreg, r, h, w, hrest⟩ := s.flag_facts (who := who) hc ho
  refine ⟨by rw [hrest], hcause, fun i hi => hreg _ ?_ ?_⟩ <;> simp only [ltcR] <;> omega

/-! ## LTC_CAPTURE -/

/-- The registers of the snapshot (R87). -/
def snapRegs : List Nat :=
  [ltcR + LTC_SNAP_NS_NS.idx, ltcR + LTC_SNAP_FRAC_FRAC.idx, ltcR + LTC_SNAP_S_LO_S_LO.idx,
    ltcR + LTC_SNAP_S_HI_S_HI.idx, ltcR + LTC_SNAP_TN_LO_TN_LO.idx, ltcR + LTC_SNAP_TN_HI_TN_HI.idx]

/-- The instant of a capture, in 2⁻³² ns: no later than the last unit of the tick (R88). -/
def captureAt (pos : Nat) : Nat := s.ltcRaw (min pos (s.tickLeft * 2 ^ 32 - 1))

theorem ltcCapture_fields (pos : Nat) :
    let t := s.ltcCapture pos
    let u := s.captureAt pos
    let sec := u / secUnits
    let ns := u % secUnits / 2 ^ 32
    let tn := sec * 32000 + ns / 31250
    t.get ltcR LTC_SNAP_NS_NS = ns ∧ t.get ltcR LTC_SNAP_FRAC_FRAC = u % 2 ^ 32 ∧
    t.get ltcR LTC_SNAP_S_LO_S_LO = sec % 2 ^ 32 ∧ t.get ltcR LTC_SNAP_S_HI_S_HI = sec / 2 ^ 32 % 2 ^ 16 ∧
    t.get ltcR LTC_SNAP_TN_LO_TN_LO = tn % 2 ^ 32 ∧ t.get ltcR LTC_SNAP_TN_HI_TN_HI = tn / 2 ^ 32 % 2 ^ 32 := by
  intro t u sec ns tn
  have hns : ns < 2 ^ LTC_SNAP_NS_NS.width := by
    have : u % secUnits < secUnits := Nat.mod_lt _ (by decide)
    simp only [ns, secUnits, LTC_SNAP_NS_NS] at *
    omega
  have ht : t = (((((s.put ltcR LTC_SNAP_NS_NS ns).put ltcR LTC_SNAP_FRAC_FRAC (u % 2 ^ 32)).put ltcR LTC_SNAP_S_LO_S_LO sec).put
      ltcR LTC_SNAP_S_HI_S_HI (sec / 2 ^ 32)).put ltcR LTC_SNAP_TN_LO_TN_LO tn).put ltcR LTC_SNAP_TN_HI_TN_HI (tn / 2 ^ 32) := rfl
  clear_value t ns tn sec u
  subst ht
  simp (disch := decide) only [get_put_ne, get_put_same]
  rw [Nat.mod_eq_of_lt hns]
  simp [LTC_SNAP_FRAC_FRAC, LTC_SNAP_S_LO_S_LO, LTC_SNAP_S_HI_S_HI, LTC_SNAP_TN_LO_TN_LO, LTC_SNAP_TN_HI_TN_HI]

theorem ltcCapture_frame (pos : Nat) : s.others (s.ltcCapture pos) snapRegs ∧ RegsOf s (s.ltcCapture pos) := by
  refine ⟨fun k hk => ?_, ((((((RegsOf.refl s).put _ _ _).put _ _ _).put _ _ _).put _ _ _).put _ _ _).put _ _ _⟩
  simp only [snapRegs, List.mem_cons, List.not_mem_nil, or_false, not_or] at hk
  obtain ⟨h1, h2, h3, h4, h5, h6⟩ := hk
  unfold ltcCapture
  simp (disch := assumption) only [reg_put_ne]

theorem lookup_capture : RegMap.lookup (ltcR + LTC_CAPTURE_GO.idx) = some (ltcR, [⟨0, 1, .wo, 0, .free, []⟩]) := by
  decide +kernel

/-- A strobe of `LTC_CAPTURE.GO` is a capture; the register holds nothing. -/
theorem regWrite_capture {a : Access} {m d : Nat} (h : Presents s a (ltcR + LTC_CAPTURE_GO.idx) m d) (hm : m % 2 = 1)
    (hd : d % 2 = 1) :
    s.regWrite a = (s.quiet.setReg (ltcR + LTC_CAPTURE_GO.idx)
      (BitVec.ofNat 32 (s.reg (ltcR + LTC_CAPTURE_GO.idx)).toNat)).ltcCapture a.pos := by
  have hgo : bitsOf (m &&& d) 0 1 ≠ 0 := by
    have := Nat.and_mod_two_pow (a := m) (b := d) (n := 1)
    simp [bitsOf, this, hm, hd]
  rw [regWrite_ltc s (by decide) h (by omega) lookup_capture (w := (s.reg (ltcR + LTC_CAPTURE_GO.idx)).toNat),
    written_capture, if_pos (by simpa using hgo)]
  refine fieldsWrite_eq _ (fun f hf => ?_) (fun _ _ => rfl) (fun _ _ => rfl)
  obtain rfl : f = ⟨0, 1, .wo, 0, .free, []⟩ := by simpa using hf
  exact fieldWrite_ro _ (.inr rfl)

/-! ## LTC_STEP_REQUEST -/

theorem lookup_stepCtl : RegMap.lookup (ltcR + LTC_STEP_CTL_GO.idx) = some (ltcR, [⟨0, 1, .pfo, 0, .free, []⟩]) := by
  decide +kernel

theorem together_stepCtl (old new want : Nat) : s.together (ltcR + LTC_STEP_CTL_GO.idx) ltcR old new want =
    if s.on ltcR LTC_STATUS_STEP_PEND then [LTC_STEP_CTL_GO] else [] := rfl

/-- A write of ones asks `LTC_STEP_CTL.GO` for 1. -/
theorem fieldWrite_stepCtl {who : Who} {m d old : Nat} (hp : privileged who = true) (hm : m % 2 = 1) (hd : d % 2 = 1) :
    ∀ f ∈ [(⟨0, 1, .pfo, 0, .free, []⟩ : FieldSpec)],
      s.fieldWrite who (ltcR + LTC_STEP_CTL_GO.idx) ltcR f m d old = (bitsOf (putBits old 0 1 1) f.lo f.width, []) := by
  intro f hf
  obtain rfl : f = ⟨0, 1, .pfo, 0, .free, []⟩ := by simpa using hf
  rw [fieldWrite_ltc s (by decide) (.inr (.inr rfl)) (fun _ => hp) rfl rfl, bitsOf_putBits_same, bitsOf_merged,
    show bitsOf m 0 1 = 1 by simpa [bitsOf] using hm, show bitsOf d 0 1 = 1 by simpa [bitsOf] using hd]
  congr 1
  have hlt : bitsOf old 0 1 < 2 := bitsOf_lt _ _ _
  obtain h | h : bitsOf old 0 1 = 0 ∨ bitsOf old 0 1 = 1 := by omega
  · rw [h]; rfl
  · rw [h]; rfl

theorem testBit_stepCtl_rest (old i : Nat) (h : [(⟨0, 1, .pfo, 0, .free, []⟩ : FieldSpec)].any
    (fun f => Decidable.decide (f.lo ≤ i ∧ i < f.lo + f.width)) = false) : (putBits old 0 1 1).testBit i = old.testBit i := by
  rw [testBit_putBits, if_neg (by simpa using h)]

/-- The step that the registers ask for (R76). -/
def askedStep : Nat × Nat :=
  (s.get ltcR LTC_STEP_S_LO_S_LO + 2 ^ 32 * s.get ltcR LTC_STEP_S_HI_S_HI, s.get ltcR LTC_STEP_NS_NS)

theorem stepRequest_idle (h : s.on ltcR LTC_STATUS_STEP_PEND = false) :
    s.stepRequest = (s.setLtc (fun l => { l with step := some s.askedStep })).putB ltcR LTC_STATUS_STEP_PEND true := by
  rw [stepRequest, if_neg (by simp [h])]; rfl

theorem askedStep_of_reg {t : State} (h : ∀ j, j ≠ ltcR + LTC_STEP_CTL_GO.idx → t.reg j = s.reg j) :
    t.askedStep = s.askedStep := by
  rw [askedStep, askedStep, get_of_reg (h _ (by decide)), get_of_reg (h _ (by decide)), get_of_reg (h _ (by decide))]

/-- A request while no step is pending: the amount the registers hold is pending, and GO reads back 0. -/
theorem regWrite_stepRequest {a : Access} {m d : Nat} (h : Presents s a (ltcR + LTC_STEP_CTL_GO.idx) m d)
    (hp : privileged a.who = true) (hm : m % 2 = 1) (hd : d % 2 = 1) (hpend : s.on ltcR LTC_STATUS_STEP_PEND = false) :
    ∃ u, (∀ j, j ≠ ltcR + LTC_STEP_CTL_GO.idx → u.reg j = s.reg j) ∧ u.on ltcR LTC_STEP_CTL_GO = false ∧ RegsOf s.quiet u ∧
      s.regWrite a = (u.setLtc (fun l => { l with step := some s.askedStep })).putB ltcR LTC_STATUS_STEP_PEND true := by
  have hf : s.quiet.fieldsWrite a.who (ltcR + LTC_STEP_CTL_GO.idx) ltcR [⟨0, 1, .pfo, 0, .free, []⟩] m d
      (s.reg (ltcR + LTC_STEP_CTL_GO.idx)).toNat = (putBits (s.reg (ltcR + LTC_STEP_CTL_GO.idx)).toNat 0 1 1, []) := by
    refine fieldsWrite_eq _ (fieldWrite_stepCtl _ hp hm hd) (testBit_stepCtl_rest _) ?_
    rw [together_stepCtl, quiet_on, hpend]
    intro x hx
    simp at hx
  generalize hv : BitVec.ofNat 32 (putBits (s.reg (ltcR + LTC_STEP_CTL_GO.idx)).toNat 0 1 1) = v
  have hreg : ∀ j, j ≠ ltcR + LTC_STEP_CTL_GO.idx →
      ((s.quiet.setReg (ltcR + LTC_STEP_CTL_GO.idx) v).putB ltcR LTC_STEP_CTL_GO false).reg j = s.reg j := by
    intro j hj
    rw [putB_eq, reg_put_ne _ _ _ _ hj, reg_setReg_ne _ _ hj, quiet_reg]
  refine ⟨_, hreg, on_putB_same _ _ _ _ (by decide) (by decide), ((RegsOf.refl _).setReg _ _).putB _ _ _, ?_⟩
  rw [regWrite_ltc s (by decide) h (by omega) lookup_stepCtl hf, written_stepCtl,
    if_pos (show fOf _ LTC_STEP_CTL_GO = 1 from bitsOf_putBits_same _ 0 1 1), hv, stepRequest_idle, askedStep_of_reg s hreg]
  rw [on_eq_get, get_of_reg (hreg _ (by decide)), ← on_eq_get, hpend]

/-- A request while a step is pending is refused with cause 2, and GO stays 0. -/
theorem regWrite_stepRequest_pending {a : Access} {m d : Nat} (h : Presents s a (ltcR + LTC_STEP_CTL_GO.idx) m d)
    (hp : privileged a.who = true) (hm : m % 2 = 1) (hd : d % 2 = 1) (hgo : s.on ltcR LTC_STEP_CTL_GO = false)
    (hpend : s.on ltcR LTC_STATUS_STEP_PEND = true) :
    s.regWrite a = (s.quiet.setReg (ltcR + LTC_STEP_CTL_GO.idx)
      (BitVec.ofNat 32 (s.reg (ltcR + LTC_STEP_CTL_GO.idx)).toNat)).flag a.who a.off 2 := by
  have hz : fOf (s.reg (ltcR + LTC_STEP_CTL_GO.idx)).toNat LTC_STEP_CTL_GO = 0 := by
    change s.get ltcR LTC_STEP_CTL_GO = 0
    simpa [on_eq_get] using hgo
  have hback : backTo (s.reg (ltcR + LTC_STEP_CTL_GO.idx)).toNat [LTC_STEP_CTL_GO]
      (putBits (s.reg (ltcR + LTC_STEP_CTL_GO.idx)).toNat 0 1 1) = (s.reg (ltcR + LTC_STEP_CTL_GO.idx)).toNat := by
    rw [backTo_cons, backTo_nil]
    exact putBits_back _ 0 1 1
  rw [regWrite_ltc_back s (l := [LTC_STEP_CTL_GO]) (by decide) h (by omega) lookup_stepCtl
      (fieldWrite_stepCtl _ hp hm hd) (testBit_stepCtl_rest _) (by rw [together_stepCtl, quiet_on, hpend]; rfl) ?_,
    hback, written_stepCtl, if_neg (by rw [hz]; decide)]
  rw [hback]
  intro e
  have := bitsOf_putBits_same (s.reg (ltcR + LTC_STEP_CTL_GO.idx)).toNat 0 1 1
  rw [← e] at this
  exact absurd (this.symm.trans hz) (by decide)

/-! ## The write of `LTC_UTCOFF` -/

/-- The fields of `LTC_UTCOFF` (R81): all written but LEAP_INS. -/
def utcoffFields : List FieldSpec :=
  [⟨0, 16, .rw, 0, .free, []⟩, ⟨16, 1, .rw, 0, .free, []⟩, ⟨17, 1, .rw, 0, .free, []⟩, ⟨18, 1, .rw, 0, .free, []⟩,
    ⟨19, 1, .rw, 0, .free, []⟩, ⟨20, 1, .ro, 0, .free, []⟩]

theorem lookup_utcoff : RegMap.lookup (ltcR + LTC_UTCOFF_OFFSET.idx) = some (ltcR, utcoffFields) := by
  decide +kernel

theorem together_utcoff (old new want : Nat) : s.together (ltcR + LTC_UTCOFF_OFFSET.idx) ltcR old new want =
    if fOf new LTC_UTCOFF_LEAP61 = 1 && fOf new LTC_UTCOFF_LEAP59 = 1 then [LTC_UTCOFF_LEAP61, LTC_UTCOFF_LEAP59] else [] := rfl

/-- The word a write asks of `LTC_UTCOFF`: the 20 written bits. -/
def askedUtcoff (old m d : Nat) : Nat := putBits old 0 20 (merged old m d)

theorem bitsOf_askedUtcoff {old m d lo width : Nat} (h : lo + width ≤ 20) :
    bitsOf (askedUtcoff old m d) lo width = bitsOf (merged old m d) lo width :=
  bitsOf_putBits_within _ _ _ _ _ _ (Nat.zero_le _) (by omega)

theorem leapIns_askedUtcoff (s : State) (m d : Nat) :
    bitsOf (askedUtcoff (s.reg (ltcR + LTC_UTCOFF_OFFSET.idx)).toNat m d) LTC_UTCOFF_LEAP_INS.lo 1 =
      s.get ltcR LTC_UTCOFF_LEAP_INS :=
  bitsOf_putBits_ne _ _ _ _ _ _ (by decide)

theorem askedUtcoff_lt (s : State) (m d : Nat) (k : Nat) : askedUtcoff (s.reg k).toNat m d < 2 ^ 32 :=
  putBits_lt (s.reg_lt k) (by decide)

theorem fieldWrite_utcoff {who : Who} {m d old : Nat} : ∀ f ∈ utcoffFields,
    s.fieldWrite who (ltcR + LTC_UTCOFF_OFFSET.idx) ltcR f m d old = (bitsOf (askedUtcoff old m d) f.lo f.width, []) := by
  intro f hf
  have hkind : ∀ f ∈ utcoffFields, (f.acc = .rw ∧ f.lock = .free ∧ f.ok = [] ∧ f.lo + f.width ≤ 20) ∨
      (f.acc = .ro ∧ 20 ≤ f.lo) := by decide
  rcases hkind f hf with ⟨hacc, hlock, hok, hlow⟩ | ⟨hacc, hhigh⟩
  · rw [fieldWrite_ltc s (by decide) (.inl hacc) (fun e => absurd (hacc.symm.trans e) (by decide)) hlock hok,
      bitsOf_askedUtcoff hlow]
  · rw [fieldWrite_ro s (.inl hacc), askedUtcoff, bitsOf_putBits_ne _ _ _ _ _ _ (.inr hhigh)]

theorem testBit_utcoff_rest (old m d i : Nat)
    (h : utcoffFields.any (fun f => Decidable.decide (f.lo ≤ i ∧ i < f.lo + f.width)) = false) :
    (askedUtcoff old m d).testBit i = old.testBit i := by
  simp [utcoffFields] at h
  rw [askedUtcoff, testBit_putBits, if_neg (by omega)]

/-- Both leap bits are set in a word. -/
def bothLeaps (w : Nat) : Prop := bitsOf w LTC_UTCOFF_LEAP61.lo 1 = 1 ∧ bitsOf w LTC_UTCOFF_LEAP59.lo 1 = 1

theorem together_askedUtcoff (old m d want : Nat) :
    (bothLeaps (merged old m d) → s.together (ltcR + LTC_UTCOFF_OFFSET.idx) ltcR old (askedUtcoff old m d) want =
      [LTC_UTCOFF_LEAP61, LTC_UTCOFF_LEAP59]) ∧
    (¬bothLeaps (merged old m d) → s.together (ltcR + LTC_UTCOFF_OFFSET.idx) ltcR old (askedUtcoff old m d) want = []) := by
  have h61 : fOf (askedUtcoff old m d) LTC_UTCOFF_LEAP61 = bitsOf (merged old m d) LTC_UTCOFF_LEAP61.lo 1 :=
    bitsOf_askedUtcoff (by decide)
  have h59 : fOf (askedUtcoff old m d) LTC_UTCOFF_LEAP59 = bitsOf (merged old m d) LTC_UTCOFF_LEAP59.lo 1 :=
    bitsOf_askedUtcoff (by decide)
  rw [together_utcoff, h61, h59]
  exact ⟨fun h => if_pos (by simpa [bothLeaps] using h), fun h => if_neg (by simpa [bothLeaps] using h)⟩

/-- A write that leaves at most one leap bit set is taken whole. -/
theorem regWrite_utcoff {a : Access} {m d : Nat} (h : Presents s a (ltcR + LTC_UTCOFF_OFFSET.idx) m d)
    (hb : ¬bothLeaps (merged (s.reg (ltcR + LTC_UTCOFF_OFFSET.idx)).toNat m d)) :
    ((s.regWrite a).reg (ltcR + LTC_UTCOFF_OFFSET.idx)).toNat =
        askedUtcoff (s.reg (ltcR + LTC_UTCOFF_OFFSET.idx)).toNat m d ∧
      s.others (s.regWrite a) [ltcR + LTC_UTCOFF_OFFSET.idx] ∧ s.regsOnly (s.regWrite a) := by
  by_cases hm : m = 0
  · subst hm
    rw [regWrite_zero s h, askedUtcoff, merged_zero, putBits_low_self]
    exact ⟨by rw [quiet_reg], fun _ _ => quiet_reg _ _, RegsOf.regsOnly (.refl _)⟩
  · have hf : s.quiet.fieldsWrite a.who (ltcR + LTC_UTCOFF_OFFSET.idx) ltcR utcoffFields m d
        (s.reg (ltcR + LTC_UTCOFF_OFFSET.idx)).toNat = (askedUtcoff (s.reg (ltcR + LTC_UTCOFF_OFFSET.idx)).toNat m d, []) := by
      refine fieldsWrite_eq _ (fieldWrite_utcoff _) (testBit_utcoff_rest _ m d) ?_
      rw [(together_askedUtcoff _ _ _ _ _).2 hb]
      intro x hx
      simp at hx
    rw [regWrite_ltc s (by decide) h hm lookup_utcoff hf, written_utcoff]
    refine ⟨?_, fun k hk => reg_setReg_ne _ _ (by simpa using hk), ((RegsOf.refl _).setReg _ _).regsOnly⟩
    rw [reg_setReg_same, BitVec.toNat_ofNat, Nat.mod_eq_of_lt (askedUtcoff_lt s m d _)]

/-- The word that a write asking for both leap bits leaves in `LTC_UTCOFF`: the two as they were. -/
def keptUtcoff (old m d : Nat) : Nat := backTo old [LTC_UTCOFF_LEAP61, LTC_UTCOFF_LEAP59] (askedUtcoff old m d)

theorem keptUtcoff_eq (old m d : Nat) : keptUtcoff old m d =
    putBits (putBits (askedUtcoff old m d) LTC_UTCOFF_LEAP61.lo 1 (bitsOf old LTC_UTCOFF_LEAP61.lo 1)) LTC_UTCOFF_LEAP59.lo 1
      (bitsOf old LTC_UTCOFF_LEAP59.lo 1) := by
  rw [keptUtcoff, backTo_cons, backTo_cons, backTo_nil]; rfl

theorem keptUtcoff_lt (m d k : Nat) : keptUtcoff (s.reg k).toNat m d < 2 ^ 32 := by
  rw [keptUtcoff_eq]
  exact putBits_lt (putBits_lt (askedUtcoff_lt s m d k) (by decide)) (by decide)

theorem bitsOf_keptUtcoff {old m d lo width : Nat} (h : lo + width ≤ LTC_UTCOFF_LEAP61.lo ∨ LTC_UTCOFF_LEAP59.lo + 1 ≤ lo) :
    bitsOf (keptUtcoff old m d) lo width = bitsOf (askedUtcoff old m d) lo width := by
  simp only [LTC_UTCOFF_LEAP61, LTC_UTCOFF_LEAP59] at h
  rw [keptUtcoff_eq, bitsOf_putBits_ne _ _ _ _ _ _ (by simp only [LTC_UTCOFF_LEAP59]; omega),
    bitsOf_putBits_ne _ _ _ _ _ _ (by simp only [LTC_UTCOFF_LEAP61]; omega)]

theorem leap61_keptUtcoff (old m d : Nat) :
    bitsOf (keptUtcoff old m d) LTC_UTCOFF_LEAP61.lo 1 = bitsOf old LTC_UTCOFF_LEAP61.lo 1 := by
  rw [keptUtcoff_eq, bitsOf_putBits_ne _ _ _ _ _ _ (by decide), bitsOf_putBits_same, Nat.mod_eq_of_lt (bitsOf_lt _ _ _)]

theorem leap59_keptUtcoff (old m d : Nat) :
    bitsOf (keptUtcoff old m d) LTC_UTCOFF_LEAP59.lo 1 = bitsOf old LTC_UTCOFF_LEAP59.lo 1 := by
  rw [keptUtcoff_eq, bitsOf_putBits_same, Nat.mod_eq_of_lt (bitsOf_lt _ _ _)]

/-- Where at most one leap bit was set, keeping both bits refuses one of the two. -/
theorem keptUtcoff_ne {old m d : Nat} (hs : ¬bothLeaps old) (hb : bothLeaps (merged old m d)) :
    keptUtcoff old m d ≠ askedUtcoff old m d := by
  intro e
  have h61 := leap61_keptUtcoff old m d
  have h59 := leap59_keptUtcoff old m d
  rw [e, bitsOf_askedUtcoff (by decide)] at h61 h59
  exact hs ⟨h61.symm.trans hb.1, h59.symm.trans hb.2⟩

/-- A write that would leave both leap bits set keeps the two, takes the rest and is flagged with cause 2. -/
theorem regWrite_utcoff_both {a : Access} {m d : Nat} (h : Presents s a (ltcR + LTC_UTCOFF_OFFSET.idx) m d)
    (hs : ¬bothLeaps (s.reg (ltcR + LTC_UTCOFF_OFFSET.idx)).toNat)
    (hb : bothLeaps (merged (s.reg (ltcR + LTC_UTCOFF_OFFSET.idx)).toNat m d)) :
    s.regWrite a = (s.quiet.setReg (ltcR + LTC_UTCOFF_OFFSET.idx)
      (BitVec.ofNat 32 (keptUtcoff (s.reg (ltcR + LTC_UTCOFF_OFFSET.idx)).toNat m d))).flag a.who a.off 2 := by
  have hm : m ≠ 0 := by
    rintro rfl
    rw [merged_zero] at hb
    exact hs hb
  rw [regWrite_ltc_back s (by decide) h hm lookup_utcoff (fieldWrite_utcoff _) (testBit_utcoff_rest _ m d)
    ((together_askedUtcoff _ _ _ _ _).1 hb) (keptUtcoff_ne hs hb), written_utcoff, keptUtcoff]

end State

open State

/-! ## The commands -/

theorem exec_ltcCapture_eq (s : State) (a : Access) : exec (.ltcCapture a) s = .next (s.regWrite a) := rfl
theorem exec_ltcStepRequest_eq (s : State) (a : Access) : exec (.ltcStepRequest a) s = .next (s.regWrite a) := rfl
theorem exec_utcoffWrite_eq (s : State) (a : Access) : exec (.utcoffWrite a) s = .next (s.regWrite a) := rfl

/-- LTC_CAPTURE: the snapshot of its instant, and nothing else (R87, R88). -/
theorem exec_ltcCapture (s : State) {a : Access} {m d : Nat} (h : Presents s a (ltcR + LTC_CAPTURE_GO.idx) m d)
    (hm : m % 2 = 1) (hd : d % 2 = 1) :
    ∃ t, exec (.ltcCapture a) s = .next t ∧
      (let u := s.captureAt a.pos
       let sec := u / secUnits
       let ns := u % secUnits / 2 ^ 32
       let tn := sec * 32000 + ns / 31250
       t.get ltcR LTC_SNAP_NS_NS = ns ∧ t.get ltcR LTC_SNAP_FRAC_FRAC = u % 2 ^ 32 ∧
       t.get ltcR LTC_SNAP_S_LO_S_LO = sec % 2 ^ 32 ∧ t.get ltcR LTC_SNAP_S_HI_S_HI = sec / 2 ^ 32 % 2 ^ 16 ∧
       t.get ltcR LTC_SNAP_TN_LO_TN_LO = tn % 2 ^ 32 ∧ t.get ltcR LTC_SNAP_TN_HI_TN_HI = tn / 2 ^ 32 % 2 ^ 32) ∧
      s.others t snapRegs ∧ s.regsOnly t := by
  obtain ⟨hothers, hrest⟩ := ltcCapture_frame (s.quiet.setReg (ltcR + LTC_CAPTURE_GO.idx)
    (BitVec.ofNat 32 (s.reg (ltcR + LTC_CAPTURE_GO.idx)).toNat)) a.pos
  refine ⟨_, (exec_ltcCapture_eq s a).trans (congrArg _ (regWrite_capture s h hm hd)), ltcCapture_fields _ _, fun k hk => ?_,
    (((RegsOf.refl _).setReg _ _).trans hrest).regsOnly⟩
  rw [hothers k hk]
  exact reg_setReg_self s.quiet _ k

/-- LTC_STEP_REQUEST while no step is pending. -/
theorem exec_ltcStepRequest (s : State) {a : Access} {m d : Nat} (h : Presents s a (ltcR + LTC_STEP_CTL_GO.idx) m d)
    (hp : privileged a.who = true) (hm : m % 2 = 1) (hd : d % 2 = 1) (hpend : s.on ltcR LTC_STATUS_STEP_PEND = false) :
    ∃ t, exec (.ltcStepRequest a) s = .next t ∧ t.ltc = { s.ltc with step := some s.askedStep } ∧
      t.on ltcR LTC_STATUS_STEP_PEND = true ∧ t.on ltcR LTC_STEP_CTL_GO = false ∧
      s.others t [ltcR + LTC_STEP_CTL_GO.idx, ltcR + LTC_STATUS_STEP_PEND.idx] ∧
      { t with regs := s.regs, bus := s.bus, ltc := s.ltc } = s := by
  obtain ⟨u, hreg, hgo, ⟨q, hq⟩, heq⟩ := regWrite_stepRequest s h hp hm hd hpend
  refine ⟨_, (exec_ltcStepRequest_eq s a).trans (congrArg _ heq), ?_,
    on_putB_same _ _ _ _ (by decide) (by decide), ?_, fun k hk => ?_, ?_⟩
  · rw [putB_ltc, setLtc_ltc, hq]; rfl
  · rw [on_eq_get, putB_eq, get_put_reg _ _ _ _ _ _ (by decide), setLtc_get, ← on_eq_get, hgo]
  · simp only [List.mem_cons, List.not_mem_nil, or_false, not_or] at hk
    rw [putB_eq, reg_put_ne _ _ _ _ hk.2, setLtc_reg, hreg k hk.1]
  · obtain ⟨q', hq'⟩ := (RegsOf.refl (u.setLtc (fun l => { l with step := some s.askedStep }))).putB ltcR
      LTC_STATUS_STEP_PEND true
    rw [hq', hq]; rfl

/-- LTC_STEP_REQUEST while a step is pending. -/
theorem exec_ltcStepRequest_pending (s : State) {a : Access} {m d : Nat}
    (h : Presents s a (ltcR + LTC_STEP_CTL_GO.idx) m d) (hp : privileged a.who = true) (hm : m % 2 = 1) (hd : d % 2 = 1)
    (hgo : s.on ltcR LTC_STEP_CTL_GO = false) (hpend : s.on ltcR LTC_STATUS_STEP_PEND = true) :
    ∃ t, exec (.ltcStepRequest a) s = .next t ∧ t.ltc = s.ltc ∧ t.on ltcR LTC_STATUS_STEP_PEND = true ∧
      t.on ltcR LTC_STEP_CTL_GO = false ∧ t.get glbR GLB_VIOL_INFO_CAUSE = 2 := by
  obtain ⟨hltc, hcause, hflag⟩ := (s.quiet.setReg (ltcR + LTC_STEP_CTL_GO.idx)
    (BitVec.ofNat 32 (s.reg (ltcR + LTC_STEP_CTL_GO.idx)).toNat)).flag_ltc (who := a.who) (c := 2) (by decide) h.off_lt
  have hreg : ∀ f : Fld, f.idx < 1024 → ((s.quiet.setReg (ltcR + LTC_STEP_CTL_GO.idx)
      (BitVec.ofNat 32 (s.reg (ltcR + LTC_STEP_CTL_GO.idx)).toNat)).flag a.who a.off 2).on ltcR f = s.on ltcR f := by
    intro f hf
    rw [on_eq_get, get_of_reg ((hflag _ hf).trans (reg_setReg_self s.quiet _ _)), quiet_get, ← on_eq_get]
  exact ⟨_, (exec_ltcStepRequest_eq s a).trans (congrArg _ (regWrite_stepRequest_pending s h hp hm hd hgo hpend)),
    by rw [hltc, setReg_ltc, quiet_ltc], (hreg _ (by decide)).trans hpend, (hreg _ (by decide)).trans hgo, hcause⟩

/-- A write of `LTC_UTCOFF` that leaves at most one leap bit set. -/
theorem exec_utcoffWrite (s : State) {a : Access} {m d : Nat} (h : Presents s a (ltcR + LTC_UTCOFF_OFFSET.idx) m d)
    (hb : ¬bothLeaps (merged (s.reg (ltcR + LTC_UTCOFF_OFFSET.idx)).toNat m d)) :
    ∃ t, exec (.utcoffWrite a) s = .next t ∧ (t.reg (ltcR + LTC_UTCOFF_OFFSET.idx)).toNat =
      askedUtcoff (s.reg (ltcR + LTC_UTCOFF_OFFSET.idx)).toNat m d ∧ s.others t [ltcR + LTC_UTCOFF_OFFSET.idx] ∧ s.regsOnly t :=
  ⟨_, exec_utcoffWrite_eq s a, regWrite_utcoff s h hb⟩

/-- One that would leave both set. -/
theorem exec_utcoffWrite_both (s : State) {a : Access} {m d : Nat} (h : Presents s a (ltcR + LTC_UTCOFF_OFFSET.idx) m d)
    (hs : ¬bothLeaps (s.reg (ltcR + LTC_UTCOFF_OFFSET.idx)).toNat)
    (hb : bothLeaps (merged (s.reg (ltcR + LTC_UTCOFF_OFFSET.idx)).toNat m d)) :
    ∃ t, exec (.utcoffWrite a) s = .next t ∧ (t.reg (ltcR + LTC_UTCOFF_OFFSET.idx)).toNat =
      keptUtcoff (s.reg (ltcR + LTC_UTCOFF_OFFSET.idx)).toNat m d ∧ t.get glbR GLB_VIOL_INFO_CAUSE = 2 ∧ t.ltc = s.ltc := by
  obtain ⟨hltc, hcause, hflag⟩ := (s.quiet.setReg (ltcR + LTC_UTCOFF_OFFSET.idx) (BitVec.ofNat 32
    (keptUtcoff (s.reg (ltcR + LTC_UTCOFF_OFFSET.idx)).toNat m d))).flag_ltc (who := a.who) (c := 2) (by decide) h.off_lt
  refine ⟨_, (exec_utcoffWrite_eq s a).trans (congrArg _ (regWrite_utcoff_both s h hs hb)), ?_, hcause, ?_⟩
  · rw [hflag _ (by decide), reg_setReg_same, BitVec.toNat_ofNat, Nat.mod_eq_of_lt (keptUtcoff_lt s m d _)]
  · rw [hltc, setReg_ltc, quiet_ltc]

/-- Settles O13: each of the three commands is one write of the LTC window. -/
theorem timeCounterCommands : Obligations.TimeCounterCommands := by
  refine ⟨fun s a m d h hm hd => exec_ltcCapture s h hm hd, fun s a m d h hp hm hd hgo =>
    ⟨exec_ltcStepRequest s h hp hm hd, exec_ltcStepRequest_pending s h hp hm hd hgo⟩, ?_⟩
  intro s a m d k w h hleaps both
  have hs : ¬bothLeaps (s.reg k).toNat := by
    rintro ⟨h61, h59⟩
    have e61 : s.get ltcR LTC_UTCOFF_LEAP61 = 1 := h61
    have e59 : s.get ltcR LTC_UTCOFF_LEAP59 = 1 := h59
    simp [on_eq_get, e61, e59] at hleaps
  by_cases hb : bothLeaps w
  · obtain ⟨t, hexec, hword, hcause, hltc⟩ := exec_utcoffWrite_both s h hs hb
    have kept : ∀ f : Fld, ltcR + f.idx = k → f.lo + f.width ≤ LTC_UTCOFF_LEAP61.lo ∨ LTC_UTCOFF_LEAP59.lo + 1 ≤ f.lo →
        t.get ltcR f = bitsOf (askedUtcoff (s.reg k).toNat m d) f.lo f.width :=
      fun f hk hf => (get_of_word hk hword).trans (bitsOf_keptUtcoff hf)
    exact ⟨t, hexec, (kept LTC_UTCOFF_OFFSET rfl (by decide)).trans (bitsOf_askedUtcoff (by decide)),
      (kept LTC_UTCOFF_VALID rfl (by decide)).trans (bitsOf_askedUtcoff (by decide)),
      (kept LTC_UTCOFF_FOLLOW rfl (by decide)).trans (bitsOf_askedUtcoff (by decide)),
      (kept LTC_UTCOFF_LEAP_INS rfl (by decide)).trans (leapIns_askedUtcoff s m d), fun hn => absurd hb hn,
      fun _ => ⟨(get_of_word (f := LTC_UTCOFF_LEAP61) rfl hword).trans (leap61_keptUtcoff _ m d),
        (get_of_word (f := LTC_UTCOFF_LEAP59) rfl hword).trans (leap59_keptUtcoff _ m d), hcause, hltc⟩⟩
  · obtain ⟨t, hexec, hword, hothers, hrest⟩ := exec_utcoffWrite s h hb
    have taken : ∀ f : Fld, ltcR + f.idx = k → f.lo + f.width ≤ 20 → t.get ltcR f = bitsOf w f.lo f.width :=
      fun f hk hf => (get_of_word hk hword).trans (bitsOf_askedUtcoff hf)
    exact ⟨t, hexec, taken LTC_UTCOFF_OFFSET rfl (by decide), taken LTC_UTCOFF_VALID rfl (by decide),
      taken LTC_UTCOFF_FOLLOW rfl (by decide),
      (get_of_word (f := LTC_UTCOFF_LEAP_INS) rfl hword).trans (leapIns_askedUtcoff s m d),
      fun _ => ⟨taken LTC_UTCOFF_LEAP61 rfl (by decide), taken LTC_UTCOFF_LEAP59 rfl (by decide), hothers, hrest⟩,
      fun h => absurd h hb⟩

end Machine
end Sys2Proof
end
